-- ==== Sys2Proof/Word.lean ====
section
/-! DEFINITION. The word types of the GTH-7 model and the sparse table that indexed state uses.
Every register is 32 bits (R3); memories are byte addressed. -/
namespace Sys2Proof

/-- A register of the fabric (R3). -/
abbrev Word := BitVec 32
/-- One byte of memory. -/
abbrev Byte := BitVec 8
/-- A sparse table: key and value pairs, keys rising; a key that is not listed has the table's default. -/
abbrev Tab (α : Type) := List (Nat × α)

end Sys2Proof
end

