-- ==== Sys2Proof/Syntax.lean ====
section
/-! DEFINITION. The commands of the GTH-7: one constructor for each row of the spec's table. Every command that is not
a plain Wick instruction carries its instant `t`, in ns on an axis that no reset touches; a register access carries its
initiator `by_`. What the outside world decides (a measured value, a received frame, an ECC error) is an operand. -/
namespace Sys2Proof

/-- The privilege mode of a hart's access (R427, R451). -/
inductive Priv where
  | user | supervisor | machine
  deriving DecidableEq, Repr

/-- The fabric initiators that access registers (R459). [DESIGN CHOICE, assumption 13] -/
inductive Ini where
  | hart (h : Fin 4) (p : Priv)
  | host
  | wick (c : Fin 64)
  | lantern (k : Fin 6)
  deriving DecidableEq, Repr

/-- A boundary-scan instruction (R54); every other 8-bit code acts as BYPASS. -/
inductive TapOp where
  | bypass | idcode | sample | extest | clamp | highz
  | other (code : BitVec 8)
  deriving DecidableEq, Repr

/-- The 3.3 V and 2.5 V LVCMOS lands, which the boundary register covers (R31, R55). -/
inductive Land where
  | lampCtl (n k : Fin 3)
  | ppsOut (k : Fin 4)
  | capIn (k : Fin 4)
  | rgmiiTxc | rgmiiTxCtl
  | rgmiiTxd (k : Fin 4)
  | rgmiiRxc | rgmiiRxCtl
  | rgmiiRxd (k : Fin 4)
  | mdc | mdio
  | tck | tms | tdi | tdo | trstN
  | resetN | pwrGood | faultN | tempAlertN
  | hsEn | uartTx | uartRx
  | bootSel (k : Fin 2)
  | perstN | wakeN
  deriving DecidableEq, Repr

/-- What a TAP_INSTRUCTION_UPDATE loads: the instruction, and what is shifted into the boundary register's cells. -/
structure TapScan where
  op : TapOp
  cells : List (Land × Bool) := []
  deriving DecidableEq, Repr

/-- The initiators that the eight DRAM ports serve (R23). -/
inductive DramIni where
  | controlCores | host | lensWickDma | mantle | cipher | lanterns | router | background
  deriving DecidableEq, Repr

/-- What the ECC of a read finds (R351): beat and syndrome of an error. -/
inductive Ecc where
  | clean
  | correctable (beat : Fin 8) (syndrome : BitVec 8)
  | uncorrectable (beat : Fin 8) (syndrome : BitVec 8)
  deriving DecidableEq, Repr

/-- A DRAM transaction's arrival at a port, or the service of the transaction that the scheduler chooses (R347). -/
inductive DramOp where
  | readArrives (ini : DramIni) (addr len : Nat)
  | writeArrives (ini : DramIni) (addr : Nat) (bytes : List (Option Byte))
  | serve (ecc : Ecc)
  deriving DecidableEq, Repr

/-- A core of the Wick instruction set: a Wick (W profile) or a Lantern (S profile) (R221). -/
inductive Core where
  | wick (n : Fin 64)
  | lantern (k : Fin 6)
  deriving DecidableEq, Repr

/-- The register-form functions of OP6 0x01 (R262). -/
inductive AluFn where
  | add | sub | adc | sbc | and | or | xor | andn | lsl | lsr | asr | ror | min | max | abs | neg | mov | cmp | tst
  | norm | mul | mpyr | sxb | zxb
  deriving DecidableEq, Repr

/-- The immediate functions of OP6 0x02 to 0x05 and 0x07 (R263). -/
inductive ImmFn where
  | addi | andi | ori | xori | cmpi
  deriving DecidableEq, Repr

/-- The pointer addressing modes of OP6 0x0A (R233, R264). -/
inductive MemMode where
  | ind
  | inc (i : BitVec 4)
  | post (pj : BitVec 4)
  | idx (i : BitVec 6)
  deriving DecidableEq, Repr

/-- One move of a DMOV (R267). -/
structure DMove where
  store : Bool
  reg : BitVec 6
  pk : BitVec 4
  i : BitVec 4
  deriving DecidableEq, Repr

/-- A decoded Wick instruction (R257 to R287). -/
inductive WInstr where
  | alu (f : AluFn) (dd da db : BitVec 6)
  | imm (f : ImmFn) (dd da : BitVec 6) (imm14 : BitVec 14)
  | shi (kind : BitVec 2) (dd da : BitVec 6) (count : BitVec 5)
  | ldi (dd : BitVec 6) (imm20 : BitVec 20)
  | ldhi (dd : BitVec 6) (imm12 : BitVec 12)
  | mem (store : Bool) (reg : BitVec 6) (mode : MemMode) (pk : BitVec 4)
  | memAbs (store : Bool) (reg : BitVec 6) (a : BitVec 16)
  | mac (d1 d2 : BitVec 6) (acc : BitVec 2)
  | msu (d1 d2 : BitVec 6) (acc : BitVec 2)
  | mpa (d1 d2 : BitVec 6) (acc : BitVec 2)
  | clra (acc : BitVec 2)
  | ext (d1 : BitVec 6) (acc : BitVec 2) (s : BitVec 4)
  | movad (d1 : BitVec 6) (acc : BitVec 2) (w : BitVec 3)
  | movda (d1 : BitVec 6) (acc : BitVec 2) (w : BitVec 3) (ins : Bool)
  | adda (acc x : BitVec 2)
  | suba (acc x : BitVec 2)
  | sha (acc : BitVec 2) (s : BitVec 6)
  | nega (acc : BitVec 2)
  | absa (acc : BitVec 2)
  | sat48 (acc : BitVec 2)
  | mac2 (sx sy : Bool) (accX accY : BitVec 2) (da db dc de : BitVec 6)
  | dmov (a b : DMove)
  | paddi (pk : BitVec 4) (imm : BitVec 16)
  | pldi (pk : BitVec 4) (imm : BitVec 16)
  | movdp (pk : BitVec 4) (da : BitVec 6)
  | movpd (pk : BitVec 4) (dd : BitVec 6)
  | cbset (k : BitVec 2) (da db : BitVec 6)
  | cbget (k : BitVec 2) (dd : BitVec 6) (h : Bool)
  | movdl (l : BitVec 2) (da : BitVec 6)
  | movld (l : BitVec 2) (dd : BitVec 6)
  | movdw (da : BitVec 6)
  | movwd (dd : BitVec 6)
  | movrd (dd : BitVec 6)
  | br (cond : BitVec 4) (target : BitVec 14)
  | jal (pk : BitVec 4) (target : BitVec 14)
  | jr (pk : BitVec 4)
  | loopi (lc : BitVec 2) (rot : Bool) (count : BitVec 16) (off : BitVec 7)
  | loopr (lc : BitVec 2) (rot : Bool) (dc : BitVec 6) (e : BitVec 14)
  | nop
  | rot
  | halt
  | twait
  | tend (d : BitVec 6)
  | tid (d : BitVec 6)
  | dmawt (d : BitVec 6) (ch : BitVec 2)
  | dmast (d : BitVec 6) (ch : BitVec 2)
  | fence
  | dma (ch : BitVec 2) (out : Bool) (mode : BitVec 2) (pk : BitVec 4) (n : BitVec 5) (dc : BitVec 6)
  | fld (m n : BitVec 5)
  | fst (m n : BitVec 5)
  | tnow (k : BitVec 2)
  | tget (d : BitVec 6) (k p : BitVec 2)
  | tput (d : BitVec 6) (k p : BitVec 2)
  | tadd (k j : BitVec 2) (d : BitVec 6) (u : Bool)
  | tsub (d : BitVec 6) (k j : BitVec 2)
  | tmov (k j : BitVec 2)
  | twaitu (k : BitVec 2)
  | rcmd (dd : BitVec 6) (pk : BitVec 4) (tmS tmD : BitVec 2)
  | rstat (dd ds : BitVec 6) (wait : Bool)
  | place (r : BitVec 5) (di : BitVec 6) (b : BitVec 5) (ovr : Bool) (cls : BitVec 3) (tmS tmD tmU : BitVec 2)
  | build (dd : BitVec 6) (pk : BitVec 4) (tm : BitVec 2)
  | nbr (r : BitVec 5) (di : BitVec 6) (write : Bool) (w : BitVec 4) (dc : BitVec 6)
  deriving DecidableEq, Repr

/-- What a lamp has delivered to its Lens since the last such row: ADC samples, and the channeliser's output by bin,
each oldest first. The prototype filter of the channeliser is not in the spec. [DESIGN CHOICE, assumption 157] -/
structure Feed where
  adc : List (Int × Int) := []
  bins : List (Int × List (Int × Int)) := []
  deriving DecidableEq, Repr

/-- The lookback of the head detection of a Lens: the stream of its group, branch by branch. [DESIGN CHOICE, assumption
157] -/
structure Lookback where
  lens : Fin 3
  streams : List (List (Int × Int))
  deriving DecidableEq, Repr

/-- Where a unit SET comes from (R446): SYS_UNIT_CMD written with `v`, or the mailbox's head entry. -/
inductive UnitVia where
  | reg (by_ : Ini) (v : BitVec 32)
  | mailbox
  deriving DecidableEq, Repr

/-- The header of a Bilolabry message that arrives, apart from TYPE and SEQ: its version, its source member and its
CLUSTER_ID. -/
structure CluHdr where
  major : BitVec 8
  minor : BitVec 8
  src : BitVec 10
  cluster : BitVec 32
  deriving DecidableEq, Repr

/-- The three lamp masks of a partition deal (R450). -/
structure Masks where
  l0 : BitVec 64
  l1 : BitVec 64
  l2 : BitVec 64
  deriving DecidableEq, Repr

/-- One step of a running long operation (R440), with what the outside world decides about it: for a training, whether the
command bus raises an alert and whether the step fails; for the Snuffer, whether a self-test step passes. -/
inductive LongStep where
  | training (alert bad : Bool)
  | neighbour
  | key
  | snuffer (ok : Bool)
  | load
  | calWrite
  deriving DecidableEq, Repr

/-- The commands, in the order of the spec's table. -/
inductive Instr where
  /-- R5: A write to any register that has no row of its own sets, ignores or W1C-clears fields under its access codes. -/
  | registerWrite (t : Nat) (by_ : Ini) (a : BitVec 36) (n : Fin 9) (v : BitVec 64)
  /-- R5: A read of an RC counter returns its value and clears it to its reset value, keeping any increment that falls in the same cycle. -/
  | rcRead (t : Nat) (by_ : Ini) (a : BitVec 36) (n : Fin 9)
  /-- R65: A read of a low register of a two-register quantity latches the high half for the reading initiator. -/
  | lowRead (t : Nat) (by_ : Ini) (a : BitVec 36)
  /-- R57: VIN rises through the lock-out, soft start begins and the power-on clears and sets SYS_RESET_CAUSE. -/
  | vinRise (t : Nat) (fromAbsent : Bool)
  /-- R34: VIN falls below the falling lock-out threshold and the pass transistor turns off. -/
  | vinLockoutFall (t : Nat)
  /-- R59: VIN falls below the power-fail warning level and SYS_SUPPLY.WARN is set. -/
  | powerFailWarning (t : Nat)
  /-- R34: VIN rises above the overvoltage threshold, the pass transistor turns off and OV_SEEN is set. -/
  | overvoltageShutoff (t : Nat)
  /-- R34: VIN falls below the overvoltage release level and soft start repeats as a power-on. -/
  | overvoltageRelease (t : Nat)
  /-- R35: The input current has stayed above the breaker threshold for the fault time, so the pass transistor turns off and BREAKER is set. -/
  | breakerTrip (t : Nat)
  /-- R35: The retry interval after a breaker trip expires and soft start repeats. -/
  | breakerRetry (t : Nat)
  /-- R34: HS_EN is driven low and holds the pass transistor off. -/
  | hsEnLow (t : Nat)
  /-- R34: HS_EN rises and the pass transistor may turn on again. -/
  | hsEnRise (t : Nat)
  /-- R38: The last internal rail comes into regulation after the rail sequence and PWR_GOOD rises. -/
  | pwrGoodRise (t : Nat) (ref : Bool)
  /-- R38: An internal rail leaves regulation, so PWR_GOOD falls, a cold reset follows and SUPPLY_FAULT is set. -/
  | supplyFault (t : Nat)
  /-- R39: 100 ms after PWR_GOOD the reference is still absent and FAULT_N is asserted. -/
  | referenceAbsentTimeout (t : Nat)
  /-- R39: Internal reset is released once PWR_GOOD, RESET_N and the PLLs allow, and the raw counter, the straps and the boot start. -/
  | internalResetRelease (t : Nat) (strap : BitVec 2)
  /-- R40: RESET_N is held low long enough and the module makes a cold reset, recording PIN. -/
  | resetNAssert (t : Nat) (low : Nat) (takes : Bool)
  /-- R40: RESET_N rises, and internal reset is released 0.5 ms later. -/
  | resetNRise (t : Nat)
  /-- R58: A keyed SYS_RESET_CTRL write with COLD requests a cold reset. -/
  | softCold (t : Nat) (by_ : Ini) (warm : Bool)
  /-- R58: A keyed SYS_RESET_CTRL write with WARM requests a warm reset that keeps DRAM and SRAM. -/
  | softWarm (t : Nat) (by_ : Ini)
  /-- R42: PERST_N resets only the PCIe endpoint and the mailbox, clearing READY and emptying the rings. -/
  | perstFall (t : Nat)
  /-- R42: PERST_N rises and the endpoint begins link training within 20 ms. -/
  | perstRise (t : Nat)
  /-- R42: The PCIe link comes up after training or goes down. -/
  | pcieLinkChange (t : Nat) (up : Bool)
  /-- R46: The lid temperature reaches ALERT_SET, TEMP_ALERT_N is asserted and an interrupt is raised. -/
  | tempAlertSet (t : Nat) (temp : Int)
  /-- R46: The lid temperature falls to ALERT_SET minus 5 °C and TEMP_ALERT_N is released. -/
  | tempAlertClear (t : Nat) (temp : Int)
  /-- R47: At +130 °C the module stops every transmission, turns off all rails except the always-on domain and asserts FAULT_N. -/
  | thermalTrip (t : Nat) (temp : Int)
  /-- R47: The lid cools to +115 °C after a trip and the module restarts with a cold reset. -/
  | thermalTripRecovery (t : Nat) (temp : Int)
  /-- R49: The reference monitor declares loss, so the PLLs hold, REF_LOSS is set and the lamps stop and refuse transmissions. -/
  | referenceLoss (t : Nat)
  /-- R50: The reference has been good for 10 ms, so the PLLs relock and the lamps retune. -/
  | referenceRecovery (t : Nat)
  /-- R59: Every 1 ms the VIN and IIN fields of SYS_SUPPLY are updated. -/
  | supplySample (t : Nat) (vin : BitVec 16) (iin : BitVec 8)
  /-- R60: Every 1 ms LID_TEMP and the lamp die temperatures are updated. -/
  | lidTemperatureSample (t : Nat) (lid l0 l1 l2 : BitVec 16)
  /-- R54: A new instruction is loaded into the boundary-scan TAP. -/
  | tapInstructionUpdate (t : Nat) (scan : TapScan)
  /-- R66: NTIM_CMD SET sets network time to the argument and cancels any slew. -/
  | ntimSet (t : Nat) (by_ : Ini)
  /-- R66: NTIM_CMD STEP moves network time by a signed amount and cancels any slew. -/
  | ntimStep (t : Nat) (by_ : Ini)
  /-- R66: NTIM_CMD SLEW starts moving network time by a signed amount at the slew rate, replacing any remainder. -/
  | slew (t : Nat) (by_ : Ini)
  /-- R66: NTIM_CMD CANCEL_SLEW discards the unapplied slew remainder. -/
  | cancelSlew (t : Nat) (by_ : Ini)
  /-- R68: The slew remainder reaches 0 and SLEWING clears. -/
  | slewComplete (t : Nat)
  /-- R64: A write of NTIM_RATE folds the elapsed time into ofs, latches base and sets the new rate, or is refused in BEACON mode. -/
  | ntimRateWrite (t : Nat) (by_ : Ini) (v : Word)
  /-- R463: A write of NTIM_SRC_CTL.MODE hands over the discipline of network time and ends or starts holdover. -/
  | ntimModeWrite (t : Nat) (by_ : Ini) (v : Word)
  /-- R75: A write of HOLD in PTP mode declares or ends a holdover. -/
  | ntimHoldWrite (t : Nat) (by_ : Ini) (hold : Bool)
  /-- R74: An acceptance window closes with no accepted beacon and a miss is counted. -/
  | beaconMissed (t : Nat)
  /-- R215: A received beacon is decrypted under the beacon key, checked against its last SEQ and offered to the servo. -/
  | beaconReceive (t : Nat) (i : Fin 3072)
  /-- R79: A write of NTIM_PPSk_CTL.ARM=1 starts pulse output k, or refuses it with BAD. -/
  | ppsArm (t : Nat) (by_ : Ini) (k : Fin 4) (pol : Bool)
  /-- R79: A write of ARM=0 ends output k at the end of the pulse in progress. -/
  | ppsDisarm (t : Nat) (by_ : Ini) (k : Fin 4) (pol : Bool)
  /-- R79: Network time reaches the next pulse start and the output edge is driven. -/
  | ppsEdge (t : Nat) (k : Fin 4)
  /-- R79: WIDTH has passed since a pulse began and the output returns to idle. -/
  | ppsPulseEnd (t : Nat) (k : Fin 4)
  /-- R80: A write of TMR_CHn_CMP arms compare channel n. -/
  | compareArm (t : Nat) (by_ : Ini) (n : Fin 32) (v : Word)
  /-- R81: A compare channel fires at its value, pulses its targets, chains and re-arms if periodic. -/
  | compareFire (t : Nat) (n : Fin 32)
  /-- R82: A selected source edge copies local time into the capture registers, into the shadow during a read, or overruns. -/
  | capture (t : Nat) (src : Fin 32) (rising : Bool)
  /-- R82: A read of TMR_CHn_CAP_LO opens the channel's read window. -/
  | capLoRead (t : Nat) (by_ : Ini) (n : Fin 32)
  /-- R82: The read window closes on a CAP_HI read or after 1 µs, and any pending shadow capture moves in. -/
  | capWindowClose (t : Nat) (n : Fin 32) (reader : Option Ini)
  /-- R94: LAMPn_STATE_CTL.REQ OFF turns the lamp off, stopping any transmission. -/
  | reqOff (t : Nat) (by_ : Ini) (n : Fin 3) (fcorr : Bool)
  /-- R94: REQ STANDBY brings the lamp to STANDBY, stopping any transmission. -/
  | reqStandby (t : Nat) (by_ : Ini) (n : Fin 3) (fcorr : Bool)
  /-- R94: REQ RX is checked and refused, or leads through SETTLE or the receive settle to RX. -/
  | reqRx (t : Nat) (by_ : Ini) (n : Fin 3) (fcorr : Bool)
  /-- R93: The OFF to STANDBY interval ends with bias settled. -/
  | lampPowerUpComplete (t : Nat) (n : Fin 3)
  /-- R93: The 5 µs receive-chain settle ends and the lamp enters RX. -/
  | rxSettleComplete (t : Nat) (n : Fin 3)
  /-- R96: A write of LAMPn_TUNE in RX starts a retune, is stored, or waits for the turn-round. -/
  | lampTuneWrite (t : Nat) (by_ : Ini) (n : Fin 3) (v : Word)
  /-- R96: SETTLE ends with lock and the lamp returns to RX, ending queued commands off the new centre. -/
  | settleComplete (t : Nat) (n : Fin 3)
  /-- R97: Lock has failed for 200 µs, so the lamp enters STANDBY, sets LOCK_FAIL and invalidates the OSC calibration. -/
  | lockFail (t : Nat) (n : Fin 3)
  /-- R98: Every 100 ms the synthesiser word is recomputed from NTIM_RATE without relocking. -/
  | synthRecompute (t : Nat) (n : Fin 3)
  /-- R103: A write of LAMPn_CAL_CTL.RUN starts, holds or refuses a foreground calibration run as a long operation. -/
  | foregroundCalibration (t : Nat) (by_ : Ini) (n : Fin 3) (v : Word)
  /-- R101: A 50 µs calibration step ends, and the last step of a calibration installs its coefficients. -/
  | calStepComplete (t : Nat) (n : Fin 3)
  /-- R102: The lamp returns to RX or STANDBY after a calibration step or the relock, and stored requests take effect. -/
  | calReturnComplete (t : Nat) (n : Fin 3)
  /-- R104: With AUTO set, a due calibration step starts inside an offered gap that is long enough. -/
  | backgroundCalStep (t : Nat) (n : Fin 3)
  /-- R100: A temperature change, 600 s or a large retune makes a calibration due. -/
  | calDue (t : Nat) (n : Fin 3) (temp : BitVec 16)
  /-- R111: A listen-before-talk listen begins once the lamp is in RX, after a deadline test. -/
  | lbtListenStart (t : Nat) (n : Fin 3)
  /-- R111: A listen ends clear or busy, counting busy and scheduling a back-off retry or DEADLINE_MISSED. -/
  | lbtListenEnd (t : Nat) (n : Fin 3) (powers : List Int)
  /-- R106: At T minus 25 µs the transmit command takes effect, blanking the lamp and starting the turn-round. -/
  | rxToTxStart (t : Nat) (n : Fin 3) (skew : Fin 13)
  /-- R106: The turn-round ends and the first preamble symbol leaves the land at T. -/
  | rxToTxEnd (t : Nat) (n : Fin 3)
  /-- R93: The last symbol leaves the land and TX_TO_RX begins. -/
  | transmissionEnd (t : Nat) (n : Fin 3)
  /-- R93: TX_TO_RX ends, so blanking ends and search resumes. -/
  | txToRxEnd (t : Nat) (n : Fin 3)
  /-- R117: A LAMP_PAIR_CTL write requests a pair and starts alignment, or is refused. -/
  | pairForm (t : Nat) (by_ : Ini) (v : Word)
  /-- R117: The 4-step alignment ends and FORMED is set. -/
  | pairAlignComplete (t : Nat)
  /-- R120: A write of PAIR=0b00 dissolves the pair and both lamps go to STANDBY. -/
  | pairDissolve (t : Nat) (by_ : Ini) (v : Word)
  /-- R128: The seam re-alignment after a retune of a span pair ends and the straddling groups are searched again. -/
  | seamAlignComplete (t : Nat)
  /-- R132: The searcher declares a preamble at a class after CONSEC passing evaluations, merging and suppressing as set out. -/
  | preambleDeclaration (t : Nat) (n : Fin 3) (adc : List (Int × Int)) (bins : List (Int × List (Int × Int)))
    (partner : Feed) (cls : Fin 8) (pos : Int) (xs : List (List (Int × Int)))
  /-- R138: On a tick the head detection gets a context once the limits allow. -/
  | contextAllocate (t : Nat) (q : Lookback)
  /-- R304: Lens offers a context's task to Chandler, which arms a pool descriptor or refuses. -/
  | activation (t : Nat) (n : Fin 3)
  /-- R138: A pending detection older than HOLD is dropped and counted, freeing any context. -/
  | holdExpiry (t : Nat) (n : Fin 3)
  /-- R465: A write of LENSn_CTL.SRCH_EN enables or stops declarations and allocation, or is ignored for a bad ring area. -/
  | searchEnable (t : Nat) (by_ : Ini) (n : Fin 3) (v : Word)
  /-- R140: Lens writes a block into a context's ring when there is room and advances the task's dependence counter. -/
  | blockWrite (t : Nat) (i : Fin 3072) (xs : List (List (Int × Int)))
  /-- R140: A context's oldest unwritten sample would leave its delay line, so the context ends with overrun. -/
  | contextOverrun (t : Nat) (i : Fin 3072)
  /-- R142: A context command sets the block count after which capture stops. -/
  | setEnd (t : Nat) (by_ : Ini) (i : Fin 3072) (gen : BitVec 8)
  /-- R142: A context command frees ring slots up to the blocks consumed. -/
  | consumed (t : Nat) (by_ : Ini) (i : Fin 3072) (gen : BitVec 8)
  /-- R147: A context command marks the sync index and computes the network-time stamp. -/
  | setSync (t : Nat) (by_ : Ini) (i : Fin 3072) (gen : BitVec 8)
  /-- R146: A context command gives the nominal deviation and BT and computes FDE. -/
  | setMod (t : Nat) (by_ : Ini) (i : Fin 3072) (gen : BitVec 8)
  /-- R142: A context command ends the context with END_REASON 1 and frees its units. -/
  | release (t : Nat) (by_ : Ini) (i : Fin 3072) (gen : BitVec 8)
  /-- R143: SYNC_LIMIT symbols pass with no SET_SYNC and the context ends with END_REASON 2. -/
  | syncTimeout (t : Nat) (i : Fin 3072)
  /-- R143: HDR_LIMIT symbols pass after the sync mark with no SET_END and the context ends with END_REASON 3. -/
  | headerTimeout (t : Nat) (i : Fin 3072)
  /-- R151: At each 16-symbol boundary and at frame end the spectral mask is checked, counting and optionally stopping the transmission. -/
  | maskCheck (t : Nat) (n : Fin 3) (base : List (Int × Int))
  /-- R173: A write of a descriptor address queues a Mantle job, and the writer stalls while the queue is full. -/
  | mantSubmit (t : Nat) (by_ : Ini) (v : Word)
  /-- R173: A queued job goes to a lane or an encoder in class order once one is suitable. -/
  | mantJobDispatch (t : Nat)
  /-- R163: A header decode completes, validating the CRC and version and opening a store entry or binding. -/
  | decHdr (t : Nat) (a : Nat)
  /-- R171: A payload codeword decode completes by layered min-sum, with store use and combination for bound copies. -/
  | decPay (t : Nat) (a : Nat)
  /-- R177: A header encode completes, computing the CRC. -/
  | encHdr (t : Nat) (a : Nat)
  /-- R177: A payload encode completes. -/
  | encPay (t : Nat) (a : Nat)
  /-- R176: A write of MANT_ABORT withdraws a job or returns TOO_LATE. -/
  | mantAbort (t : Nat) (by_ : Ini) (v : Word)
  /-- R179: A store entry role times out, as an unbound first copy or an import hold, and the entry closes. -/
  | storeEntryExpiry (t : Nat) (k : Fin 4096)
  /-- R185: An export not handed on by t0 plus 2 ms minus MARGIN is dropped and counted. -/
  | expLate (t : Nat)
  /-- R178: A write setting pairing, export or import enable is ignored unless the store lies in ranks in service. -/
  | mantPairEnable (t : Nat) (by_ : Ini) (exp : Bool) (v : Word)
  /-- R186: An arriving soft-export body is matched, combined and written to the import ring, or dropped. -/
  | importBody (t : Nat) (body : List Byte)
  /-- R200: When codeword 0 decodes the Lantern classifies the frame, looks it up, chooses a key and submits the cipher job. -/
  | addressingBlockRead (t : Nat) (i : Fin 3072)
  /-- R202: A verified frame locks its entry and is committed against the replay window, updating drift, acknowledging and forwarding. -/
  | commit (t : Nat) (i : Fin 3072)
  /-- R16: No decision by t0 plus 215 µs means no acknowledgement is sent and a late decision is counted. -/
  | lateDecision (t : Nat) (i : Fin 3072)
  /-- R15: At t0 plus 225 µs the acknowledgement hardware issues the acknowledgement transmit command to the lamp. -/
  | ackTransmitCommand (t : Nat) (i : Fin 3072)
  /-- R199: NBR command REGISTER inserts an active entry. -/
  | register (t : Nat) (by_ : Ini)
  /-- R198: NBR command UPDATE copies the firmware fields from the buffer. -/
  | update (t : Nat) (by_ : Ini) (i : BitVec 18)
  /-- R198: NBR command READ copies an entry into the buffer. -/
  | nbrRead (t : Nat) (by_ : Ini) (i : BitVec 18)
  /-- R198: NBR command REMOVE retires an entry and returns its messages. -/
  | remove (t : Nat) (by_ : Ini) (i : BitVec 18)
  /-- R198: NBR command PURGE frees a retired entry and its directory way. -/
  | purge (t : Nat) (by_ : Ini) (i : BitVec 18)
  /-- R199: NBR command LOAD registers entries from DRAM as a long operation, optionally as restored. -/
  | nbrLoad (t : Nat) (by_ : Ini)
  /-- R198: NBR command EXPORT writes the active and retired entries to DRAM as a long operation. -/
  | nbrExport (t : Nat) (by_ : Ini)
  /-- R211: NBR command ENQUEUE appends a message slot to an entry's queue. -/
  | enqueue (t : Nat) (by_ : Ini) (i : BitVec 18)
  /-- R198: NBR command DEQUEUE removes the head message and returns its slot. -/
  | dequeue (t : Nat) (by_ : Ini) (i : BitVec 18)
  /-- R197: A write of NBR_CTL.EN enables the table, or is ignored for areas outside ranks in service. -/
  | nbrEnable (t : Nat) (by_ : Ini) (v : Word)
  /-- R220: A write of LANTk_CTL.RUN starts or halts a Lantern, and RUN=1 is ignored without a loaded image. -/
  | lanternRun (t : Nat) (by_ : Ini) (k : Fin 6) (run : Bool)
  /-- R251: A write of WICKn_CTL.RUN=1 starts a loaded, halted core at ENTRY, or sets START_REFUSED. -/
  | wickRun (t : Nat) (by_ : Ini) (n : Fin 64)
  /-- R251: A write of RUN=0 halts the core and withdraws its runs, returning their credits. -/
  | wickHaltRequest (t : Nat) (by_ : Ini) (n : Fin 64)
  /-- R229: A fabric access to WICKn_DMEM_DATA reads or writes a data word, incrementing ADDR if INC is set. -/
  | dmemDataAccess (t : Nat) (by_ : Ini) (n : Fin 64) (w : Option Word)
  /-- R232: A write of WICKn_IMEM_DATA writes an instruction word of a halted core, or is a bus error. -/
  | imemDataWrite (t : Nat) (by_ : Ini) (n : Fin 64) (v : Word)
  /-- R249: WICK_LOAD_CMD LOAD checks and writes a .jlx image into the Wicks or a Lantern as a long operation. -/
  | imageLoad (t : Nat) (by_ : Ini) (v : Word)
  /-- R440: One step of at most 50 µs of a running long operation completes, and the last step returns the closing code. -/
  | longOperationStep (t : Nat) (op : LongStep)
  /-- R262: ALU ADD, saturating. -/
  | add (co : Core) (dd da db : BitVec 6)
  /-- R262: ALU SUB, saturating. -/
  | sub (co : Core) (dd da db : BitVec 6)
  /-- R262: ALU add with carry. -/
  | adc (co : Core) (dd da db : BitVec 6)
  /-- R262: ALU subtract with borrow. -/
  | sbc (co : Core) (dd da db : BitVec 6)
  /-- R262: ALU bitwise and. -/
  | and (co : Core) (dd da db : BitVec 6)
  /-- R262: ALU bitwise or. -/
  | or (co : Core) (dd da db : BitVec 6)
  /-- R262: ALU bitwise xor. -/
  | xor (co : Core) (dd da db : BitVec 6)
  /-- R262: ALU and with the complement. -/
  | andn (co : Core) (dd da db : BitVec 6)
  /-- R262: ALU logical shift left. -/
  | lsl (co : Core) (dd da db : BitVec 6)
  /-- R262: ALU logical shift right. -/
  | lsr (co : Core) (dd da db : BitVec 6)
  /-- R262: ALU arithmetic shift right. -/
  | asr (co : Core) (dd da db : BitVec 6)
  /-- R262: ALU rotate right mod 24. -/
  | ror (co : Core) (dd da db : BitVec 6)
  /-- R262: ALU signed minimum. -/
  | min (co : Core) (dd da db : BitVec 6)
  /-- R262: ALU signed maximum. -/
  | max (co : Core) (dd da db : BitVec 6)
  /-- R262: ALU absolute value, saturating. -/
  | abs (co : Core) (dd da : BitVec 6)
  /-- R262: ALU negate, saturating. -/
  | neg (co : Core) (dd da : BitVec 6)
  /-- R262: ALU register move. -/
  | mov (co : Core) (dd da : BitVec 6)
  /-- R262: ALU compare, setting the flags of a subtraction. -/
  | cmp (co : Core) (da db : BitVec 6)
  /-- R262: ALU test, setting the flags of an and. -/
  | tst (co : Core) (da db : BitVec 6)
  /-- R262: ALU count of redundant sign bits. -/
  | norm (co : Core) (dd da : BitVec 6)
  /-- R262: ALU integer multiply, saturating. -/
  | mul (co : Core) (dd da db : BitVec 6)
  /-- R262: ALU rounding fractional multiply. -/
  | mpyr (co : Core) (dd da db : BitVec 6)
  /-- R262: ALU sign-extend byte. -/
  | sxb (co : Core) (dd da : BitVec 6)
  /-- R262: ALU zero-extend byte. -/
  | zxb (co : Core) (dd da : BitVec 6)
  /-- R263: Add a sign-extended immediate. -/
  | addi (co : Core) (dd da : BitVec 6) (imm : BitVec 14)
  /-- R263: And with an immediate. -/
  | andi (co : Core) (dd da : BitVec 6) (imm : BitVec 14)
  /-- R263: Or with an immediate. -/
  | ori (co : Core) (dd da : BitVec 6) (imm : BitVec 14)
  /-- R263: Xor with an immediate. -/
  | xori (co : Core) (dd da : BitVec 6) (imm : BitVec 14)
  /-- R263: Shift or rotate by an immediate count. -/
  | shi (co : Core) (kind : BitVec 2) (dd da : BitVec 6) (count : BitVec 5)
  /-- R263: Compare with an immediate. -/
  | cmpi (co : Core) (da : BitVec 6) (imm : BitVec 14)
  /-- R263: Load a sign-extended 20-bit immediate. -/
  | ldi (co : Core) (dd : BitVec 6) (imm : BitVec 20)
  /-- R263: Load the upper 12 bits of a register. -/
  | ldhi (co : Core) (dd : BitVec 6) (imm : BitVec 12)
  /-- R264: Load a word using a pointer addressing mode. -/
  | ld (co : Core) (reg : BitVec 6) (m : MemMode) (pk : BitVec 4)
  /-- R264: Store a word using a pointer addressing mode. -/
  | st (co : Core) (reg : BitVec 6) (m : MemMode) (pk : BitVec 4)
  /-- R264: Load a word from an absolute address. -/
  | lda (co : Core) (reg : BitVec 6) (a : BitVec 16)
  /-- R264: Store a word to an absolute address. -/
  | sta (co : Core) (reg : BitVec 6) (a : BitVec 16)
  /-- R267: Two moves in slots A and B. -/
  | dmov (co : Core) (a b : DMove)
  /-- R268: Multiply-accumulate into an accumulator. -/
  | mac (co : Core) (d1 d2 : BitVec 6) (acc : BitVec 2)
  /-- R268: Multiply-subtract from an accumulator. -/
  | msu (co : Core) (d1 d2 : BitVec 6) (acc : BitVec 2)
  /-- R268: Multiply into an accumulator. -/
  | mpa (co : Core) (d1 d2 : BitVec 6) (acc : BitVec 2)
  /-- R268: Clear an accumulator. -/
  | clra (co : Core) (acc : BitVec 2)
  /-- R268: Extract a shifted, rounded and saturated accumulator to a data register. -/
  | ext (co : Core) (d1 : BitVec 6) (acc : BitVec 2) (sh : BitVec 4)
  /-- R268: Read a 24-bit window of an accumulator. -/
  | movad (co : Core) (d1 : BitVec 6) (acc : BitVec 2) (w : BitVec 3)
  /-- R268: Load or insert a 24-bit window of an accumulator. -/
  | movda (co : Core) (d1 : BitVec 6) (acc : BitVec 2) (w : BitVec 3) (ins : Bool)
  /-- R268: Add one accumulator to another. -/
  | adda (co : Core) (acc x : BitVec 2)
  /-- R268: Subtract one accumulator from another. -/
  | suba (co : Core) (acc x : BitVec 2)
  /-- R268: Shift an accumulator. -/
  | sha (co : Core) (acc : BitVec 2) (sh : BitVec 6)
  /-- R268: Negate an accumulator. -/
  | nega (co : Core) (acc : BitVec 2)
  /-- R268: Absolute value of an accumulator. -/
  | absa (co : Core) (acc : BitVec 2)
  /-- R268: Saturate an accumulator to 48 bits. -/
  | sat48 (co : Core) (acc : BitVec 2)
  /-- R269: Two multiply-accumulates into two accumulators in one cycle. -/
  | mac2 (co : Core) (sx sy : Bool) (accX accY : BitVec 2) (da db dc de : BitVec 6)
  /-- R271: Add an immediate to a pointer. -/
  | paddi (co : Core) (pk : BitVec 4) (imm : BitVec 16)
  /-- R271: Load an immediate into a pointer. -/
  | pldi (co : Core) (pk : BitVec 4) (imm : BitVec 16)
  /-- R271: Move a data register to a pointer. -/
  | movdp (co : Core) (pk : BitVec 4) (da : BitVec 6)
  /-- R271: Move a pointer to a data register. -/
  | movpd (co : Core) (pk : BitVec 4) (dd : BitVec 6)
  /-- R271: Set circular-buffer bounds. -/
  | cbset (co : Core) (k : BitVec 2) (da db : BitVec 6)
  /-- R271: Read a circular-buffer bound. -/
  | cbget (co : Core) (k : BitVec 2) (dd : BitVec 6) (h : Bool)
  /-- R271: Write a loop counter. -/
  | movdl (co : Core) (l : BitVec 2) (da : BitVec 6)
  /-- R271: Read a loop counter. -/
  | movld (co : Core) (l : BitVec 2) (dd : BitVec 6)
  /-- R271: Write wsr. -/
  | movdw (co : Core) (da : BitVec 6)
  /-- R271: Read wsr. -/
  | movwd (co : Core) (dd : BitVec 6)
  /-- R271: Read rrb. -/
  | movrd (co : Core) (dd : BitVec 6)
  /-- R272: Conditional branch. -/
  | br (co : Core) (cond : BitVec 4) (target : BitVec 14)
  /-- R273: Jump and link into a pointer. -/
  | jal (co : Core) (pk : BitVec 4) (target : BitVec 14)
  /-- R273: Jump to a pointer. -/
  | jr (co : Core) (pk : BitVec 4)
  /-- R274: Start a hardware loop with an immediate count. -/
  | loopi (co : Core) (lc : BitVec 2) (rot : Bool) (count : BitVec 16) (off : BitVec 7)
  /-- R274: Start a hardware loop with a register count and an absolute end. -/
  | loopr (co : Core) (lc : BitVec 2) (rot : Bool) (dc : BitVec 6) (e : BitVec 14)
  /-- R275: No operation. -/
  | nop (co : Core)
  /-- R275: One register rotation. -/
  | rot (co : Core)
  /-- R275: The core halts; privileged in task mode. -/
  | halt (co : Core)
  /-- R260: The core offers itself to Chandler and waits for a dispatch. -/
  | twait (co : Core)
  /-- R307: Ends the running task after its FSTs, committing the completion, and waits for the next dispatch. -/
  | tend (co : Core) (d : BitVec 6)
  /-- R275: Read the running task's descriptor number. -/
  | tid (co : Core) (d : BitVec 6)
  /-- R275: Wait until a DMA channel is idle and read its code. -/
  | dmawt (co : Core) (d : BitVec 6) (ch : BitVec 2)
  /-- R275: Read a DMA channel's busy state or last code. -/
  | dmast (co : Core) (d : BitVec 6) (ch : BitVec 2)
  /-- R275: Wait until every earlier FST of the core has been performed. -/
  | fence (co : Core)
  /-- R277: Start one DMA transfer on a channel. -/
  | dma (co : Core) (ch : BitVec 2) (out : Bool) (mode : BitVec 2) (pk : BitVec 4) (n : BitVec 5) (dc : BitVec 6)
  /-- R231: A DMA transfer completes and reports OK, BAD_ARGUMENT or FENCED. -/
  | dmaComplete (t : Nat) (co : Core) (ch : Fin 4)
  /-- R279: Read a 32-bit fabric word into a register pair. -/
  | fld (t : Nat) (co : Core) (m n : BitVec 5)
  /-- R279: Post a 32-bit fabric write. -/
  | fst (t : Nat) (co : Core) (m n : BitVec 5)
  /-- R280: Load network time into a tm register. -/
  | tnow (t : Nat) (co : Core) (k : BitVec 2)
  /-- R280: Read part of a tm register. -/
  | tget (co : Core) (d : BitVec 6) (k p : BitVec 2)
  /-- R280: Write part of a tm register. -/
  | tput (co : Core) (d : BitVec 6) (k p : BitVec 2)
  /-- R280: Add ns or µs to a tm register. -/
  | tadd (co : Core) (k j : BitVec 2) (d : BitVec 6) (u : Bool)
  /-- R280: Difference of tm registers, saturated. -/
  | tsub (co : Core) (d : BitVec 6) (k j : BitVec 2)
  /-- R280: Copy a tm register. -/
  | tmov (co : Core) (k j : BitVec 2)
  /-- R281: Begin waiting until network time reaches a tm register. -/
  | twaitu (t : Nat) (co : Core) (k : BitVec 2)
  /-- R281: Network time reaches the wait target, or a step passes it, and the Lantern resumes. -/
  | twaituComplete (t : Nat) (k : Fin 6)
  /-- R282: A radio command hands a transmission to the lamp queue, which accepts it with a tag or ends it. -/
  | rcmdTransmit (t : Nat) (co : Core) (dd : BitVec 6) (pk : BitVec 4) (tmS tmD : BitVec 2)
  /-- R284: A radio command offers a calibration gap, or is refused for an overlap. -/
  | rcmdGapOffer (t : Nat) (co : Core) (dd : BitVec 6) (pk : BitVec 4) (tmS tmD : BitVec 2)
  /-- R283: Read or wait for the state of a tagged radio command. -/
  | rstat (t : Nat) (co : Core) (dd ds : BitVec 6) (wait : Bool)
  /-- R208: Compute a poll's S, D, U and frequency from an entry and a sensor clock value. -/
  | place (t : Nat) (co : Core) (r : BitVec 5) (di : BitVec 6) (b : BitVec 5) (ovr : Bool) (cls : BitVec 3) (tmS tmD tmU : BitVec 2)
  /-- R209: Build a poll's transmit image, advancing DSEQ and encrypting. -/
  | buildPoll (t : Nat) (co : Core) (dd : BitVec 6) (pk : BitVec 4) (tm : BitVec 2)
  /-- R212: Build downlink data from the head message, removing expired messages. -/
  | buildDownlink (t : Nat) (co : Core) (dd : BitVec 6) (pk : BitVec 4) (tm : BitVec 2)
  /-- R214: Build a beacon with the network time of its stamp point under the beacon key. -/
  | buildBeacon (t : Nat) (co : Core) (dd : BitVec 6) (pk : BitVec 4) (tm : BitVec 2)
  /-- R287: Read a word of a neighbour entry into a register pair. -/
  | nbrInstrRead (t : Nat) (co : Core) (r : BitVec 5) (di : BitVec 6) (w : BitVec 4) (dc : BitVec 6)
  /-- R287: Write WAKE_NEXT of an active entry. -/
  | nbrInstrWrite (t : Nat) (co : Core) (r : BitVec 5) (di : BitVec 6) (w : BitVec 4) (dc : BitVec 6)
  /-- R288: A write of a Chandler descriptor word changes its RW fields only while FREE, and otherwise sets DESC_REFUSED. -/
  | descriptorWrite (t : Nat) (by_ : Ini) (i : Fin 4096) (w : Fin 8) (v : Word)
  /-- R306: Chandler command ARM moves a descriptor from FREE to IDLE. -/
  | arm (t : Nat) (by_ : Ini) (i : Fin 4096)
  /-- R291: Chandler command ADVANCE adds credits to a dependence counter. -/
  | advance (t : Nat) (by_ : Ini) (i : Fin 4096)
  /-- R309: Chandler command ABORT withdraws a run of a generation under the completion-wins rule. -/
  | chndAbort (t : Nat) (by_ : Ini) (i : Fin 4096)
  /-- R303: Chandler command DELAY places a descriptor on a delay list. -/
  | delay (t : Nat) (by_ : Ini) (i : Fin 4096)
  /-- R306: Chandler command FREE returns an idle, ready or delayed descriptor to FREE. -/
  | free (t : Nat) (by_ : Ini) (i : Fin 4096)
  /-- R292: A write of CHND_FLAG_SET sets an event flag and readies a waiting descriptor. -/
  | flagSet (t : Nat) (by_ : Ini) (f : Fin 64)
  /-- R298: Chandler chooses a ready task for a waiting core and starts its run. -/
  | dispatch (t : Nat)
  /-- R300: A higher-level ready task pre-empts a running task and its context is saved. -/
  | preemption (t : Nat)
  /-- R301: A pre-empted task is restored on its own core. -/
  | resume (t : Nat) (k : Fin 64)
  /-- R303: At a tick, delayed descriptors whose wake tick is due become READY. -/
  | delayWake (t : Nat)
  /-- R296: A completed task of an ordered flow releases its successor, its record and its state once every lower sequence has completed. -/
  | orderedRelease (t : Nat) (i : Fin 4096)
  /-- R308: A write of CHND_CTL.EN is ignored while the completion ring does not lie in shared SRAM. -/
  | chandlerEnable (t : Nat) (by_ : Ini) (v : Word)
  /-- R315: A write of a descriptor address queues a cipher job, and the writer stalls while the queue is full. -/
  | ciphSubmit (t : Nat) (by_ : Ini) (v : Word)
  /-- R314: A job is admitted to a lane, latching its key and counting against the usage limit or grace. -/
  | jobAdmission (t : Nat)
  /-- R313: A CBC encrypt job runs and completes. -/
  | cbcEncrypt (t : Nat) (l : Fin 4)
  /-- R313: A CBC decrypt job runs and completes. -/
  | cbcDecrypt (t : Nat) (l : Fin 4)
  /-- R313: A CFB-128 encrypt job runs and completes. -/
  | cfbEncrypt (t : Nat) (l : Fin 4)
  /-- R313: A CFB-128 decrypt job runs and completes. -/
  | cfbDecrypt (t : Nat) (l : Fin 4)
  /-- R313: A CTR job runs and completes. -/
  | ctr (t : Nat) (l : Fin 4)
  /-- R313: A CCM encrypt job runs and completes with its tag. -/
  | ccmEncrypt (t : Nat) (l : Fin 4)
  /-- R320: A CCM decrypt job holds its plaintext, checks the tag and releases or wipes it. -/
  | ccmDecrypt (t : Nat) (l : Fin 4)
  /-- R313: A CMAC generate job runs and completes. -/
  | cmacGenerate (t : Nat) (l : Fin 4)
  /-- R313: A CMAC verify job runs and returns only its code. -/
  | cmacVerify (t : Nat) (l : Fin 4)
  /-- R319: A write of CIPH_ABORT withdraws a job and wipes it, or returns TOO_LATE. -/
  | ciphAbort (t : Nat) (by_ : Ini) (v : Word)
  /-- R329: Key command GENERATE draws a key from the DRBG into a slot. -/
  | generate (t : Nat) (by_ : Ini) (k : BitVec 18)
  /-- R329: Key command LOAD_SPLIT stages or combines a key component. -/
  | loadSplit (t : Nat) (by_ : Ini) (k : BitVec 18)
  /-- R329: A staged component is wiped 1 s after staging. -/
  | stagedComponentExpiry (t : Nat)
  /-- R329: Key command LOAD_PLAIN loads a key in clear, refused in approved mode. -/
  | loadPlain (t : Nat) (by_ : Ini) (k : BitVec 18)
  /-- R329: Key command UNWRAP unwraps a blob into a slot. -/
  | unwrap (t : Nat) (by_ : Ini) (k : BitVec 18)
  /-- R329: Key command WRAP_OUT writes a slot's key as a wrapped blob. -/
  | wrapOut (t : Nat) (by_ : Ini) (k : BitVec 18)
  /-- R328: Key command ERASE zeroises a slot and ends its jobs with KEY_GONE. -/
  | erase (t : Nat) (by_ : Ini) (k : BitVec 18)
  /-- R329: Key command SET_LIMIT lowers a key's usage limit. -/
  | setLimit (t : Nat) (by_ : Ini) (k : BitVec 18)
  /-- R329: Key command STATUS fills KINFO0 and KINFO1. -/
  | keyStatus (t : Nat) (by_ : Ini) (k : BitVec 18)
  /-- R327: Key command REC_INVAL drops a record's cached copy. -/
  | recInval (t : Nat) (by_ : Ini) (k : BitVec 18)
  /-- R328: Key command REC_ERASE erases a record half in the cache and in DRAM. -/
  | recErase (t : Nat) (by_ : Ini) (k : BitVec 18)
  /-- R326: Key command FLUSH writes back every cached half as a long operation. -/
  | flush (t : Nat) (by_ : Ini) (k : BitVec 18)
  /-- R324: Key command ROOT_SET derives the active or pending root from CONTEXT and BOOT_MEAS. -/
  | rootSet (t : Nat) (by_ : Ini) (k : BitVec 18)
  /-- R330: Key command REWRAP moves every valid half to the pending root as a long operation. -/
  | rewrap (t : Nat) (by_ : Ini) (k : BitVec 18)
  /-- R341: A write of CIPH_CTL.EN is ignored unless the key-record table lies in ranks in service. -/
  | cipherEnable (t : Nat) (by_ : Ini) (v : Word)
  /-- R339: A write of CIPH_CTL.APPROVED=1 enters approved mode if every condition holds, or sets APPR_REFUSED. -/
  | approvedWrite (t : Nat) (by_ : Ini)
  /-- R332: A tamper sensor alarms and the Snuffer zeroises keys within 10 µs and locks the engine. -/
  | tamperAlarm (t : Nat) (sensor : Fin 6)
  /-- R335: Snuffer command ATTEST signs a report with the identity key. -/
  | attest (t : Nat) (by_ : Ini)
  /-- R336: Snuffer command VERIFY checks an image signature against a fused key hash. -/
  | verify (t : Nat) (by_ : Ini)
  /-- R338: Snuffer command SELFTEST repeats the known-answer tests. -/
  | selftest (t : Nat) (by_ : Ini)
  /-- R337: A read of SEC_RNG returns 32 DRBG bits, or 0 after a health failure. -/
  | secRngRead (t : Nat) (by_ : Ini)
  /-- R337: An entropy health test fails and CIPH_STATUS.ERROR is set. -/
  | healthTestFailure (t : Nat)
  /-- R347: A DRAM transaction is scheduled by urgency and served, forwarded or waited for. -/
  | dramTransaction (t : Nat) (op : DramOp)
  /-- R353: The patrol scrub reads the next granules at RATE per ms and corrects single-bit errors. -/
  | patrolScrub (t : Nat) (ecc : Ecc) (written : Bool)
  /-- R354: A rank's refresh interval expires and it refreshes, or postpones, up to the ninth forced refresh. -/
  | refresh (t : Nat) (r : Fin 2)
  /-- R354: The lid temperature crosses a threshold, or stays below it for 1 s, and the refresh rate changes. -/
  | refreshRateChange (t : Nat)
  /-- R356: Every 128 ms a ZQ short calibration blocks each rank for 80 ns. -/
  | zqCalibration (t : Nat) (r : Fin 2)
  /-- R357: DMC_TRAIN_CMD trains the selected ranks as a long operation, fencing a rank that fails. -/
  | dramTraining (t : Nat) (by_ : Ini) (v : Word)
  /-- R359: ALERT_n stops the rank and replays its buffered commands, fencing the rank at the fourth alert. -/
  | caParityAlert (t : Nat) (r : Fin 2) (again : Bool)
  /-- R360: A write of DMC_RANK_CTL fences or unfences ranks and counts as a SET of their records. -/
  | rankFenceWrite (t : Nat) (by_ : Ini) (v : Word)
  /-- R361: A write of DMC_CTL.SR requests self-refresh entry or exit. -/
  | selfRefreshRequest (t : Nat) (by_ : Ini) (v : Word)
  /-- R361: The queued transactions complete and both ranks enter self-refresh. -/
  | selfRefreshEntry (t : Nat)
  /-- R346: A write of DMC_PORTp_CFG is ignored if the reservations would exceed 128. -/
  | portCfgWrite (t : Nat) (by_ : Ini) (p : Fin 8) (v : Word)
  /-- R365: A write of EMACp_CTL.EN from 0 to 1 applies MODE and SPEED and enables the port. -/
  | portEnable (t : Nat) (by_ : Ini) (p : Fin 5) (v : Word)
  /-- R394: A port's link goes up or down and LINK_CHANGE is set. -/
  | linkChange (t : Nat) (p : Fin 5) (up half : Bool) (sp : Fin 3) (lpSym lpAsym lf rf : Bool)
  /-- R369: A whole received frame is checked, filtered, stamped and sent to a ring, the router or a pause. -/
  | frameReceive (t : Nat) (p : Fin 5) (f : List Byte) (fill sfd : Nat)
  /-- R376: A pause's time expires and the transmitter resumes. -/
  | pauseEnd (t : Nat) (p : Fin 5)
  /-- R377: The receive FIFO reaches XOFF and the port sends a pause. -/
  | pauseXoff (t : Nat) (p : Fin 5) (fill : Nat)
  /-- R377: Half the quanta elapse while the fill stays at XON or above and the pause is repeated. -/
  | pauseRepeat (t : Nat) (p : Fin 5) (fill : Nat)
  /-- R377: The fill falls below XON and the port sends a pause of 0. -/
  | pauseXon (t : Nat) (p : Fin 5) (fill : Nat)
  /-- R377: A write of EMACp_PAUSE_SEND with GO sends one pause frame. -/
  | pauseSend (t : Nat) (by_ : Ini) (p : Fin 5) (v : Word)
  /-- R375: A frame is taken from a transmit ring and checked against MAX_LEN and ONE_STEP. -/
  | transmitFrameFetch (t : Nat) (p : Fin 5) (q : Fin 8)
  /-- R398: A frame is classified, policed and admitted to its queue, dropped, or held until it fits. -/
  | frameAdmission (t : Nat)
  /-- R399: At a frame boundary the port chooses a pause, a strict queue or a DRR queue under the gates. -/
  | transmitSelection (t : Nat) (p : Fin 5)
  /-- R375: A frame has been sent and its descriptor completes with a code, and any PTP stamp is taken. -/
  | frameTransmitComplete (t : Nat) (p : Fin 5)
  /-- R365: An EMAC_MDIO GO write starts a Clause 22 or 45 MDIO frame. -/
  | mdio (t : Nat) (by_ : Ini) (v : Word)
  /-- R365: The MDIO frame ends and its result is returned. -/
  | mdioDone (t : Nat) (d : BitVec 16)
  /-- R381: Router command ROUTE_SET writes a route. -/
  | routeSet (t : Nat) (by_ : Ini)
  /-- R381: Router command ROUTE_DEL frees a route. -/
  | routeDel (t : Nat) (by_ : Ini) (i : BitVec 13)
  /-- R381: Router command ROUTE_READ reads a route. -/
  | routeRead (t : Nat) (by_ : Ini) (i : BitVec 13)
  /-- R381: Router command NEIGH_SET writes a neighbour entry. -/
  | neighSet (t : Nat) (by_ : Ini)
  /-- R381: Router command NEIGH_DEL frees a neighbour entry. -/
  | neighDel (t : Nat) (by_ : Ini) (i : BitVec 13)
  /-- R381: Router command NEIGH_READ reads a neighbour entry and clears its HIT. -/
  | neighRead (t : Nat) (by_ : Ini) (i : BitVec 13)
  /-- R388: An uplink record from the Lanterns is added to the open datagram, closing it on size or count. -/
  | recordArrival (t : Nat)
  /-- R389: FLUSH_US after its first record the open datagram closes by age and is sent. -/
  | datagramFlush (t : Nat)
  /-- R392: A write of FWD_ENC_CTL.EN enables encapsulation, or is ignored without a port or local address. -/
  | encapsulationEnable (t : Nat) (by_ : Ini) (v : Word)
  /-- R400: The calendar wheel reaches a flow's NEXT and it accrues tokens and releases head frames. -/
  | flowRelease (t : Nat)
  /-- R402: A write of TMGR_FLOWf_RATE resets the flow's tokens and slots. -/
  | flowRateWrite (t : Nat) (by_ : Ini) (f : Fin 512) (v : Word)
  /-- R402: A write of BURST lowers the tokens to the new burst. -/
  | flowBurstWrite (t : Nat) (by_ : Ini) (f : Fin 512) (v : Word)
  /-- R403: A write of a policer's EN fills its bucket; its CIR and CBS writes keep or lower the tokens. -/
  | policerRateWrite (t : Nat) (by_ : Ini) (k : Fin 1024) (cbs : Bool) (v : Word)
  /-- R404: A gate control list entry ends and the next entry's gate states apply. -/
  | gateEntryBoundary (t : Nat) (p : Fin 4)
  /-- R407: GCL_CMD COMMIT schedules a switch-over to the admin list. -/
  | commitGcl (t : Nat) (by_ : Ini) (p : Fin 4)
  /-- R407: GCL_CMD ABORT withdraws a pending commit. -/
  | abortGcl (t : Nat) (by_ : Ini) (p : Fin 4)
  /-- R406: At the switch-over instant the lists exchange, MAXOPEN is computed and the commit closes OK. -/
  | gclSwitchOver (t : Nat) (p : Fin 4)
  /-- R413: PWR_CMD EMBER starts the domain handshake for Ember entry. -/
  | ember (t : Nat) (by_ : Ini)
  /-- R414: A domain agrees and stops, or refuses, in the entry handshake. -/
  | domainAnswer (t : Nat) (wfi : Bool)
  /-- R411: A domain gives no answer within PWR_ACK_TIMEOUT and counts as refusing. -/
  | domainAckTimeout (t : Nat)
  /-- R416: The bank signatures finish and PWR_STATUS.EMBER is set. -/
  | emberEntered (t : Nat)
  /-- R418: An enabled wake event sets PWR_WAKE_CAUSE and starts the Lamplighter wake. -/
  | wakeEvent (t : Nat) (b : Fin 11)
  /-- R419: A wake step or domain gives its ready signal and the next is started. -/
  | wakeStepReady (t : Nat) (lost : BitVec 16)
  /-- R420: A wake step misses its timeout, causing a supply fault, a cold reset or a failed domain. -/
  | wakeStepTimeout (t : Nat)
  /-- R423: PWR_CMD DOM_OFF hands one domain through the handshake and powers it off. -/
  | domOff (t : Nat) (by_ : Ini) (d : BitVec 5)
  /-- R423: PWR_CMD DOM_ON powers a domain up under the ready rules. -/
  | domOn (t : Nat) (by_ : Ini) (d : BitVec 5)
  /-- R446: A SYS_UNIT_CMD or mailbox SET with the right epoch changes a unit's intent and fences or restores it. -/
  | unitSet (t : Nat) (via : UnitVia)
  /-- R435: A write of SYS_SVN_BURN burns the security version fuses up to the value. -/
  | sysSvnBurn (t : Nat) (by_ : Ini) (v : Word)
  /-- R430: A posted control-core store ends in a bus error, which is recorded with an interrupt. -/
  | storeBusError (t : Nat) (a : BitVec 36)
  /-- R437: The host writes CMD_TAIL to post mailbox commands, or the write is dropped while READY is 0. -/
  | mailboxTailWrite (t : Nat) (v : BitVec 8)
  /-- R439: Mailbox HELLO negotiates the protocol version. -/
  | hello (t : Nat)
  /-- R438: Mailbox GET_INFO returns identity, version and BOOT_MEAS. -/
  | getInfo (t : Nat)
  /-- R438: Mailbox ABORT aborts a command by TAG under the completion-wins rule. -/
  | mbxAbort (t : Nat)
  /-- R434: Mailbox BOOT asks the ROM to verify and start a host-loaded image. -/
  | boot (t : Nat)
  /-- R438: Mailbox UNIT_GET returns a unit's records. -/
  | unitGet (t : Nat)
  /-- R444: Mailbox CAL_READ reads the calibration store. -/
  | calRead (t : Nat)
  /-- R444: Mailbox CAL_WRITE erases and reprograms calibration sections. -/
  | calWrite (t : Nat)
  /-- R438: Mailbox JOURNAL_READ reads the journal. -/
  | journalRead (t : Nat)
  /-- R445: A journal record is appended with its commit word, or NO_BUFFER is returned. -/
  | journalAppend (t : Nat) (data : List Byte) (cut : Bool)
  /-- R445: The oldest journal sector is erased under the wear budget. -/
  | norErase (t : Nat)
  /-- R442: The shared SRAM scrub reads the next granules and corrects or counts errors. -/
  | sramScrub (t : Nat) (ecc : Ecc) (written : Bool)
  /-- R443: Each PERIOD a telemetry record is written to the ring or dropped. -/
  | telemetrySample (t : Nat)
  /-- R443: Each second ending with calibration still due advances SYS_BG_CALn_LATE. -/
  | bgCalSecond (t : Nat)
  /-- R449: A write of CLU_IMPORT hands a soft-export body to Mantle, or is ignored for a bad address. -/
  | cluImport (t : Nat) (by_ : Ini) (v : Word)
  /-- R448: A Bilolabry HELLO negotiates the version with a peer. -/
  | clusterHello (t : Nat) (k : Fin 4) (h : Option CluHdr)
  /-- R448: A Bilolabry HELLO_ACK reports the peer's version or a mismatch. -/
  | helloAck (t : Nat) (k : Fin 4) (h : CluHdr) (code : BitVec 8)
  /-- R450: A Bilolabry MASK_PROPOSE proposes partition masks at a time T. -/
  | maskPropose (t : Nat) (k : Fin 4) (h : Option CluHdr) (partLen : BitVec 16) (m : Masks) (at_ : BitVec 48)
  /-- R450: A Bilolabry MASK_COMMIT agrees the masks or refuses them. -/
  | maskCommit (t : Nat) (k : Fin 4) (h : CluHdr) (code : BitVec 8) (m : Masks)
  /-- R450: At T, or the next whole second, the agreed LANTn_PART masks are written. -/
  | maskApply (t : Nat)
  /-- R448: A Bilolabry KEEPALIVE message is received. -/
  | keepalive (t : Nat) (k : Fin 4) (h : CluHdr) (ty : BitVec 8)
  /-- R449: A Bilolabry SOFT_EXPORT message is sent to or received from a peer. -/
  | softExport (t : Nat) (k : Fin 4) (h : Option (CluHdr × Word))
  /-- R451: A write of PCNT_CTL.SNAP copies all counters into their shadows in one cycle. -/
  | snap (t : Nat) (by_ : Ini) (freeze : Bool)
  /-- R283: An offered calibration gap reaches its D and the gap-offer command ends OK, whether or not a step ran in it. -/
  | gapOfferEnd (t : Nat) (n : Fin 3)
  /-- R433: With BOOT_SEL 0b10 and no slot verified, the boot ROM takes one 1,024-byte console block, checks its index and CRC-32 and answers 0x06 or 0x15, and an empty block ends the stream. -/
  | consoleImageBlock (t : Nat) (idx : BitVec 32) (data : List Byte) (crcOk : Bool)
  /-- R456: A hart claims a pending interrupt source at the interrupt controller, which clears the pending pulse so that later pulses pend anew. -/
  | interruptClaim (t : Nat) (h : Fin 4) (sup : Bool)
  deriving DecidableEq, Repr

end Sys2Proof
end

