-- ==== Sys2Proof/Decode.lean ====
section
/-! DEFINITION. The command that a word of the spec's table spells. -/
namespace Sys2Proof

/-- The spec's table gives no row any bits: no word spells a command. [DESIGN CHOICE, assumption 24] -/
def decodeTableWord (_nbits _w : Nat) : Option Instr := none

end Sys2Proof
end

