-- ==== Sys2Proof/Config.lean ====
section
/-! DEFINITION. What the spec leaves open as a value, and what a network's integrator fixes. A constant without a body is
unknown to every proof: a claim holds whatever it is. -/
namespace Sys2Proof

/-- The n-th free value drawn; `State.freeCtr` counts the draws (assumption 1). -/
opaque Config.free : Nat → Nat

/-- The network's base sync word S (R159), which no register holds (assumption 20). -/
opaque Config.syncWord : BitVec 32

/-- How 0.75 x m rounds when it is not whole (R171 names no rounding; assumption 21). -/
opaque Config.minSumRound : Nat → Nat

/-- KSEED, the 256-bit secret fused at manufacture (R324). [DESIGN CHOICE, assumption 23] -/
opaque Config.kseed : Nat

/-- The identity key's private value, sealed at manufacture (R334). [DESIGN CHOICE, assumption 23] -/
opaque Config.idKey : Nat

/-- The fused SHA-256 of the vendor's public key (R336). [DESIGN CHOICE, assumption 23] -/
opaque Config.vendorHash : Nat

/-- The fused SHA-256 of the owner's public key, where one is fused (R336). [DESIGN CHOICE, assumption 23] -/
opaque Config.ownerHash : Option Nat

/-- The module's 64-bit serial number, fused at manufacture (R335, GET_INFO). [DESIGN CHOICE, assumption 23] -/
opaque Config.serial : BitVec 64

/-- The grade fuse, SYS_IDENT.GRADE (R2). [DESIGN CHOICE, assumption 23] -/
opaque Config.grade : Bool

/-- The cluster's identity, which firmware holds (R448). [DESIGN CHOICE, assumption 23] -/
opaque Config.clusterId : BitVec 32

/-- The codewords that Mantle's output buffer holds before lanes stall (R10). [DESIGN CHOICE, assumption 152] -/
opaque Config.outBuffer : Nat

/-- Cycles of 800 MHz that the DRAM read of a key half takes, by the number of misses so far (R317). [DESIGN CHOICE,
assumption 165] -/
opaque Config.halfRead : Nat → Nat

/-- arg of a sample of no power, and the metric of a stream of no deviation (R131). [DESIGN CHOICE, assumption 156] -/
opaque Config.nullPhase : Int
opaque Config.nullMetric : Nat

/-- The scale of a context whose lookback has no power (R139), units of 2^-20. [DESIGN CHOICE, assumption 156] -/
opaque Config.nullScale : Int

/-- The floor of a bin while its first 64 samples are incomplete: count and sum of powers (R144). [DESIGN CHOICE,
assumption 157] -/
opaque Config.earlyFloor : Nat → Nat → Nat

/-- The static offset that the DC calibration of a lamp found at an instant, by gain step (R100, R126). [DESIGN
CHOICE, assumption 157] -/
opaque Config.dcOffset : Nat → Nat → Nat → Int × Int

/-- The I/Q correction of a lamp by the IMG calibration of an instant (R126). [DESIGN CHOICE, assumption 157] -/
opaque Config.iqCorrect : Nat → Nat → Int × Int → Int × Int

/-- The level before (false) and after (true) the symbols of a frame that shaping reaches (R150). [DESIGN CHOICE,
assumption 158] -/
opaque Config.edgeLevel : Bool → Int

/-- The interpolation from 8 samples per symbol of a class to 76.8 MS/s (R149). [DESIGN CHOICE, assumption 158] -/
opaque Config.interpolate : Nat → List (Int × Int) → List (Int × Int)

end Sys2Proof
end

