-- ==== Sys2Proof/Machine/State.lean ====
section
/-! DEFINITION. The state of the GTH-7 as plain data, and the state after reset.
Registers stand in one sparse table `regs`, keyed by physical address; an address that is not listed holds the
register's reset value (Machine/RegMap.lean). What the spec gives the machine beside its registers stands in the
structures below, block by block. -/
namespace Sys2Proof.Machine

/-- Why a command stops. No meaning of this model stops: every row of the table has an effect in the spec. [DESIGN
CHOICE, assumption 8] -/
inductive Fault where
  /-- Nothing raises it (safe). -/
  | none
  deriving DecidableEq, Repr

/-- Why a command is refused by the model. [DESIGN CHOICE, assumption 8] -/
inductive Refusal where
  /-- Raised by an arm of `exec` whose command has no meaning yet (safe: the run stops). -/
  | notModelled (mnemonic : String)
  deriving DecidableEq, Repr

/-- The completion codes of R7. -/
inductive Code where
  | ok | tooLate | keyGone | keySpent | tagFail | deadlineMissed | noBuffer | fenced | inSteps
  | versionMismatch | refused | badArgument
  deriving DecidableEq, Repr

/-- The last answer of the fabric to an initiator (R3, R5, R22). -/
inductive BusResp where
  | none
  /-- A write that was accepted. -/
  | done
  /-- A read that returned `v`. -/
  | data (v : Nat)
  /-- A bus error. -/
  | error
  /-- A write that the fabric holds: its initiator stalls (R173, R315). -/
  | held
  /-- The access-fault exception that PMP raises in the hart; nothing reaches the fabric (R428). -/
  | fault
  deriving DecidableEq, Repr


/-- Why the functional logic is in reset, or that it runs (R39, R41). -/
inductive ResetKind where
  | cold
  | warm
  deriving DecidableEq, Repr

/-- The instruction loaded into the boundary-scan TAP (R54); every unlisted code acts as BYPASS. -/
inductive TapInstr where
  | bypass | idcode | sample | extest | clamp | highz
  deriving DecidableEq, Repr

/-- Supply, reset, reference, thermal, strap, TAP and PCIe-land state of the module (ch. 02). -/
structure Board where
  /-- VIN is above the lock-out threshold (R34). -/
  vinOk : Bool := true
  /-- The HS_EN land (R34). -/
  hsEn : Bool := true
  /-- The overvoltage shut-off holds the pass transistor off. -/
  overVolt : Bool := false
  /-- The pass transistor is on, or soft start is running (R34). -/
  passOn : Bool := true
  /-- The instant of a breaker trip whose retry is outstanding (R35). -/
  breakerAt : Option Nat := none
  /-- The hot-swap controller's record of a breaker trip, held while VIN stays present (R57). -/
  breakerRec : Bool := false
  /-- PWR_GOOD: every internal rail in regulation (R38). -/
  pwrGood : Bool := true
  /-- The instant PWR_GOOD last rose. -/
  pwrGoodAt : Nat := 0
  /-- The RESET_N land (R40). -/
  resetN : Bool := true
  /-- The reference is within 1,000 ppm (R61 REF_PRESENT). -/
  refOk : Bool := true
  /-- Every PLL is locked to the reference; false in hold (R49). -/
  locked : Bool := true
  /-- FAULT_N is asserted for a reference absent 100 ms after PWR_GOOD (R39). -/
  refAbsent : Bool := false
  /-- Internal reset is asserted (R39). -/
  held : Bool := false
  /-- The kind of the reset in progress, or of the last one. -/
  kind : ResetKind := .cold
  /-- Earliest instant at which internal reset can be released (R39, R40). -/
  relDue : Nat := 0
  /-- A soft reset was written at this instant and newly set this bit of SYS_RESET_CAUSE (R44's meeting rule). -/
  softMark : Option (Nat × Word) := none
  /-- TEMP_ALERT_N is asserted (R46). -/
  tempAlert : Bool := false
  /-- The module holds after a thermal trip (R47). -/
  thermalHold : Bool := false
  /-- BOOT_SEL as sampled at the last internal reset release (R43). -/
  bootSel : BitVec 2 := 0
  /-- The instruction in the TAP (R54); IEEE 1149.1 selects IDCODE at the TAP's reset. -/
  tap : TapInstr := .idcode
  /-- What was shifted into the boundary register with that instruction, cell by cell (R55). -/
  boundary : List (Land × Bool) := []
  /-- EXTEST, CLAMP or HIGHZ has been loaded and no cold reset through RESET_N has followed (R56). -/
  tapDirty : Bool := false
  /-- The PERST_N land (R42). -/
  perstN : Bool := true
  /-- The instant from which the endpoint's link-training time counts (R42). -/
  perstAt : Nat := 0
  /-- The PCIe link is up. -/
  linkUp : Bool := false
  /-- Fused security version counter, 0 to 64 (R435). -/
  svn : Nat := 0
  deriving DecidableEq, Repr

/-- A stretch of raw time on which network time followed one set of values (R64): those of the fold at its start, its
rate, and the raw value of the fold that ended it. -/
structure NtSeg where
  ofs : Int
  base : Nat
  slewLeft : Int
  slewPpm : Nat
  rate : Int
  till : Nat
  deriving DecidableEq, Repr

/-- Network time (R63 to R75). `ofs` and `slewLeft` count units of 2^-40 ns. -/
structure Ntim where
  /-- Internal network time at `base` (R63). -/
  ofs : Int := 0
  /-- The raw value latched at the last fold (R64). -/
  base : Nat := 0
  /-- Unapplied slew at `base` (R68). -/
  slewLeft : Int := 0
  /-- The PPM held for the slew in progress (R68). -/
  slewPpm : Nat := 100
  /-- The stretches that folds have ended, latest first, for a stamp whose instant lies before the last fold (R77, R78). -/
  past : List NtSeg := []
  /-- NTIM_STATUS.VALID (R70). -/
  valid : Bool := false
  /-- NTIM_STATUS.HOLDOVER (R74, R463). -/
  holdover : Bool := false
  /-- Network ns from which the holdover guard grows (R74, R463). -/
  holdFrom : Int := 0
  /-- The guard follows the remainder of the slew that ended a holdover (R75). -/
  guardSlew : Bool := false
  /-- Consecutive missed beacons, stops at 3 (R74). -/
  missed : Nat := 0
  /-- Network ns of the last accepted beacon since MODE became BEACON (R72). -/
  lastAccept : Option Int := none
  /-- Windows closed since the last acceptance (R72). -/
  windows : Nat := 0
  deriving DecidableEq, Repr

/-- One pulse output (R79); edges are network ns. -/
structure Pps where
  /-- NTIM_PPSk_STATUS.RUNNING. -/
  running : Bool := false
  /-- The output is asked to end after the pulse in progress. -/
  stopping : Bool := false
  /-- The next edge that starts a pulse; none when START + n x PERIOD has no future value. -/
  next : Option Int := none
  /-- The period in force; 0 is a single pulse. -/
  period : Nat := 0
  /-- The width in force. -/
  width : Nat := 0
  /-- The end of the pulse in progress. -/
  pulseEnd : Option Int := none
  deriving DecidableEq, Repr

/-- One compare/capture channel (R80 to R82); CAP_LO and CAP_HI are in `cap`. -/
structure TmrCh where
  /-- The compare is armed. -/
  armed : Bool := false
  /-- Captured local time. -/
  cap : BitVec 64 := 0
  /-- The capture that waits in the shadow; PENDING (R82). -/
  shadow : Option (BitVec 64) := none
  /-- The local instant at which the read window closes by itself (R82). -/
  window : Option Nat := none
  /-- The instant of the latest capture into `cap`, with `cap` and the STATUS bits before it (R82's meeting rule). -/
  before : Option (Nat × BitVec 64 × Nat) := none
  deriving DecidableEq, Repr

/-- The lamp states (ch. 04, state codes 0 to 7). -/
inductive LampSt where
  | off | standby | cal | settle | rx | rxToTx | tx | txToRx
  deriving DecidableEq, Repr

/-- The timed change a lamp is in beside its state (R93). -/
inductive LampMove where
  /-- Nothing timed. -/
  | idle
  /-- OFF to STANDBY: power up and bias. -/
  | powerUp
  /-- STANDBY to RX with the synthesiser locked: the 5 us receive settle. -/
  | rxSettle
  /-- SETTLE, judged at its end by the lock detector (R97). -/
  | settle
  /-- A wait for the reference before a SETTLE or an RX request goes on (R99). -/
  | waitRef
  /-- The return from a calibration step to the former state (R102). -/
  | calReturn
  /-- A calibration step of 50 us (R100). -/
  | calStep
  deriving DecidableEq, Repr

/-- Who hands a radio command to a lamp and gets its code. -/
inductive TxOwner where
  /-- RCMD number `n` of Lantern `k`; its tag is the low four bits (R283). -/
  | lantern (k n : Nat)
  /-- The acknowledgement hardware, for context `ctx` (R203). -/
  | ackHw (ctx : Nat)
  deriving DecidableEq, Repr

/-- A transmit command accepted by a lamp (R105); times are network ns. -/
structure TxCmd where
  owner : TxOwner
  /-- The kind: acknowledgement, or other. -/
  ack : Bool
  /-- Band profile, latched at acceptance (R105). -/
  profA : Word
  profB : Word
  /-- Channel centre offset from this lamp's centre, units of 8 Hz. -/
  ofs : Int
  /-- The absolute channel centre in Hz at acceptance. -/
  chan : Int
  /-- Earliest start. -/
  s : Int
  /-- Deadline. -/
  d : Int
  /-- Image address. -/
  img : Nat
  /-- The image, where the acknowledgement hardware holds it itself (R203). -/
  own : Option (List Byte) := none
  /-- Frame duration in ns, latched from the image header. -/
  dur : Nat
  /-- R18: the instant the acknowledged uplink ended, and its bin. -/
  t0 : Int := 0
  bin : Int := 0
  /-- Listen-before-talk: attempts made (R111). -/
  attempt : Nat := 0
  /-- Earliest network ns of the next listen. -/
  lbtFrom : Int := 0
  /-- A listen in progress: raw start instant. -/
  listen : Option Nat := none
  /-- The instant listen-before-talk found the channel clear. -/
  clear : Option Int := none
  deriving DecidableEq, Repr

/-- A transmission in progress. -/
structure TxRun where
  cmd : TxCmd
  /-- Instant RX_TO_TX began. -/
  start : Nat
  /-- Instant of the first symbol at the land. -/
  first : Nat
  /-- Bytes of its image, the image, and the 17 shaping coefficients taken for it (R149, R150). -/
  len : Nat := 0
  img : List Byte := []
  coefs : List Nat := []
  /-- An acknowledgement's listen inside RX_TO_TX runs (R112). -/
  listening : Bool := false
  /-- The spectral-mask check has failed in this transmission (R151). -/
  maskBad : Bool := false
  deriving DecidableEq, Repr

/-- A foreground calibration or background step in progress (R102 to R104). -/
structure CalRun where
  fore : Bool
  /-- Selected calibrations not yet completed. -/
  sel : BitVec 4
  /-- Index of the calibration running: 0 OSC, 1 DC, 2 FILT, 3 IMG. -/
  cur : Nat
  /-- Steps of it completed. -/
  done : Nat
  /-- STANDBY or RX, the state to return to. -/
  former : LampSt
  deriving DecidableEq, Repr

/-- An offered calibration gap (R284), network ns, with the tag that closes at its end. -/
structure Gap where
  owner : TxOwner
  s : Int
  d : Int
  /-- The end of the part still usable for steps. -/
  usable : Int
  deriving DecidableEq, Repr

/-- One lamp (R93 to R125). -/
structure Lamp where
  st : LampSt := .off
  move : LampMove := .idle
  /-- Instant at which the timed state or move ends. -/
  due : Nat := 0
  /-- The state entered when a ramp-down or TX_TO_RX ends. -/
  goal : LampSt := .rx
  /-- A stored request that waits for a calibration or SETTLE to end (R94). -/
  reqWait : Option (BitVec 2) := none
  /-- The stored request was made while a calibration ran, and is judged when that closes (R94). -/
  reqJudge : Bool := false
  /-- A retune waits for TX_TO_RX, a calibration, or the reference (R96, R99). -/
  retuneWait : Bool := false
  /-- REQ before the stored request, for a request refused when it is judged later (R94). -/
  reqOld : Nat := 0
  /-- Start of the present SETTLE (R97), and its length by R93. -/
  settleAt : Nat := 0
  settleLen : Nat := 0
  /-- Intervals of raw time in which the lamp delivers no samples, latest first; an open one has no end (R135, R141). -/
  blank : List (Nat × Option Nat) := [(0, none)]
  /-- Start of the present blanking by a transmission or a calibration step, for the event of blanked microseconds. -/
  blankFrom : Option Nat := none
  /-- The reference was lost and the lamp has not retuned since (R49, R50). -/
  refLost : Bool := false
  /-- The transmission was stopped early: every output shows its RX level (R109). -/
  early : Bool := false
  /-- The instant of the last synthesiser word (R98). -/
  synthAt : Nat := 0
  /-- The last closing code of a foreground calibration (R103). -/
  calRes : Option Code := none
  /-- The synthesiser is locked (STATUS.LOCKED). -/
  locked : Bool := false
  /-- The centre in Hz the synthesiser runs at (its own centre: C + 64 MHz for an upper span lamp); 0 when idle. -/
  centre : Int := 0
  /-- The synthesiser word: f x (1 + RATE x 2^-40) in Hz, units of 2^-40 Hz (R98). -/
  synth : Int := 0
  /-- CAL_STATUS.VALID and DUE. -/
  calValid : BitVec 4 := 0
  calDue : BitVec 4 := 0
  /-- Temperature (1/16 degree C) and instant of each calibration's last run (R100). -/
  calTemp : Tab Int := []
  calAt : Tab Nat := []
  /-- The centre in Hz at the last run of each calibration (R100). -/
  calCentre : Tab Int := []
  calRun : Option CalRun := none
  /-- RUN bits held until the lamp is next in RX (R103). -/
  calHeld : BitVec 4 := 0
  /-- Background steps of each calibration already run towards its completion (R104). -/
  bgDone : Tab Nat := []
  /-- Background steps run in the current second (R441 budget). -/
  bgSecond : Nat := 0
  gaps : List Gap := []
  /-- Accepted commands, oldest first, at most 16 (R105). -/
  queue : List TxCmd := []
  run : Option TxRun := none
  /-- Level applied to the transmission in progress (R108). -/
  level : Nat := 0
  /-- Start of the present or last turn-round (R109). -/
  turnAt : Nat := 0
  /-- Lamp die temperature, 1/16 degree C. -/
  temp : Int := 0
  /-- A diversity partner is blanked with the transmitting lamp (R119). -/
  partnerTx : Bool := false
  /-- Transmission fragments below 1 us not yet in TX_ONTIME, ns. -/
  onFrac : Nat := 0
  deriving DecidableEq, Repr

/-- The twin-lamp pair (R117 to R120). -/
structure Pair where
  formed : Bool := false
  /-- Lower lamp of the pair being aligned or formed. -/
  lower : Nat := 0
  diversity : Bool := false
  /-- The upper lamp transmits in diversity mode (R119). -/
  txUpper : Bool := false
  /-- Alignment steps done, while an alignment runs (R117). -/
  aligning : Option Nat := none
  alignDue : Nat := 0
  /-- The seam alignment after a retune runs (R128). -/
  seamDue : Option Nat := none
  deriving DecidableEq, Repr

/-- A pending detection (R138). -/
structure Det where
  cls : Nat
  /-- First bin of the search position, and its centre (or its best sub-channel's) in Hz from the grid centre. -/
  posBin : Int
  posCentre : Int
  /-- Estimated centre in mHz from the grid centre: position or sub-channel centre plus measured offset (R130). -/
  est : Int
  /-- The largest metric m, units of 2^-32 (R131, R133). -/
  m : Nat
  /-- p and n of R131, units of 2^-20. -/
  p : Nat
  n : Nat
  /-- Raw instant of the declaration. -/
  tDecl : Nat
  /-- Merged across the two branches of a diversity pair (R148). -/
  div : Bool := false
  /-- The context held while the detection waits for Chandler; none is stage need_ctx. -/
  ctx : Option Nat := none
  deriving DecidableEq, Repr

/-- One bin of a Lens: its delay line, newest first (R128), and its noise floor in units of 2^-20 with the count and the
sum of its first 64 samples (R144). -/
structure BinIn where
  line : List (Int × Int) := []
  seen : Nat := 0
  sum : Nat := 0
  floor : Nat := 0
  deriving DecidableEq, Repr

/-- What a Lens holds of its lamp's stream since the lamp last came from OFF or STANDBY (R126 to R128, R144). -/
structure LensIn where
  /-- ADC samples taken. -/
  count : Nat := 0
  /-- The gain step at the first of them. -/
  gain : Option Nat := none
  /-- The DC tracking loop, units of 2^-32. -/
  dc : Int × Int := (0, 0)
  /-- The corrected samples last handed to the channeliser. -/
  out : List (Int × Int) := []
  /-- Bins, by k + 2,048. -/
  bins : Tab BinIn := []
  /-- The tick at which the pending queue last stopped (R138). -/
  stop : Option Nat := none
  deriving DecidableEq, Repr

/-- The life of a context area (R138, R142, R143). -/
inductive CtxSt where
  | free
  /-- Allocated to a detection whose task Chandler has not accepted. -/
  | held
  | live
  /-- Ended by Lens; commands return TOO_LATE. -/
  | ended
  /-- Released by command. -/
  | released
  deriving DecidableEq, Repr

/-- One demodulation context; its record is also written to its area in DRAM (R139). -/
structure LensCtx where
  st : CtxSt := .free
  gen : BitVec 8 := 0
  cls : Nat := 0
  /-- Lamp whose budget holds it: the lower lamp of a pair. -/
  lamp : Nat := 0
  centred : Bool := false
  g : Nat := 0
  firstBin : Int := 0
  /-- NCO shift in mHz. -/
  nco : Int := 0
  capLt : Nat := 0
  declLt : Nat := 0
  cfo : Int := 0
  fde : Int := 0
  lqi : Nat := 0
  /-- Measured deviation in mHz (R145). -/
  devMeas : Nat := 0
  /-- Channel centre in mHz from the grid centre (R130). -/
  chan : Int := 0
  /-- The RMS magnitude over the lookback, which the context's scale takes to 512 (R139). -/
  rms : Nat := 0
  wr : Nat := 0
  consumed : Nat := 0
  /-- SET_END's block count. -/
  endAt : Option Nat := none
  /-- Capture has stopped. -/
  stopped : Bool := false
  /-- SET_SYNC's argument: index in 1/256 sample. -/
  sync : Option Nat := none
  /-- BT of SET_MOD: true for 0.3 (R142). -/
  bt3 : Bool := false
  /-- The stamp, network ns. -/
  stamp : Int := 0
  task : Nat := 0
  offRaster : Bool := false
  seam : Bool := false
  div : Bool := false
  blanked : Bool := false
  endReason : Nat := 0
  deriving DecidableEq, Repr


/-- What Lens measured for the frame of a context, as a record and an acknowledgement need it (R12, R145, R203). -/
structure RxMeas where
  bt3 : Bool := false
  /-- The stamp, network ns. -/
  stamp : Int := 0
  cfo : Int := 0
  fde : Int := 0
  lqi : Nat := 0
  /-- Channel centre in mHz from the grid centre, and first bin. -/
  chan : Int := 0
  bin : Int := 0
  offRaster : Bool := false
  deriving DecidableEq, Repr

/-- A Mantle job (R173, R174): its descriptor's address and words as submitted. -/
structure MJob where
  addr : Nat
  w0 : Word
  w1 : Word
  inA : Nat
  outA : Nat
  hdr : Word
  syncLt : Word
  /-- The lane 0 to 23 that decodes it, or encoder 24 or 25; none while it is queued. -/
  lane : Option Nat := none
  /-- The measures of context CTX at the submission (R12). -/
  meas : RxMeas := {}
  deriving DecidableEq, Repr

/-- What the soft store holds of a codeword (R178). -/
inductive SoftCw where
  | bits (b : List Byte)
  | llrs (l : List Int)
  deriving DecidableEq, Repr

/-- An export message that has not been handed on (R183 to R185), of the frame CTX, SYNC_LT. -/
structure Export where
  ctx : Nat := 0
  syncLt : Word := 0
  body : List Byte
  /-- t0 in network ns. -/
  t0 : Int
  /-- Members that still need a copy. -/
  peers : List Nat
  deriving DecidableEq, Repr

/-- A soft-store entry (R178 to R186); its key is CTX and SYNC_LT. -/
structure SoftEntry where
  ctx : Nat
  syncLt : Word
  hdr : Word
  cls : Nat
  mod4 : Bool
  /-- Local time of t0, low 32 bits. -/
  t0 : Word
  /-- Stamp in network ns. -/
  stamp : Int
  lqi : Nat
  /-- The measures of its context (R12). -/
  meas : RxMeas := {}
  cws : Tab SoftCw := []
  /-- The unbound first-copy role is open. -/
  unbound : Bool := false
  /-- Key of the second copy that this first copy is bound to. -/
  bound : Option (Nat × Word) := none
  /-- The instant of that binding (R180's meeting rule). -/
  boundAt : Nat := 0
  /-- The import-hold role is open. -/
  hold : Bool := false
  /-- The export role is open, and its message has been built (R179, R184). -/
  exp : Bool := false
  built : Bool := false
  /-- The LAST job has completed. -/
  lastDone : Bool := false
  deriving DecidableEq, Repr

/-- Mantle (R170 to R188) beside its registers. -/
structure Mant where
  /-- Jobs queued, oldest first, and jobs on lanes and encoders. -/
  queue : List MJob := []
  run : List MJob := []
  /-- MANT_SUBMIT writes that the fabric holds: initiator index, address, instant (R173). -/
  waiting : List (Nat × Nat × Nat) := []
  /-- The soft store by slot. -/
  store : Tab SoftEntry := []
  exports : List Export := []
  deriving DecidableEq, Repr


/-- Where a received frame stands on its way through the Lantern hardware (R200 to R204). -/
inductive RxStage where
  /-- Codewords are being decoded. -/
  | fresh
  /-- Its cipher job is submitted. -/
  | cipher
  /-- Its tag verified; it waits for its commit. -/
  | verified
  /-- It is committed, and its acknowledgement waits for t0 + 225 us. -/
  | ack
  deriving DecidableEq, Repr

/-- A received frame (R164, R200); the measures are those of its context. -/
structure RxFrame where
  stage : RxStage := .fresh
  hdr : Word
  syncLt : Word
  cls : Nat
  mod4 : Bool
  bt3 : Bool
  /-- Decoded codewords. -/
  cws : Tab (List Byte) := []
  /-- Exporter's member for a frame recovered by import. -/
  import_ : Option Nat := none
  paired : Bool := false
  combined : Bool := false
  lamp : Nat
  stamp : Int
  cfo : Int
  fde : Int
  lqi : Nat
  /-- Channel centre in mHz from the grid centre. -/
  chan : Int
  bin : Int
  offRaster : Bool
  /-- t0 in network ns (R203). -/
  t0 : Int
  beacon : Bool := false
  index : Nat := 0
  keyref : Nat := 0
  nextKey : Bool := false
  /-- Plaintext, once the tag has verified. -/
  plain : List Byte := []
  /-- The decision was late and has been counted (R16, R204). -/
  late : Bool := false
  /-- Header bits and payload of the acknowledgement image, and its FLAGS byte. -/
  ackFlags : Nat := 0
  ackImage : List Byte := []
  deriving DecidableEq, Repr

/-- One way of the neighbour cache: the entry's words, and whether they differ from the backing store (R195). -/
structure NbrWay where
  index : Nat
  words : List Word
  dirty : Bool := false
  deriving DecidableEq, Repr

/-- A running NBR long operation (R198). -/
structure NbrOp where
  load : Bool
  restored : Bool := false
  skip : Nat := 0
  addr : Nat
  /-- Entries of a LOAD, and entries done. -/
  count : Nat := 0
  done : Nat := 0
  /-- Entries written by an EXPORT. -/
  out : Nat := 0
  by_ : Nat
  deriving DecidableEq, Repr

/-- The Lantern hardware and the neighbour table beside their registers (ch. 07). -/
structure Lant where
  /-- Frames on their way: the oldest of each context, which has the context's place in the pending table (R315). -/
  rx : Tab RxFrame := []
  /-- Later frames of a context, with it, oldest first: they wait for its place (R10). -/
  behind : List (Nat × RxFrame) := []
  /-- SYNC_LT of the last frame of each context that a fenced lane has ended (R26). -/
  dead : Tab Word := []
  /-- Cache sets, most recently used way first. -/
  cache : Tab (List NbrWay) := []
  op : Option NbrOp := none
  /-- The SEQ of the last beacon passed on from each member (R215). -/
  bcnLast : Tab Nat := []
  /-- Beacons built, and how many had been when each key slot x 256 + EPOCH was first used (R165, R214). -/
  bcnSent : Nat := 0
  bcnFirst : Tab Nat := []
  /-- Records made for the router, oldest first (R216). -/
  records : List (List Byte) := []
  deriving DecidableEq, Repr

/-- Where an in-flight result lands: a physical data register (R224, R240). -/
structure InFlight where
  reg : Nat
  val : BitVec 24
  /-- The issue cycle from which the register reads the value. -/
  due : Nat
  deriving DecidableEq, Repr

/-- An active hardware loop (R242). -/
structure Loop where
  lc : Nat
  first : Nat
  last : Nat
  rot : Bool
  deriving DecidableEq, Repr

/-- What a core that issues nothing waits for (R260, R261). -/
inductive WaitFor where
  /-- A dispatch, after TWAIT or TEND. -/
  | dispatch
  /-- Network time, TWAITU on this tm value. -/
  | time (target : BitVec 64)
  /-- RSTAT with WAIT: tag and destination. -/
  | radio (tag : Nat) (dd : BitVec 6)
  /-- DMAWT: channel and destination. -/
  | dma (ch : Nat) (dd : BitVec 6)
  /-- A DMA instruction on a busy channel, or an FST that the fabric holds (R261, R279). -/
  | hold
  deriving DecidableEq, Repr

/-- Run state of a core (R256 STATE; fenced is the unit's). -/
inductive CoreSt where
  | halted | running | faulted
  deriving DecidableEq, Repr

/-- One DMA channel (R230, R231, R277). -/
structure DmaCh where
  busy : Bool := false
  outbound : Bool := false
  mode : Nat := 0
  fabric : Nat := 0
  loc : Nat := 0
  count : Nat := 0
  /-- Last completion code; a channel that has never run reads OK. -/
  code : Code := .ok
  deriving DecidableEq, Repr

/-- A task pre-empted on a core; its registers stand in the frame in data memory (R246, R300). -/
structure Frame where
  desc : Nat
  level : Nat
  /-- Counter, rotation and nesting of its active loops, innermost first. -/
  loops : List Loop
  taskMode : Bool
  deriving DecidableEq, Repr

/-- A Wick core (keys 0 to 63) or a Lantern (keys 64 to 69). -/
structure WCore where
  st : CoreSt := .halted
  wait : Option WaitFor := none
  pc : Nat := 0
  /-- Data registers by physical number. -/
  d : Tab (BitVec 24) := []
  acc : Tab (BitVec 56) := []
  /-- The value each accumulator held before its latest write, and that write's cycle (R240). -/
  accOld : Tab (BitVec 56 × Nat) := []
  p : Tab (BitVec 16) := []
  cb : Tab (BitVec 32) := []
  lc : Tab (BitVec 16) := []
  tm : Tab (BitVec 64) := []
  wsr : BitVec 32 := 0xA8
  rrb : Fin 48 := 0
  /-- Active loops, innermost first. -/
  loops : List Loop := []
  /-- Issue cycles since the start. -/
  cyc : Nat := 0
  inflight : List InFlight := []
  /-- Cycles that a transfer of the core has waited without a free slot of data memory (R228). -/
  waited : Nat := 0
  dmem : Tab (BitVec 24) := []
  imem : Tab (BitVec 32) := []
  entry : Nat := 0
  loaded : Bool := false
  fault : Bool := false
  faultCode : Nat := 0
  faultPc : Nat := 0
  startRefused : Bool := false
  /-- The running task's descriptor. -/
  task : Option Nat := none
  /-- Tasks pre-empted on this core, latest first. -/
  frames : List Frame := []
  dma : Tab DmaCh := []
  /-- An FST that the fabric holds, with its data (R173, R279). -/
  fstHeld : Option (Nat × Nat) := none
  deriving DecidableEq, Repr

/-- Descriptor states (R289). -/
inductive DescSt where
  | free | idle | ready | running | preempted | delayed | retiring
  deriving DecidableEq, Repr

/-- Why a task became READY (R291, R292, R303). -/
inductive ReadyBy where
  | credits | flag | delay
  deriving DecidableEq, Repr

/-- A Chandler task descriptor (R289) with the run it carries. -/
structure Desc where
  st : DescSt := .free
  gen : BitVec 8 := 0
  list : Nat := 0
  entry : Nat := 0
  thresh : Nat := 0
  dep : Nat := 0
  flowEn : Bool := false
  flow : Nat := 0
  succEn : Bool := false
  succ : Nat := 0
  cost : Nat := 0
  notify : Bool := false
  nopre : Bool := false
  drain : Bool := false
  waitFlag : Bool := false
  bind : Bool := false
  core : Nat := 0
  dlist : Nat := 0
  flag : Nat := 0
  sat : Bool := false
  lastCore : Nat := 0
  arg0 : BitVec 24 := 0
  arg1 : BitVec 24 := 0
  arg2 : BitVec 24 := 0
  wake : Nat := 0
  /-- The descriptor was taken from a Lens pool (R305). -/
  pooled : Bool := false
  /-- Its context has ended otherwise than by release: freed once no run remains (R305). -/
  orphan : Bool := false
  /-- How the run in hand became ready, and the credits it took (R310). -/
  readyBy : ReadyBy := .credits
  credits : Nat := 0
  /-- The next run carries REBOUND (R310). -/
  rebound : Bool := false
  /-- Ordered-flow sequence number of the readiness or run in hand (R296). -/
  seq : Option Nat := none
  /-- A DELAY recorded during the run: its wake tick (R303). -/
  delayRec : Option Nat := none
  /-- Tick in which the descriptor entered its delay list (R303). -/
  since : Nat := 0
  /-- Position in dispatch order, for the most recently dispatched (R300). -/
  dispNo : Nat := 0
  /-- The run's completion has been committed and waits for its ordered flow: code and core (R296). -/
  held : Option (Code × Nat × Nat) := none
  deriving DecidableEq, Repr

/-- Chandler (ch. 10) beside its registers. -/
structure Chnd where
  descs : Tab Desc := []
  /-- READY tasks of each list, oldest first (R293). -/
  ready : Tab (List Nat) := []
  /-- Delayed descriptors of each delay list, earliest first (R303). -/
  delays : Tab (List Nat) := []
  flags : BitVec 64 := 0
  /-- Credit of each group, and the group under service (R294). -/
  credit : Tab Nat := []
  cur : Fin 16 := 0
  fresh : Bool := true
  /-- List last served at a level of a group (key group x 8 + level, value list + 1), and in strict mode (key 128). -/
  lastList : Tab Nat := []
  /-- Ordered flows: next sequence number to give, and the numbers outstanding (R296). -/
  flowNext : Tab Nat := []
  flowOut : Tab (List Nat) := []
  /-- Dispatches made, for dispNo. -/
  dispNo : Nat := 0
  /-- Tick at which the delay lists were last worked. -/
  worked : Nat := 0
  deriving DecidableEq, Repr


/-- A key with its admissions (R321). -/
structure Key where
  data : List Byte
  epoch : Nat
  /-- USE: a key-encryption key. -/
  kek : Bool := false
  used : Nat := 0
  limit : Nat := 2 ^ 28
  grace : Nat := 0
  deriving DecidableEq, Repr

/-- A key slot or a slot of the record cache (R321, R326). -/
structure KeySlot where
  key : Option Key := none
  gen : BitVec 8 := 0
  /-- Record and half that a cache slot holds. -/
  half : Option (Nat × Nat) := none
  /-- USED or GRACE has changed since the half was last written to DRAM. -/
  dirty : Bool := false
  deriving DecidableEq, Repr

/-- Where a cipher job comes from. -/
inductive CJobSrc where
  /-- CIPH_SUBMIT, with the descriptor's address (R315). -/
  | desc (a : Nat)
  /-- The Lantern hardware, for the frame of a context (R200). -/
  | frame (ctx : Nat)
  /-- An encryption within a BUILD or for an acknowledgement, whose result is already out (R202, R209). -/
  | inline
  deriving DecidableEq, Repr

/-- A cipher job (R314 to R316). -/
structure CJob where
  src : CJobSrc
  /-- Admission class: 1 URGENT, 2 Lantern verification, 3 CIPH_SUBMIT. -/
  cls : Nat
  op : Nat
  /-- KEY names a record; otherwise a slot. -/
  keyRec : Bool
  key : Nat
  epoch : Nat
  /-- Tag bytes. -/
  tlen : Nat
  nlen : Nat
  adlen : Nat
  len : Nat
  taskEn : Bool := false
  task : Nat := 0
  iv : List Byte
  inA : Nat := 0
  outA : Nat := 0
  /-- The lane, once admitted. -/
  lane : Nat := 0
  /-- The latched key (R314) and the slot it came from. -/
  kdata : List Byte := []
  kslot : Nat := 0
  kgen : BitVec 8 := 0
  grace : Bool := false
  /-- Lane time still needed, in quarters of a nanosecond (R317). -/
  need : Nat := 0
  deriving DecidableEq, Repr

/-- FLUSH or REWRAP in progress (R330). -/
structure KeyOp where
  rewrap : Bool
  /-- Halves done. -/
  done : Nat := 0
  by_ : Nat
  deriving DecidableEq, Repr

/-- The cipher engine (ch. 11) beside its registers. -/
structure Ciph where
  slots : Tab KeySlot := []
  /-- Cache slots that hold a half, most recently used first (R326). -/
  lru : List Nat := []
  /-- Staged components: bytes and the instant of staging (R329). -/
  staged : Tab (List Byte × Nat) := []
  /-- The active and the pending root, and the WNONCE values drawn under each (R324). -/
  root : Option (List Byte) := none
  pend : Option (List Byte) := none
  rootUses : Nat := 0
  pendUses : Nat := 0
  /-- CIPH_SUBMIT jobs, oldest first (at most 256), and writes that the fabric holds (R315). -/
  queue : List CJob := []
  waiting : List (Nat × Nat) := []
  /-- Contexts whose frames wait for admission, oldest first (R315). -/
  frames : List Nat := []
  /-- Admitted jobs, oldest first. -/
  run : List CJob := []
  /-- The instant up to which the lanes have run (R317). -/
  ranTo : Nat := 0
  op : Option KeyOp := none
  deriving DecidableEq, Repr

/-- A Snuffer command (R335, R336, R338). -/
inductive SecKind where
  | attest
  | verify
  /-- The self-tests; `boot` for those of an internal reset release. -/
  | selftest (boot : Bool)
  deriving DecidableEq, Repr

/-- A Snuffer command in progress. -/
structure SecOp where
  kind : SecKind
  by_ : Nat
  /-- Steps done, and steps in all. -/
  done : Nat := 0
  total : Nat
  /-- The request or descriptor as read at the start. -/
  req : List Byte := []
  /-- SEC_ADDR as the command found it. -/
  base : Nat := 0
  /-- The hash state of VERIFY. -/
  hash : List Nat := []
  deriving DecidableEq, Repr

/-- The Snuffer beside its registers. -/
structure Sec where
  /-- Self-tests of the last internal reset release or CIPH wake run first (R338). -/
  op : Option SecOp := some { kind := .selftest true, by_ := 4, total := 60 }
  /-- The SHA-256 of the image that VERIFY last hashed (R433). -/
  digest : List Nat := []
  /-- The boot image has been verified with KEYSEL 1 (R339). -/
  bootOwner : Bool := false
  deriving DecidableEq, Repr

/-- The state of a power domain (R412). -/
inductive DomSt where
  | on | stopped | ret | off
  deriving DecidableEq, Repr

/-- A transaction held by the DMC (R346, R347). -/
structure DmcTx where
  id : Nat
  port : Nat
  addr : Nat
  len : Nat
  /-- The bytes of a write, from `addr`; none for a byte that is not enabled, and none at all for a read. -/
  wr : Option (List (Option Byte))
  /-- Instant of arrival at the port. -/
  arrived : Nat
  /-- Counted once as waiting for a partial overlap (R349). -/
  waited : Bool := false
  deriving DecidableEq, Repr

/-- A DRAM training in progress (R357). -/
structure Training where
  /-- Ranks selected. -/
  ranks : BitVec 2
  /-- The rank being trained, its steps done, and whether its present step has been repeated (R358). -/
  cur : Nat
  steps : Nat
  repeated : Bool := false
  /-- Ranks that failed. -/
  failed : BitVec 2 := 0
  /-- Started by the unit SET of this rank with this epoch; none for DMC_TRAIN_CMD. -/
  set : Option Nat := none
  /-- Steps done in all, DMC_TRAIN_PROG. -/
  total : Nat := 0
  /-- Initiator index whose copy of the result register closes; 256 + TAG for a mailbox SET. -/
  owner : Nat := 4
  deriving DecidableEq, Repr

/-- The DRAM controller (ch. 12). -/
structure Dmc where
  trained0 : Bool := false
  trained1 : Bool := false
  training : Option Training := none
  /-- Transactions held, oldest first, and those held at the fabric for want of a place (R346). -/
  queue : List DmcTx := []
  outside : List DmcTx := []
  nextId : Nat := 0
  /-- The transaction last served and its read data; none data is a bus error (R351, R360). -/
  served : Option (Nat × Option (List Byte)) := none
  /-- Open row of each bank: rank x 16 + bank group x 4 + bank, the row plus 1, 0 closed. -/
  openRow : Tab Nat := []
  /-- Postponed refreshes of each rank (R355). -/
  postponed : Tab Nat := []
  /-- DMC_REFRESH.RATE: 0 x1, 1 x2, 2 x4 (R354). -/
  rate : Nat := 0
  /-- Since when the lid has stayed 3 degrees below the threshold of the rate in force. -/
  coolAt : Option Nat := none
  /-- Last ZQ calibration of each rank (R356). -/
  zqAt : Tab Nat := []
  scrubPos : Nat := 0
  /-- The millisecond of the last scrub read and the granules read in it (R353). -/
  scrubMs : Nat := 0
  scrubN : Nat := 0
  /-- Granules with an uncorrectable error, by address / 64 (R351). -/
  poison : List Nat := []
  /-- Fabric cycle of the error logged last (R352). -/
  eccAt : Option Nat := none
  /-- Parity alerts in the present recovery of each rank (R359). -/
  alerts : Tab Nat := []
  selfRefresh : Bool := false
  deriving DecidableEq, Repr

/-- A PWR command in progress (R413, R423). -/
inductive PwrOp where
  | ember
  | domOff (d : Nat)
  | domOn (d : Nat)
  deriving DecidableEq, Repr

/-- The Lamplighter (ch. 15). -/
structure Pwr where
  /-- The state of each domain; an unlisted domain is ON. -/
  dom : Tab DomSt := []
  op : Option PwrOp := none
  /-- Initiator index of the command. -/
  owner : Nat := 4
  /-- The domain asked, since when, and the domains that have agreed, latest first (R414, R415). -/
  asked : Nat := 0
  askedAt : Nat := 0
  agreed : List Nat := []
  /-- The commit has been made and the entry is finishing (R416). -/
  committed : Bool := false
  /-- PWR_STATUS.EMBER and WAKE_DONE. -/
  ember : Bool := false
  wakeDone : Bool := false
  /-- A wake event is latched (R415, R416). -/
  wakePending : Bool := false
  /-- The instant of the last enabled wake event (R426's meeting rule). -/
  wakeAt : Option Nat := none
  /-- The wake step or domain being brought up: steps 1 to 9, then 100 + domain (R419). -/
  waking : Option Nat := none
  stepAt : Nat := 0
  /-- WAKE_N is asserted (R418). -/
  wakeN : Bool := false
  deriving DecidableEq, Repr

/-- Where a frame to be sent comes from (R375, R384, R390, R377). -/
inductive FSrc where
  /-- Transmit ring `q` of the frame's port, entry `id` of its outstanding frames. -/
  | ring (q id : Nat)
  | transit
  | dgram
  | pause
  deriving DecidableEq, Repr

/-- A frame on its way to a transmitter. -/
structure TxFrame where
  src : FSrc
  port : Nat
  queue : Nat
  /-- From the destination address, padded and with its tag, without FCS. -/
  data : List Byte
  /-- Egress VID (R397). -/
  vid : Nat
  /-- TS_REQ and ONE_STEP of R374, and the offset of the PTP header in `data`. -/
  tsReq : Bool := false
  oneStep : Bool := false
  ptpOfs : Nat := 0
  /-- The policer has passed it (R403). -/
  policed : Bool := false
  /-- Counted once as held by the guard band (R405). -/
  held : Bool := false
  /-- Instant at which it came to the traffic manager. -/
  since : Nat := 0
  deriving DecidableEq, Repr

/-- A frame taken from a transmit ring and not yet returned (R371, R374). -/
structure TxPend where
  id : Nat
  /-- Descriptors it takes. -/
  descs : Nat
  /-- Address of its EOP descriptor. -/
  eop : Nat
  done : Bool := false
  deriving DecidableEq, Repr

/-- A frame in transmission: its start and its end, the next frame boundary. -/
structure TxWire where
  frame : TxFrame
  start : Nat
  due : Nat
  deriving DecidableEq, Repr

/-- An entry of the transmit stamp FIFO (R77): network ns. -/
structure PtpStamp where
  msgType : Nat
  domain : Nat
  seqId : Nat
  stamp : Int
  deriving DecidableEq, Repr

/-- An Ethernet port beside its registers (R364 to R379). -/
structure Emac where
  /-- MODE and SPEED in force since the last enable (R365). -/
  mode : Nat := 0
  speed : Nat := 0
  /-- Pause abilities resolved by Clause 37: transmit, receive (R364). -/
  pauseTx : Bool := false
  pauseRx : Bool := false
  /-- A received pause: its quanta, and the frame boundary from which its time counts (R376). -/
  pause : Option (Nat × Option Nat) := none
  /-- Pause frames waiting for the next frame boundary, by their quanta (R377). -/
  sends : List Nat := []
  /-- The instant of the last automatic pause, while the FIFO has not fallen below XON (R377). -/
  xoff : Option Nat := none
  /-- The frame in transmission. -/
  wire : Option TxWire := none
  /-- The last frame sent, from destination address to FCS. -/
  sent : List Byte := []
  /-- Transmit stamps not yet read, at most 16, and those discarded (R77). -/
  stamps : List PtpStamp := []
  stampDrops : Nat := 0
  /-- Frames taken from each transmit ring, oldest first, and the next identity. -/
  rings : Tab (List TxPend) := []
  nextId : Nat := 0
  deriving DecidableEq, Repr

/-- A route (R382); addresses are 128-bit numbers, an IPv4 address in the low 32 bits. -/
structure Route where
  prefix_ : Nat
  len : Nat
  hop : Nat
  v4 : Bool
  direct : Bool
  black : Bool
  port : Nat
  vid : Nat
  deriving DecidableEq, Repr

/-- A neighbour entry (R382). -/
structure Neigh where
  addr : Nat
  mac : Nat
  v4 : Bool
  port : Nat
  hit : Bool := false
  deriving DecidableEq, Repr

/-- The router beside its registers (R381 to R392). -/
structure Fwd where
  routes : Tab Route := []
  neighs : Tab Neigh := []
  /-- Records of the open datagram, padded, and the instant of the first (R388, R389). -/
  openRecs : List (List Byte) := []
  openAt : Nat := 0
  /-- A closed datagram that waits for the punt ring (R386): frame and reason. -/
  stalled : Option (List Byte × Nat) := none
  deriving DecidableEq, Repr

/-- An MDIO frame in progress: the register word, the initiator, its end. -/
structure MdioRun where
  word : Word
  by_ : Ini
  due : Nat
  deriving DecidableEq, Repr


/-- A shaped flow (R400); tokens in 2^-16 byte. -/
structure Flow where
  t : Int := 0
  last : Nat := 0
  next : Nat := 0
  /-- Frames waiting, oldest first. -/
  frames : List TxFrame := []
  deriving DecidableEq, Repr

/-- A policer's bucket (R403); tokens in 2^-16 byte. -/
structure Policer where
  tok : Nat := 0
  last : Nat := 0
  deriving DecidableEq, Repr

/-- A commit that waits for its switch-over (R407); instants in network ns. -/
structure GclPend where
  at_ : Int
  cycle : Nat
  len : Nat
  by_ : Ini
  /-- A forward step has skipped the instant (R408). -/
  skipped : Bool := false
  deriving DecidableEq, Repr

/-- A gate control list (R404 to R408). -/
structure Gcl where
  running : Bool := false
  bank : Nat := 0
  base : Int := 0
  cycle : Nat := 0
  len : Nat := 0
  /-- The entry in force at the last boundary, and its end in network ns. -/
  entry : Nat := 0
  endAt : Int := 0
  /-- After a SET or STEP: the raw instant at which the running entry ends (R408). -/
  rawEnd : Option Nat := none
  pend : Option GclPend := none
  deriving DecidableEq, Repr

/-- The traffic manager beside its registers (ch. 14). -/
structure Tmgr where
  /-- Frames not yet admitted, in the order in which they are judged (R398, R403). -/
  adm : List TxFrame := []
  /-- Queues, key 8p + q, oldest first; key 32 is EMAC4's own. -/
  queues : Tab (List TxFrame) := []
  /-- Deficits, and the queue under visit of each port (R399). -/
  deficit : Tab Nat := []
  visit : Tab Nat := []
  flows : Tab Flow := []
  policers : Tab Policer := []
  gcl : Tab Gcl := []
  /-- The slot in which the wheel last served, and the flows it served there (R401). -/
  wheelSlot : Nat := 0
  wheelN : Nat := 0
  deriving DecidableEq, Repr


/-- What a control core is doing (R433). -/
inductive HartSt where
  | running | wfi | halted
  deriving DecidableEq, Repr

/-- A control core (R427 to R429): its RISC-V registers; no row of the table executes a RISC-V instruction. [DEDUCED,
assumption 14; PRESUMED, assumption 140] -/
structure Hart where
  st : HartSt := .wfi
  pc : Nat := 0
  mode : Priv := .machine
  /-- x1 to x31 and f0 to f31. -/
  x : Tab (BitVec 64) := []
  f : Tab (BitVec 64) := []
  /-- Control and status registers by number, PMP entries and counters among them. -/
  csr : Tab (BitVec 64) := []
  deriving DecidableEq, Repr

/-- Where the boot ROM stands (R433, R434). -/
inductive BootPhase where
  /-- Hart 0 has begun to fetch from the ROM. -/
  | started
  /-- The ROM has jumped to an image, or to PWR_RESUME. -/
  | done
  | halted
  /-- BOOT_SEL 0b01: the ROM serves the mailbox. -/
  | mailbox
  /-- BOOT_SEL 0b10 with no slot verified: console blocks are taken. -/
  | console
  deriving DecidableEq, Repr

/-- The boot ROM: the index of the next console block, the stream so far and the last answer (R433). -/
structure Boot where
  phase : BootPhase := .started
  next : Nat := 0
  bytes : List Byte := []
  reply : Option Byte := none
  deriving DecidableEq, Repr

/-- A mailbox response that has not been written to the ring yet (R437, R438). -/
structure MbxRsp where
  opcode : Nat
  tag : Nat
  code : Nat
  payload : List Word
  deriving DecidableEq, Repr

/-- The mailbox beside its registers (R437 to R439): the MINOR in force after a HELLO, the open commands (TAG to OPCODE),
the responses that wait for room, and the MSI-X vector 0 messages sent. -/
structure Mbx where
  minor : Option Nat := none
  opened : Tab Nat := []
  out : List MbxRsp := []
  msix : Nat := 0
  deriving DecidableEq, Repr

/-- CAL_WRITE in progress (R440, R444): sections left, the step of the first, the data of the named sections, and its
TAG. -/
structure CalWrite where
  secs : List Nat
  step : Nat := 0
  data : List (List Byte)
  tag : Nat
  deriving DecidableEq, Repr

/-- The journal's position in the NOR (R445): oldest used sector, used sectors, offset in the latest, next sequence
number, and the code of the last append. -/
structure Journal where
  first : Nat := 0
  used : Nat := 0
  off : Nat := 0
  seq : Nat := 0
  code : Option Code := none
  deriving DecidableEq, Repr

/-- An image load in progress (R249): target cores, image address, words read so far, and in the second pass the number of
words written. -/
structure LoadOp where
  by_ : Nat
  keys : List Nat
  src : Nat
  words : List Nat := []
  written : Option Nat := none
  deriving DecidableEq, Repr

/-- A Bilolabry message sent to peer `peer` (R448 to R450). -/
structure CluMsg where
  peer : Nat
  type_ : Nat
  code : Option Code := none
  body : List Byte := []
  deriving DecidableEq, Repr

/-- Partition masks on offer or agreed (R450): PART_LEN, a mask for each lamp, T in seconds, and agreement. -/
structure MaskDeal where
  partLen : Nat
  masks : List (BitVec 64)
  at_ : Nat
  agreed : Bool
  deriving DecidableEq, Repr

/-- The cluster protocol beside its registers (R448 to R450). -/
structure Clu where
  /-- Messages sent, oldest first. -/
  sent : List CluMsg := []
  /-- MINOR agreed with each peer. -/
  minor : Tab Nat := []
  /-- Instant of the last KEEPALIVE of each peer. -/
  heard : Tab Nat := []
  /-- Messages of an unknown TYPE (R448). -/
  unknown : Nat := 0
  deal : Option MaskDeal := none
  /-- SEQ of the next soft export sent. -/
  seq : Nat := 0
  deriving DecidableEq, Repr

/-- Background work (R441 to R445): budgets used in the present second or millisecond, and positions. -/
structure Bg where
  sramMs : Nat := 0
  sramN : Nat := 0
  sramPos : Nat := 0
  /-- Granules of shared SRAM with an uncorrectable error, by address / 64. -/
  sramBad : List Nat := []
  norSec : Nat := 0
  norN : Nat := 0
  telemAt : Option Nat := none
  deriving DecidableEq, Repr


/-- The whole state of the GTH-7. -/
structure State where
  /-- Commands that wait, first in first out. -/
  pending : List Instr := []
  /-- Present instant, ns on an axis no reset touches; every command carries its instant. -/
  clk : Nat := 0
  /-- The instant of the last internal reset release: NTIM_RAW is `clk - relAt` (R62). -/
  relAt : Nat := 0
  /-- MODEL'S OWN: how many free values have been drawn (Config). -/
  freeCtr : Nat := 0
  /-- Every register of the address map that differs from its reset value, by physical address. -/
  regs : Tab Word := []
  /-- Per-initiator copies: key initiator x 2^40 + address (R459). -/
  latches : Tab Word := []
  /-- The last bus answer of each initiator. -/
  resp : Tab BusResp := []
  /-- Shared SRAM and DRAM, byte addressed by fabric address; an unlisted byte reads 0. -/
  mem : List Host.Cell := []
  /-- The on-package NOR, 128 MiB from offset 0; an unlisted byte reads 0xFF. -/
  nor : List Host.Cell := []
  board : Board := {}
  ntim : Ntim := {}
  /-- Pulse outputs 0 to 3. -/
  pps : Tab Pps := []
  /-- Compare/capture channels 0 to 31. -/
  tmr : Tab TmrCh := []
  /-- Lamps 0 to 2. -/
  lamps : Tab Lamp := []
  pair : Pair := {}
  /-- The Lens input of each lamp (R126, R144). -/
  lens : Tab LensIn := []
  /-- Pending detections of each lamp, oldest first (R138). -/
  dets : Tab (List Det) := []
  /-- Contexts 0 to 3,071 (R139). -/
  ctxs : Tab LensCtx := []
  /-- Radio-command tags: key Lantern x 16 + tag; none pending, else the final code (R283). -/
  rtags : Tab (Option Code) := []
  /-- RCMD commands that each Lantern has had accepted; the low four bits of a command's number are its tag. -/
  rtagCnt : Tab Nat := []
  /-- That count when the Lantern last started. -/
  rtagBase : Tab Nat := []
  /-- Interrupt sources held pending for a pulse (R456). -/
  irqPend : BitVec 256 := 0
  /-- Sources claimed and not completed (R431). -/
  irqServed : BitVec 256 := 0
  /-- Performance counters and their shadows (R451). -/
  pcnt : Tab (BitVec 48) := []
  pcntShd : Tab (BitVec 48) := []
  /-- Sub-microsecond remainders of the event sources that count microseconds or 64-byte units. -/
  pcntFrac : Tab Nat := []
  dmc : Dmc := {}
  pwr : Pwr := {}
  /-- Wick cores 0 to 63, then Lanterns 0 to 5 as 64 to 69. -/
  cores : Tab WCore := []
  chnd : Chnd := {}
  mant : Mant := {}
  lant : Lant := {}
  ciph : Ciph := {}
  sec : Sec := {}
  /-- Ports 0 to 4. -/
  emac : Tab Emac := []
  mdio : Option MdioRun := none
  fwd : Fwd := {}
  tmgr : Tmgr := {}
  /-- Control cores 0 to 3. -/
  harts : Tab Hart := [(0, { st := .running })]
  boot : Boot := {}
  mbx : Mbx := {}
  calWr : Option CalWrite := none
  jrn : Journal := {}
  loader : Option LoadOp := none
  clu : Clu := {}
  bg : Bg := {}
  deriving DecidableEq, Repr

/-- The machine right after internal reset release that follows a power-on. [DEDUCED, assumption 9; DESIGN CHOICE,
assumption 10] -/
def State.reset : State := {}

end Sys2Proof.Machine
end

