-- ==== Sys2Proof/Machine/RegMap.lean ====
section
/-! DEFINITION. The register address map: one row for each register family of the spec's register tables, with its
reset value and its access codes (R5) bit by bit. Command registers, read-only views and clamps are in the families'
own files. -/
namespace Sys2Proof.Machine

/-- A register family: `dims` gives the stride and count of each index, outermost first. -/
structure RegFam where
  name : String
  base : Nat
  dims : List (Nat × Nat) := []
  reset : Nat := 0
  /-- Bits that a write sets (RW). -/
  rw : Nat := 0
  /-- Bits that a write of 1 clears (W1C). -/
  w1c : Nat := 0
  /-- Bits that a read returns to their reset value (RC). -/
  rc : Nat := 0

/-- R2. -/
abbrev SYS_IDENT : Nat := 0x40000000
/-- R57. -/
abbrev SYS_RESET_CAUSE : Nat := 0x40000004
/-- R58. -/
abbrev SYS_RESET_CTRL : Nat := 0x40000008
/-- R59. -/
abbrev SYS_SUPPLY : Nat := 0x4000000c
/-- R60. -/
abbrev SYS_THERMAL : Nat := 0x40000010
/-- R61. -/
abbrev SYS_CLOCK : Nat := 0x40000014
/-- R452. -/
abbrev SYS_BOOT_STATUS : Nat := 0x40000020
/-- R452. -/
abbrev SYS_SVN : Nat := 0x40000024
/-- R452. -/
abbrev SYS_SVN_BURN : Nat := 0x40000028
/-- R452. -/
abbrev SYS_BUSERR_LO : Nat := 0x40000030
/-- R452. -/
abbrev SYS_BUSERR_HI : Nat := 0x40000034
/-- R452. -/
abbrev SYS_BOOT_MEAS (i : Nat) : Nat := 0x40000040 + 0x4 * i
/-- R452. -/
abbrev SYS_UNIT_CMD : Nat := 0x40000100
/-- R452. -/
abbrev SYS_UNIT_ARG : Nat := 0x40000104
/-- R452. -/
abbrev SYS_UNIT_RES : Nat := 0x40000108
/-- R452. -/
abbrev SYS_UNIT_DIV_LO : Nat := 0x40000110
/-- R452. -/
abbrev SYS_UNIT_DIV_HI : Nat := 0x40000114
/-- R452. -/
abbrev SYS_UNIT_MGMT (u : Nat) : Nat := 0x40000200 + 0x8 * u
/-- R452. -/
abbrev SYS_UNIT_DP (u : Nat) : Nat := 0x40000204 + 0x8 * u
/-- R452. -/
abbrev SYS_SSCRUB_CTL : Nat := 0x40000400
/-- R452. -/
abbrev SYS_CNT_SSCRUB_PASS : Nat := 0x40000408
/-- R452. -/
abbrev SYS_CNT_SSCRUB_CE : Nat := 0x4000040c
/-- R452. -/
abbrev SYS_CNT_SSCRUB_UE : Nat := 0x40000410
/-- R452. -/
abbrev SYS_BG_CAL : Nat := 0x40000420
/-- R452. -/
abbrev SYS_BG_CAL_STEPS (n : Nat) : Nat := 0x40000424 + 0x8 * n
/-- R452. -/
abbrev SYS_BG_CAL_LATE (n : Nat) : Nat := 0x40000428 + 0x8 * n
/-- R452. -/
abbrev SYS_TELEM_CTL : Nat := 0x40000440
/-- R452. -/
abbrev SYS_TELEM_LO : Nat := 0x40000444
/-- R452. -/
abbrev SYS_TELEM_HI : Nat := 0x40000448
/-- R452. -/
abbrev SYS_TELEM_IDX : Nat := 0x4000044c
/-- R452. -/
abbrev SYS_CNT_TELEM_DROP : Nat := 0x40000450
/-- R452. -/
abbrev SYS_NOR_CTL : Nat := 0x40000480
/-- R452. -/
abbrev SYS_NOR_WEAR : Nat := 0x4000048c
/-- R452. -/
abbrev SYS_CNT_NOR_ERASE : Nat := 0x40000490
/-- R452. -/
abbrev SYS_CAL_STATUS : Nat := 0x400004a0
/-- R431. -/
abbrev ACLINT_MSIP (h : Nat) : Nat := 0x40300000 + 0x4 * h
/-- R431. -/
abbrev ACLINT_MTIMECMP_LO (h : Nat) : Nat := 0x40304000 + 0x8 * h
/-- R431. -/
abbrev ACLINT_MTIMECMP_HI (h : Nat) : Nat := 0x40304004 + 0x8 * h
/-- R431. -/
abbrev ACLINT_MTIME_LO : Nat := 0x4030bff8
/-- R431. -/
abbrev ACLINT_MTIME_HI : Nat := 0x4030bffc
/-- R431. -/
abbrev PLIC_PRIORITY (i : Nat) : Nat := 0x40400000 + 0x4 * i
/-- R431. -/
abbrev PLIC_PENDING (w : Nat) : Nat := 0x40401000 + 0x4 * w
/-- R431. -/
abbrev PLIC_ENABLE (c w : Nat) : Nat := 0x40402000 + 0x80 * c + 0x4 * w
/-- R431. -/
abbrev PLIC_THRESHOLD (c : Nat) : Nat := 0x40600000 + 0x1000 * c
/-- R431. -/
abbrev PLIC_CLAIM (c : Nat) : Nat := 0x40600004 + 0x1000 * c
/-- R425. -/
abbrev PWR_CMD : Nat := 0x41000000
/-- R425. -/
abbrev PWR_RES : Nat := 0x41000004
/-- R426. -/
abbrev PWR_STATUS : Nat := 0x41000008
/-- R425. -/
abbrev PWR_DOM_ON : Nat := 0x4100000c
/-- R426. -/
abbrev PWR_WAKE_EN : Nat := 0x41000010
/-- R425. -/
abbrev PWR_WAKE_CAUSE : Nat := 0x41000014
/-- R425. -/
abbrev PWR_RET_MASK : Nat := 0x41000018
/-- R425. -/
abbrev PWR_BANK_LOST : Nat := 0x4100001c
/-- R425. -/
abbrev PWR_RESUME : Nat := 0x41000020
/-- R425. -/
abbrev PWR_REFUSE : Nat := 0x41000024
/-- R425. -/
abbrev PWR_ACK_TIMEOUT : Nat := 0x41000028
/-- R425. -/
abbrev PWR_CNT_EMBER : Nat := 0x41000030
/-- R425. -/
abbrev PWR_CNT_REFUSED : Nat := 0x41000034
/-- R426. -/
abbrev PWR_DOM_STATUS (d : Nat) : Nat := 0x41000100 + 0x4 * d
/-- R425. -/
abbrev PWR_BANK_SIG (b : Nat) : Nat := 0x41000200 + 0x4 * b
/-- R453. -/
abbrev HIF_MBX_VER : Nat := 0x4e000000
/-- R453. -/
abbrev HIF_MBX_STATUS : Nat := 0x4e000004
/-- R453. -/
abbrev HIF_MBX_BASE : Nat := 0x4e000008
/-- R453. -/
abbrev HIF_MBX_CMD_IDX : Nat := 0x4e000010
/-- R453. -/
abbrev HIF_MBX_RSP_IDX : Nat := 0x4e000014
/-- R453. -/
abbrev HIF_DWIN : Nat := 0x4e000020
/-- R453. -/
abbrev CLU_CTL : Nat := 0x4b090000
/-- R453. -/
abbrev CLU_PEER_ADDR (k w : Nat) : Nat := 0x4b090010 + 0x20 * k + 0x4 * w
/-- R453. -/
abbrev CLU_PEER (k : Nat) : Nat := 0x4b090020 + 0x20 * k
/-- R453. -/
abbrev CLU_IMPORT : Nat := 0x4b090100
/-- R453. -/
abbrev CLU_CNT_IMP_BAD : Nat := 0x4b090104
/-- R453. -/
abbrev PCNT_CTL : Nat := 0x4d000000
/-- R453. -/
abbrev PCNT_WRAP (g : Nat) : Nat := 0x4d000010 + 0x4 * g
/-- R453. -/
abbrev PCNT_USER : Nat := 0x4d000080
/-- R453. -/
abbrev PCNT_CNT_LO (e : Nat) : Nat := 0x4d001000 + 0x8 * e
/-- R453. -/
abbrev PCNT_CNT_HI (e : Nat) : Nat := 0x4d001004 + 0x8 * e
/-- R453. -/
abbrev PCNT_SHD_LO (e : Nat) : Nat := 0x4d002000 + 0x8 * e
/-- R453. -/
abbrev PCNT_SHD_HI (e : Nat) : Nat := 0x4d002004 + 0x8 * e
/-- R84. -/
abbrev NTIM_RAW_LO : Nat := 0x42000000
/-- R84. -/
abbrev NTIM_RAW_HI : Nat := 0x42000004
/-- R84. -/
abbrev NTIM_NOW_NS : Nat := 0x42000008
/-- R84. -/
abbrev NTIM_NOW_SEC_LO : Nat := 0x4200000c
/-- R84. -/
abbrev NTIM_NOW_SEC_HI : Nat := 0x42000010
/-- R84. -/
abbrev NTIM_RATE : Nat := 0x42000014
/-- R84. -/
abbrev NTIM_ARG_NS : Nat := 0x42000018
/-- R84. -/
abbrev NTIM_ARG_SEC_LO : Nat := 0x4200001c
/-- R84. -/
abbrev NTIM_ARG_SEC_HI : Nat := 0x42000020
/-- R84. -/
abbrev NTIM_CMD : Nat := 0x42000024
/-- R84. -/
abbrev NTIM_SLEW_CTL : Nat := 0x42000028
/-- R84. -/
abbrev NTIM_SLEW_LEFT : Nat := 0x4200002c
/-- R85. -/
abbrev NTIM_STATUS : Nat := 0x42000030
/-- R86. -/
abbrev NTIM_SRC_CTL : Nat := 0x42000034
/-- R87. -/
abbrev NTIM_BCN_CTL : Nat := 0x42000040
/-- R84. -/
abbrev NTIM_BCN_PERIOD : Nat := 0x42000044
/-- R84. -/
abbrev NTIM_BCN_PATH : Nat := 0x42000048
/-- R88. -/
abbrev NTIM_BCN_STATUS : Nat := 0x4200004c
/-- R89. -/
abbrev NTIM_GUARD_CTL : Nat := 0x42000050
/-- R84. -/
abbrev NTIM_GUARD : Nat := 0x42000054
/-- R84. -/
abbrev NTIM_PPS_START_NS (k : Nat) : Nat := 0x42000100 + 0x20 * k
/-- R84. -/
abbrev NTIM_PPS_START_SEC_LO (k : Nat) : Nat := 0x42000104 + 0x20 * k
/-- R84. -/
abbrev NTIM_PPS_START_SEC_HI (k : Nat) : Nat := 0x42000108 + 0x20 * k
/-- R84. -/
abbrev NTIM_PPS_PERIOD (k : Nat) : Nat := 0x4200010c + 0x20 * k
/-- R84. -/
abbrev NTIM_PPS_WIDTH (k : Nat) : Nat := 0x42000110 + 0x20 * k
/-- R90. -/
abbrev NTIM_PPS_CTL (k : Nat) : Nat := 0x42000114 + 0x20 * k
/-- R90. -/
abbrev NTIM_PPS_STATUS (k : Nat) : Nat := 0x42000118 + 0x20 * k
/-- R84. -/
abbrev TMR_LT_LO : Nat := 0x42001000
/-- R84. -/
abbrev TMR_LT_HI : Nat := 0x42001004
/-- R91. -/
abbrev TMR_CH_CTL (n : Nat) : Nat := 0x42001100 + 0x20 * n
/-- R84. -/
abbrev TMR_CH_CMP (n : Nat) : Nat := 0x42001104 + 0x20 * n
/-- R84. -/
abbrev TMR_CH_PERIOD (n : Nat) : Nat := 0x42001108 + 0x20 * n
/-- R84. -/
abbrev TMR_CH_CAP_LO (n : Nat) : Nat := 0x4200110c + 0x20 * n
/-- R84. -/
abbrev TMR_CH_CAP_HI (n : Nat) : Nat := 0x42001110 + 0x20 * n
/-- R92. -/
abbrev TMR_CH_STATUS (n : Nat) : Nat := 0x42001114 + 0x20 * n
/-- R122. -/
abbrev LAMP_STATE_CTL (n : Nat) : Nat := 0x43000000 + 0x100000 * n
/-- R122. -/
abbrev LAMP_STATUS (n : Nat) : Nat := 0x43000004 + 0x100000 * n
/-- R121. -/
abbrev LAMP_TUNE (n : Nat) : Nat := 0x43000008 + 0x100000 * n
/-- R121. -/
abbrev LAMP_RX_GAIN (n : Nat) : Nat := 0x4300000c + 0x100000 * n
/-- R121. -/
abbrev LAMP_TXPWR (n : Nat) : Nat := 0x43000010 + 0x100000 * n
/-- R123. -/
abbrev LAMP_EXT_MAP (n : Nat) : Nat := 0x43000014 + 0x100000 * n
/-- R121. -/
abbrev LAMP_EXT_DLY (n : Nat) : Nat := 0x43000018 + 0x100000 * n
/-- R123. -/
abbrev LAMP_CAL_CTL (n : Nat) : Nat := 0x43000020 + 0x100000 * n
/-- R123. -/
abbrev LAMP_CAL_STATUS (n : Nat) : Nat := 0x43000024 + 0x100000 * n
/-- R121. -/
abbrev LAMP_TEMP (n : Nat) : Nat := 0x43000028 + 0x100000 * n
/-- R121. -/
abbrev LAMP_TX_ONTIME (n : Nat) : Nat := 0x4300002c + 0x100000 * n
/-- R121. -/
abbrev LAMP_CNT_DEADLINE (n : Nat) : Nat := 0x43000030 + 0x100000 * n
/-- R121. -/
abbrev LAMP_CNT_LBT_BUSY (n : Nat) : Nat := 0x43000034 + 0x100000 * n
/-- R121. -/
abbrev LAMP_CNT_ACK_DROP (n : Nat) : Nat := 0x43000038 + 0x100000 * n
/-- R121. -/
abbrev LAMP_CNT_TX_ABORT (n : Nat) : Nat := 0x4300003c + 0x100000 * n
/-- R125. -/
abbrev LAMP_PAIR_CTL : Nat := 0x43100080
/-- R125. -/
abbrev LAMP_PAIR_STATUS : Nat := 0x43100084
/-- R124. -/
abbrev LAMP_PROF_A (n k : Nat) : Nat := 0x43000100 + 0x100000 * n + 0x8 * k
/-- R124. -/
abbrev LAMP_PROF_B (n k : Nat) : Nat := 0x43000104 + 0x100000 * n + 0x8 * k
/-- R153. -/
abbrev LENS_CTL (n : Nat) : Nat := 0x44000000 + 0x10000 * n
/-- R152. -/
abbrev LENS_RASTER_ORG (n : Nat) : Nat := 0x44000004 + 0x10000 * n
/-- R152. -/
abbrev LENS_HOLD (n : Nat) : Nat := 0x44000008 + 0x10000 * n
/-- R152. -/
abbrev LENS_LIMITS (n : Nat) : Nat := 0x4400000c + 0x10000 * n
/-- R152. -/
abbrev LENS_CAP (n : Nat) : Nat := 0x44000010 + 0x10000 * n
/-- R152. -/
abbrev LENS_USAGE (n : Nat) : Nat := 0x44000014 + 0x10000 * n
/-- R152. -/
abbrev LENS_PEND (n : Nat) : Nat := 0x44000018 + 0x10000 * n
/-- R153. -/
abbrev LENS_SRCH (n c : Nat) : Nat := 0x44000020 + 0x10000 * n + 0x4 * c
/-- R152. -/
abbrev LENS_RING_LO (n : Nat) : Nat := 0x44000040 + 0x10000 * n
/-- R152. -/
abbrev LENS_RING_HI (n : Nat) : Nat := 0x44000044 + 0x10000 * n
/-- R152. -/
abbrev LENS_CNT_DECL (n : Nat) : Nat := 0x44000080 + 0x10000 * n
/-- R152. -/
abbrev LENS_CNT_SUPPRESSED (n : Nat) : Nat := 0x44000084 + 0x10000 * n
/-- R152. -/
abbrev LENS_CNT_DROP_QFULL (n : Nat) : Nat := 0x44000088 + 0x10000 * n
/-- R152. -/
abbrev LENS_CNT_DROP_NOCTX (n : Nat) : Nat := 0x4400008c + 0x10000 * n
/-- R152. -/
abbrev LENS_CNT_DROP_CHND (n : Nat) : Nat := 0x44000090 + 0x10000 * n
/-- R152. -/
abbrev LENS_CNT_SYNC_TO (n : Nat) : Nat := 0x44000094 + 0x10000 * n
/-- R152. -/
abbrev LENS_CNT_HDR_TO (n : Nat) : Nat := 0x44000098 + 0x10000 * n
/-- R152. -/
abbrev LENS_CNT_OVERRUN (n : Nat) : Nat := 0x4400009c + 0x10000 * n
/-- R152. -/
abbrev LENS_CNT_MASK_FAIL (n : Nat) : Nat := 0x440000a0 + 0x10000 * n
/-- R150. -/
abbrev LENS_SHP5 (n k : Nat) : Nat := 0x44000100 + 0x10000 * n + 0x4 * k
/-- R150. -/
abbrev LENS_SHP3 (n k : Nat) : Nat := 0x44000180 + 0x10000 * n + 0x4 * k
/-- R154. -/
abbrev LENS_MASK_CTL (n : Nat) : Nat := 0x44000200 + 0x10000 * n
/-- R154. -/
abbrev LENS_MASK (n s : Nat) : Nat := 0x44000210 + 0x10000 * n + 0x4 * s
/-- R155. -/
abbrev LENS_CTX_CMD : Nat := 0x44030000
/-- R152. -/
abbrev LENS_CTX_ARG : Nat := 0x44030004
/-- R152. -/
abbrev LENS_CTX_RES : Nat := 0x44030008
/-- R121. -/
abbrev LAMP0_RSVD80 : Nat := 0x43000080
/-- R121. -/
abbrev LAMP0_RSVD84 : Nat := 0x43000084
/-- R121. -/
abbrev LAMP2_RSVD80 : Nat := 0x43200080
/-- R121. -/
abbrev LAMP2_RSVD84 : Nat := 0x43200084
/-- R363. -/
abbrev DMC_CTL : Nat := 0x4a000000
/-- R363. -/
abbrev DMC_STATUS : Nat := 0x4a000004
/-- R362. -/
abbrev DMC_TRAIN_CMD : Nat := 0x4a000008
/-- R362. -/
abbrev DMC_TRAIN_RES : Nat := 0x4a00000c
/-- R362. -/
abbrev DMC_TRAIN_PROG : Nat := 0x4a000010
/-- R362. -/
abbrev DMC_RANK_CTL : Nat := 0x4a000014
/-- R362. -/
abbrev DMC_REFRESH : Nat := 0x4a000018
/-- R362. -/
abbrev DMC_SCRUB_CTL : Nat := 0x4a000020
/-- R362. -/
abbrev DMC_SCRUB_POS : Nat := 0x4a000024
/-- R363. -/
abbrev DMC_ECC_LOG : Nat := 0x4a000030
/-- R362. -/
abbrev DMC_ECC_ADDR_LO : Nat := 0x4a000034
/-- R362. -/
abbrev DMC_ECC_ADDR_HI : Nat := 0x4a000038
/-- R348. -/
abbrev DMC_PORT_CFG (p : Nat) : Nat := 0x4a000040 + 0x8 * p
/-- R362. -/
abbrev DMC_PORT_LATE (p : Nat) : Nat := 0x4a000044 + 0x8 * p
/-- R362. -/
abbrev DMC_CNT_CE : Nat := 0x4a000080
/-- R362. -/
abbrev DMC_CNT_UE : Nat := 0x4a000084
/-- R362. -/
abbrev DMC_CNT_RMW : Nat := 0x4a000088
/-- R362. -/
abbrev DMC_CNT_FWD : Nat := 0x4a00008c
/-- R362. -/
abbrev DMC_CNT_RAW_WAIT : Nat := 0x4a000090
/-- R362. -/
abbrev DMC_CNT_CA_ALERT : Nat := 0x4a000094
/-- R362. -/
abbrev DMC_CNT_REF_FORCED : Nat := 0x4a000098
/-- R362. -/
abbrev DMC_CNT_SCRUB_PASS : Nat := 0x4a00009c
/-- R362. -/
abbrev DMC_CNT_SCRUB_CE : Nat := 0x4a0000a0
/-- R255. -/
abbrev WICK_CTL (n : Nat) : Nat := 0x45000000 + 0x10000 * n
/-- R256. -/
abbrev WICK_STATUS (n : Nat) : Nat := 0x45000004 + 0x10000 * n
/-- R255. -/
abbrev WICK_PC (n : Nat) : Nat := 0x45000008 + 0x10000 * n
/-- R255. -/
abbrev WICK_FAULT_PC (n : Nat) : Nat := 0x4500000c + 0x10000 * n
/-- R255. -/
abbrev WICK_ENTRY (n : Nat) : Nat := 0x45000010 + 0x10000 * n
/-- R255. -/
abbrev WICK_DMEM_ADDR (n : Nat) : Nat := 0x45000020 + 0x10000 * n
/-- R255. -/
abbrev WICK_DMEM_DATA (n : Nat) : Nat := 0x45000024 + 0x10000 * n
/-- R255. -/
abbrev WICK_IMEM_ADDR (n : Nat) : Nat := 0x45000028 + 0x10000 * n
/-- R255. -/
abbrev WICK_IMEM_DATA (n : Nat) : Nat := 0x4500002c + 0x10000 * n
/-- R255. -/
abbrev WICK_RRB (n : Nat) : Nat := 0x45000030 + 0x10000 * n
/-- R255. -/
abbrev WICK_STALLS (n : Nat) : Nat := 0x45000034 + 0x10000 * n
/-- R256. -/
abbrev WICK_LOAD_CMD : Nat := 0x45400000
/-- R255. -/
abbrev WICK_LOAD_SRC_LO : Nat := 0x45400004
/-- R255. -/
abbrev WICK_LOAD_SRC_HI : Nat := 0x45400008
/-- R255. -/
abbrev WICK_LOAD_MASK_LO : Nat := 0x4540000c
/-- R255. -/
abbrev WICK_LOAD_MASK_HI : Nat := 0x45400010
/-- R255. -/
abbrev WICK_LOAD_RES : Nat := 0x45400014
/-- R255. -/
abbrev WICK_LOAD_PROG : Nat := 0x45400018
/-- R312. -/
abbrev CHND_CTL : Nat := 0x49000000
/-- R312. -/
abbrev CHND_STATUS : Nat := 0x49000004
/-- R311. -/
abbrev CHND_TICK : Nat := 0x49000008
/-- R311. -/
abbrev CHND_CMD : Nat := 0x4900000c
/-- R311. -/
abbrev CHND_ARG : Nat := 0x49000010
/-- R311. -/
abbrev CHND_RES : Nat := 0x49000014
/-- R311. -/
abbrev CHND_FLAG_SET : Nat := 0x49000018
/-- R311. -/
abbrev CHND_FLAGS_LO : Nat := 0x4900001c
/-- R311. -/
abbrev CHND_FLAGS_HI : Nat := 0x49000020
/-- R311. -/
abbrev CHND_CPL_BASE : Nat := 0x49000030
/-- R311. -/
abbrev CHND_CPL_IDX : Nat := 0x49000034
/-- R311. -/
abbrev CHND_POOL_RANGE (k : Nat) : Nat := 0x49000040 + 0x8 * k
/-- R312. -/
abbrev CHND_POOL_TMPL (k : Nat) : Nat := 0x49000044 + 0x8 * k
/-- R311. -/
abbrev CHND_CNT_DISPATCH : Nat := 0x49000080
/-- R311. -/
abbrev CHND_CNT_PREEMPT : Nat := 0x49000084
/-- R311. -/
abbrev CHND_CNT_REFUSED : Nat := 0x49000088
/-- R311. -/
abbrev CHND_CNT_SAT : Nat := 0x4900008c
/-- R311. -/
abbrev CHND_CNT_DLY_LATE : Nat := 0x49000090
/-- R311. -/
abbrev CHND_CNT_CPL_DROP : Nat := 0x49000094
/-- R311. -/
abbrev CHND_CNT_ABORT : Nat := 0x49000098
/-- R312. -/
abbrev CHND_LIST_CFG (l : Nat) : Nat := 0x49000100 + 0x4 * l
/-- R311. -/
abbrev CHND_LIST_OCC (l : Nat) : Nat := 0x49000200 + 0x4 * l
/-- R312. -/
abbrev CHND_GRP_CFG (g : Nat) : Nat := 0x49000300 + 0x4 * g
/-- R289. -/
abbrev CHND_DESC (i w : Nat) : Nat := 0x49010000 + 0x20 * i + 0x4 * w
/-- R187. -/
abbrev MANT_CTL : Nat := 0x46000000
/-- R187. -/
abbrev MANT_LANES : Nat := 0x46000004
/-- R187. -/
abbrev MANT_SUBMIT : Nat := 0x46000008
/-- R187. -/
abbrev MANT_ABORT : Nat := 0x4600000c
/-- R187. -/
abbrev MANT_ABORT_RES : Nat := 0x46000010
/-- R187. -/
abbrev MANT_QLEVEL : Nat := 0x46000014
/-- R187. -/
abbrev MANT_STORE_LO : Nat := 0x46000020
/-- R187. -/
abbrev MANT_STORE_HI : Nat := 0x46000024
/-- R188. -/
abbrev MANT_PAIR_CTL : Nat := 0x46000028
/-- R188. -/
abbrev MANT_EXP_CTL : Nat := 0x4600002c
/-- R187. -/
abbrev MANT_EXP_PEER (k : Nat) : Nat := 0x46000030 + 0x4 * k
/-- R187. -/
abbrev MANT_IMP_RING_LO : Nat := 0x46000040
/-- R187. -/
abbrev MANT_IMP_RING_HI : Nat := 0x46000044
/-- R187. -/
abbrev MANT_IMP_TASK : Nat := 0x46000048
/-- R187. -/
abbrev MANT_IMP_IDX : Nat := 0x4600004c
/-- R187. -/
abbrev MANT_CNT_HDR_OK : Nat := 0x46000080
/-- R187. -/
abbrev MANT_CNT_HDR_FAIL : Nat := 0x46000084
/-- R187. -/
abbrev MANT_CNT_HDR_VER : Nat := 0x46000088
/-- R187. -/
abbrev MANT_CNT_CW_OK : Nat := 0x4600008c
/-- R187. -/
abbrev MANT_CNT_CW_FAIL : Nat := 0x46000090
/-- R187. -/
abbrev MANT_CNT_PAIR_BOUND : Nat := 0x46000094
/-- R187. -/
abbrev MANT_CNT_PAIR_OK : Nat := 0x46000098
/-- R187. -/
abbrev MANT_CNT_PAIR_FAIL : Nat := 0x4600009c
/-- R187. -/
abbrev MANT_CNT_UNSTORED : Nat := 0x460000a0
/-- R187. -/
abbrev MANT_CNT_EXP_SENT : Nat := 0x460000a4
/-- R187. -/
abbrev MANT_CNT_EXP_LATE : Nat := 0x460000a8
/-- R187. -/
abbrev MANT_CNT_EXP_BIG : Nat := 0x460000ac
/-- R187. -/
abbrev MANT_CNT_IMP_OK : Nat := 0x460000b0
/-- R187. -/
abbrev MANT_CNT_IMP_FAIL : Nat := 0x460000b4
/-- R187. -/
abbrev MANT_CNT_IMP_DROP : Nat := 0x460000b8
/-- R219. -/
abbrev LANT_CTL : Nat := 0x47000000
/-- R218. -/
abbrev LANT_PART : Nat := 0x47000004
/-- R218. -/
abbrev LANT_PART_LO (n : Nat) : Nat := 0x47000010 + 0x8 * n
/-- R218. -/
abbrev LANT_PART_HI (n : Nat) : Nat := 0x47000014 + 0x8 * n
/-- R218. -/
abbrev LANT_BCN_CTL : Nat := 0x47000030
/-- R218. -/
abbrev LANT_BCN_SEQ : Nat := 0x47000034
/-- R218. -/
abbrev LANT_BCN_LAST : Nat := 0x47000038
/-- R218. -/
abbrev LANT_EVT_LO : Nat := 0x47000040
/-- R218. -/
abbrev LANT_EVT_HI : Nat := 0x47000044
/-- R218. -/
abbrev LANT_EVT_IDX : Nat := 0x47000048
/-- R218. -/
abbrev LANT_CNT_ACCEPT : Nat := 0x47000080
/-- R218. -/
abbrev LANT_CNT_DUP_ACK : Nat := 0x47000084
/-- R218. -/
abbrev LANT_CNT_DUP_DROP : Nat := 0x47000088
/-- R218. -/
abbrev LANT_CNT_STALE : Nat := 0x4700008c
/-- R218. -/
abbrev LANT_CNT_EPOCH : Nat := 0x47000090
/-- R218. -/
abbrev LANT_CNT_UNKNOWN : Nat := 0x47000094
/-- R218. -/
abbrev LANT_CNT_TAG_FAIL : Nat := 0x47000098
/-- R218. -/
abbrev LANT_CNT_KEY : Nat := 0x4700009c
/-- R218. -/
abbrev LANT_CNT_LATE : Nat := 0x470000a0
/-- R218. -/
abbrev LANT_CNT_BADLEN : Nat := 0x470000a4
/-- R218. -/
abbrev LANT_CNT_FOREIGN : Nat := 0x470000a8
/-- R218. -/
abbrev LANT_CNT_BCN_OLD : Nat := 0x470000ac
/-- R218. -/
abbrev LANT_CNT_PART : Nat := 0x470000b0
/-- R218. -/
abbrev LANT_CNT_RESYNC : Nat := 0x470000b4
/-- R218. -/
abbrev LANT_CNT_DL_DONE : Nat := 0x470000b8
/-- R218. -/
abbrev LANT_CNT_WAIT : Nat := 0x470000bc
/-- R218. -/
abbrev LANT_CNT_FENCED : Nat := 0x470000c0
/-- R218. -/
abbrev LANT_CNT_EVT_DROP : Nat := 0x470000c4
/-- R218. -/
abbrev LANT_RUN (k : Nat) : Nat := 0x47000400 + 0x40 * k
/-- R218. -/
abbrev LANT_STATUS (k : Nat) : Nat := 0x47000404 + 0x40 * k
/-- R219. -/
abbrev NBR_CTL : Nat := 0x47010000
/-- R218. -/
abbrev NBR_STORE_LO : Nat := 0x47010008
/-- R218. -/
abbrev NBR_STORE_HI : Nat := 0x4701000c
/-- R218. -/
abbrev NBR_DIR_LO : Nat := 0x47010010
/-- R218. -/
abbrev NBR_DIR_HI : Nat := 0x47010014
/-- R218. -/
abbrev NBR_MSG_LO : Nat := 0x47010018
/-- R218. -/
abbrev NBR_MSG_HI : Nat := 0x4701001c
/-- R218. -/
abbrev NBR_CMD : Nat := 0x47010020
/-- R218. -/
abbrev NBR_ARG : Nat := 0x47010024
/-- R218. -/
abbrev NBR_RES : Nat := 0x47010028
/-- R218. -/
abbrev NBR_PROG : Nat := 0x4701002c
/-- R218. -/
abbrev NBR_OCC_ACT : Nat := 0x47010030
/-- R218. -/
abbrev NBR_OCC_RET : Nat := 0x47010034
/-- R218. -/
abbrev NBR_BUF (w : Nat) : Nat := 0x47010100 + 0x4 * w
/-- R341. -/
abbrev CIPH_CTL : Nat := 0x48000000
/-- R341. -/
abbrev CIPH_STATUS : Nat := 0x48000004
/-- R340. -/
abbrev CIPH_SUBMIT : Nat := 0x48000008
/-- R340. -/
abbrev CIPH_ABORT : Nat := 0x4800000c
/-- R340. -/
abbrev CIPH_ABORT_RES : Nat := 0x48000010
/-- R340. -/
abbrev CIPH_LANES : Nat := 0x48000014
/-- R340. -/
abbrev CIPH_KREC_LO : Nat := 0x48000020
/-- R340. -/
abbrev CIPH_KREC_HI : Nat := 0x48000024
/-- R340. -/
abbrev CIPH_KCMD : Nat := 0x48000030
/-- R340. -/
abbrev CIPH_KARG : Nat := 0x48000034
/-- R340. -/
abbrev CIPH_KRES : Nat := 0x48000038
/-- R340. -/
abbrev CIPH_KPROG : Nat := 0x4800003c
/-- R340. -/
abbrev CIPH_KADDR_LO : Nat := 0x48000040
/-- R340. -/
abbrev CIPH_KADDR_HI : Nat := 0x48000044
/-- R340. -/
abbrev CIPH_KINFO0 : Nat := 0x48000048
/-- R340. -/
abbrev CIPH_KINFO1 : Nat := 0x4800004c
/-- R340. -/
abbrev CIPH_KBUF (w : Nat) : Nat := 0x48000060 + 0x4 * w
/-- R340. -/
abbrev CIPH_CNT_JOBS : Nat := 0x48000080
/-- R340. -/
abbrev CIPH_CNT_TAG_FAIL : Nat := 0x48000084
/-- R340. -/
abbrev CIPH_CNT_KEY_SPENT : Nat := 0x48000088
/-- R340. -/
abbrev CIPH_CNT_KEY_GONE : Nat := 0x4800008c
/-- R340. -/
abbrev CIPH_CNT_GRACE : Nat := 0x48000090
/-- R340. -/
abbrev CIPH_CNT_MISS : Nat := 0x48000094
/-- R340. -/
abbrev CIPH_CNT_UNWRAP_FAIL : Nat := 0x48000098
/-- R340. -/
abbrev CIPH_CNT_BADJOB : Nat := 0x4800009c
/-- R343. -/
abbrev SEC_TAMPER_STATUS : Nat := 0x48008000
/-- R343. -/
abbrev SEC_TAMPER_CTL : Nat := 0x48008004
/-- R342. -/
abbrev SEC_CMD : Nat := 0x48008008
/-- R342. -/
abbrev SEC_RES : Nat := 0x4800800c
/-- R342. -/
abbrev SEC_ADDR_LO : Nat := 0x48008010
/-- R342. -/
abbrev SEC_ADDR_HI : Nat := 0x48008014
/-- R342. -/
abbrev SEC_PROG : Nat := 0x48008018
/-- R342. -/
abbrev SEC_RNG : Nat := 0x4800801c
/-- R394. -/
abbrev EMAC_CTL (p : Nat) : Nat := 0x4b000000 + 0x10000 * p
/-- R394. -/
abbrev EMAC_STATUS (p : Nat) : Nat := 0x4b000004 + 0x10000 * p
/-- R393. -/
abbrev EMAC_SERDES (p : Nat) : Nat := 0x4b000008 + 0x10000 * p
/-- R393. -/
abbrev EMAC_FILT (p : Nat) : Nat := 0x4b000010 + 0x10000 * p
/-- R393. -/
abbrev EMAC_HASH_LO (p : Nat) : Nat := 0x4b000014 + 0x10000 * p
/-- R393. -/
abbrev EMAC_HASH_HI (p : Nat) : Nat := 0x4b000018 + 0x10000 * p
/-- R393. -/
abbrev EMAC_MAC_LO (p k : Nat) : Nat := 0x4b000020 + 0x10000 * p + 0x8 * k
/-- R393. -/
abbrev EMAC_MAC_HI (p k : Nat) : Nat := 0x4b000024 + 0x10000 * p + 0x8 * k
/-- R393. -/
abbrev EMAC_PAUSE_CTL (p : Nat) : Nat := 0x4b000040 + 0x10000 * p
/-- R393. -/
abbrev EMAC_PAUSE_STATUS (p : Nat) : Nat := 0x4b000044 + 0x10000 * p
/-- R393. -/
abbrev EMAC_VLAN (p : Nat) : Nat := 0x4b000048 + 0x10000 * p
/-- R393. -/
abbrev EMAC_PCP_MAP (p : Nat) : Nat := 0x4b00004c + 0x10000 * p
/-- R393. -/
abbrev EMAC_STAT_HALF (p : Nat) : Nat := 0x4b000050 + 0x10000 * p
/-- R393. -/
abbrev EMAC_STAT_IEN (p : Nat) : Nat := 0x4b000054 + 0x10000 * p
/-- R393. -/
abbrev EMAC_PAUSE_SEND (p : Nat) : Nat := 0x4b000058 + 0x10000 * p
/-- R393. -/
abbrev EMAC_CNT (p i : Nat) : Nat := 0x4b000100 + 0x10000 * p + 0x4 * i
/-- R393. -/
abbrev EMAC_RX_BASE_LO (p r : Nat) : Nat := 0x4b000200 + 0x10000 * p + 0x10 * r
/-- R393. -/
abbrev EMAC_RX_BASE_HI (p r : Nat) : Nat := 0x4b000204 + 0x10000 * p + 0x10 * r
/-- R393. -/
abbrev EMAC_RX_CFG (p r : Nat) : Nat := 0x4b000208 + 0x10000 * p + 0x10 * r
/-- R393. -/
abbrev EMAC_RX_IDX (p r : Nat) : Nat := 0x4b00020c + 0x10000 * p + 0x10 * r
/-- R393. -/
abbrev EMAC_TX_BASE_LO (p q : Nat) : Nat := 0x4b000300 + 0x10000 * p + 0x10 * q
/-- R393. -/
abbrev EMAC_TX_BASE_HI (p q : Nat) : Nat := 0x4b000304 + 0x10000 * p + 0x10 * q
/-- R393. -/
abbrev EMAC_TX_CFG (p q : Nat) : Nat := 0x4b000308 + 0x10000 * p + 0x10 * q
/-- R393. -/
abbrev EMAC_TX_IDX (p q : Nat) : Nat := 0x4b00030c + 0x10000 * p + 0x10 * q
/-- R393. -/
abbrev EMAC_MDIO : Nat := 0x4b008000
/-- R393. -/
abbrev EMAC_MDIO_RES : Nat := 0x4b008004
/-- R393. -/
abbrev EMAC_WAKE_STATUS : Nat := 0x4b008100
/-- R393. -/
abbrev EMAC_WAKE_CTL (f : Nat) : Nat := 0x4b008200 + 0x40 * f
/-- R393. -/
abbrev EMAC_WAKE_MASK (f : Nat) : Nat := 0x4b008204 + 0x40 * f
/-- R393. -/
abbrev EMAC_WAKE_PAT (f w : Nat) : Nat := 0x4b008208 + 0x40 * f + 0x4 * w
/-- R395. -/
abbrev FWD_CTL : Nat := 0x4b080000
/-- R395. -/
abbrev FWD_CMD : Nat := 0x4b080004
/-- R395. -/
abbrev FWD_RES : Nat := 0x4b080008
/-- R395. -/
abbrev FWD_OCC : Nat := 0x4b08000c
/-- R395. -/
abbrev FWD_LOCAL_EN : Nat := 0x4b080010
/-- R395. -/
abbrev FWD_BUF (w : Nat) : Nat := 0x4b080040 + 0x4 * w
/-- R395. -/
abbrev FWD_ENC_CTL : Nat := 0x4b080100
/-- R395. -/
abbrev FWD_ENC_LIM : Nat := 0x4b080104
/-- R395. -/
abbrev FWD_ENC_PORTS : Nat := 0x4b080108
/-- R395. -/
abbrev FWD_ENC_DST (w : Nat) : Nat := 0x4b080110 + 0x4 * w
/-- R395. -/
abbrev FWD_ENC_BSEQ : Nat := 0x4b080120
/-- R395. -/
abbrev FWD_PUNT_BASE_LO : Nat := 0x4b080140
/-- R395. -/
abbrev FWD_PUNT_BASE_HI : Nat := 0x4b080144
/-- R395. -/
abbrev FWD_PUNT_CFG : Nat := 0x4b080148
/-- R395. -/
abbrev FWD_PUNT_IDX : Nat := 0x4b08014c
/-- R395. -/
abbrev FWD_CNT_TRANSIT : Nat := 0x4b080200
/-- R395. -/
abbrev FWD_CNT_REC : Nat := 0x4b080204
/-- R395. -/
abbrev FWD_CNT_DGRAM : Nat := 0x4b080208
/-- R395. -/
abbrev FWD_CNT_PUNT (r : Nat) : Nat := 0x4b08020c + 0x4 * r
/-- R395. -/
abbrev FWD_CNT_BLACKHOLE : Nat := 0x4b080228
/-- R395. -/
abbrev FWD_CNT_VLAN_DROP : Nat := 0x4b08022c
/-- R395. -/
abbrev FWD_CNT_PUNT_DROP : Nat := 0x4b080230
/-- R395. -/
abbrev FWD_LOCAL (k w : Nat) : Nat := 0x4b080400 + 0x10 * k + 0x4 * w
/-- R395. -/
abbrev FWD_VLAN (v : Nat) : Nat := 0x4b084000 + 0x4 * v
/-- R409. -/
abbrev TMGR_CTL : Nat := 0x4c000000
/-- R409. -/
abbrev TMGR_STATUS : Nat := 0x4c000004
/-- R409. -/
abbrev TMGR_SLOT : Nat := 0x4c000008
/-- R409. -/
abbrev TMGR_CNT_WHEEL_LATE : Nat := 0x4c00000c
/-- R410. -/
abbrev TMGR_Q_CFG (i : Nat) : Nat := 0x4c000100 + 0x10 * i
/-- R409. -/
abbrev TMGR_Q_OCC (i : Nat) : Nat := 0x4c000104 + 0x10 * i
/-- R409. -/
abbrev TMGR_Q_CNT_TX (i : Nat) : Nat := 0x4c000108 + 0x10 * i
/-- R409. -/
abbrev TMGR_Q_CNT_DROP (i : Nat) : Nat := 0x4c00010c + 0x10 * i
/-- R410. -/
abbrev TMGR_VCLS (v : Nat) : Nat := 0x4c010000 + 0x4 * v
/-- R409. -/
abbrev TMGR_FLOW_RATE (f : Nat) : Nat := 0x4c020000 + 0x20 * f
/-- R409. -/
abbrev TMGR_FLOW_BURST (f : Nat) : Nat := 0x4c020004 + 0x20 * f
/-- R409. -/
abbrev TMGR_FLOW_TOKENS (f : Nat) : Nat := 0x4c020008 + 0x20 * f
/-- R409. -/
abbrev TMGR_FLOW_NEXT (f : Nat) : Nat := 0x4c02000c + 0x20 * f
/-- R409. -/
abbrev TMGR_FLOW_WAIT (f : Nat) : Nat := 0x4c020010 + 0x20 * f
/-- R409. -/
abbrev TMGR_POL_RATE (k : Nat) : Nat := 0x4c030000 + 0x10 * k
/-- R409. -/
abbrev TMGR_POL_CBS (k : Nat) : Nat := 0x4c030004 + 0x10 * k
/-- R409. -/
abbrev TMGR_POL_TOKENS (k : Nat) : Nat := 0x4c030008 + 0x10 * k
/-- R409. -/
abbrev TMGR_POL_DROP (k : Nat) : Nat := 0x4c03000c + 0x10 * k
/-- R410. -/
abbrev TMGR_GCL_CTL (p : Nat) : Nat := 0x4c040000 + 0x2000 * p
/-- R409. -/
abbrev TMGR_ADMIN_CYCLE (p : Nat) : Nat := 0x4c040004 + 0x2000 * p
/-- R409. -/
abbrev TMGR_ADMIN_BASE_NS (p : Nat) : Nat := 0x4c040008 + 0x2000 * p
/-- R409. -/
abbrev TMGR_ADMIN_BASE_SEC_LO (p : Nat) : Nat := 0x4c04000c + 0x2000 * p
/-- R409. -/
abbrev TMGR_ADMIN_BASE_SEC_HI (p : Nat) : Nat := 0x4c040010 + 0x2000 * p
/-- R409. -/
abbrev TMGR_GCL_CMD (p : Nat) : Nat := 0x4c040014 + 0x2000 * p
/-- R409. -/
abbrev TMGR_GCL_RES (p : Nat) : Nat := 0x4c040018 + 0x2000 * p
/-- R410. -/
abbrev TMGR_GCL_STATUS (p : Nat) : Nat := 0x4c04001c + 0x2000 * p
/-- R409. -/
abbrev TMGR_OPER_CYCLE (p : Nat) : Nat := 0x4c040020 + 0x2000 * p
/-- R409. -/
abbrev TMGR_CNT_OVERSIZE (p : Nat) : Nat := 0x4c040030 + 0x2000 * p
/-- R409. -/
abbrev TMGR_CNT_HELD (p : Nat) : Nat := 0x4c040034 + 0x2000 * p
/-- R409. -/
abbrev TMGR_MAXOPEN (p q : Nat) : Nat := 0x4c040040 + 0x2000 * p + 0x4 * q
/-- R409. -/
abbrev TMGR_GCL_GATES (p b e : Nat) : Nat := 0x4c041000 + 0x2000 * p + 0x800 * b + 0x8 * e
/-- R409. -/
abbrev TMGR_GCL_INTERVAL (p b e : Nat) : Nat := 0x4c041004 + 0x2000 * p + 0x800 * b + 0x8 * e

/-- Register families of the window 0x4000_0000, part 1. -/
def regs40_0 : List RegFam :=
  [⟨"SYS_IDENT", 0x40000000, [], 0xd7070100, 0, 0, 0⟩,
   ⟨"SYS_RESET_CAUSE", 0x40000004, [], 0x1, 0, 0xff, 0⟩,
   ⟨"SYS_RESET_CTRL", 0x40000008, [], 0, 0, 0, 0⟩,
   ⟨"SYS_SUPPLY", 0x4000000c, [], 0, 0, 0xe, 0⟩,
   ⟨"SYS_THERMAL", 0x40000010, [], 0x78000000, 0xff000000, 0, 0⟩,
   ⟨"SYS_CLOCK", 0x40000014, [], 0, 0, 0x80, 0⟩,
   ⟨"SYS_BOOT_STATUS", 0x40000020, [], 0, 0, 0, 0⟩,
   ⟨"SYS_SVN", 0x40000024, [], 0, 0, 0, 0⟩,
   ⟨"SYS_SVN_BURN", 0x40000028, [], 0, 0, 0, 0⟩,
   ⟨"SYS_BUSERR_LO", 0x40000030, [], 0, 0, 0, 0⟩,
   ⟨"SYS_BUSERR_HI", 0x40000034, [], 0, 0, 0x80000000, 0⟩,
   ⟨"SYS_BOOT_MEAS", 0x40000040, [(0x4, 8)], 0, 0, 0, 0⟩,
   ⟨"SYS_UNIT_CMD", 0x40000100, [], 0, 0, 0, 0⟩,
   ⟨"SYS_UNIT_ARG", 0x40000104, [], 0, 0xffff0001, 0, 0⟩,
   ⟨"SYS_UNIT_RES", 0x40000108, [], 0, 0, 0, 0⟩,
   ⟨"SYS_UNIT_DIV_LO", 0x40000110, [], 0, 0, 0xffffffff, 0⟩,
   ⟨"SYS_UNIT_DIV_HI", 0x40000114, [], 0, 0, 0xffffffff, 0⟩,
   ⟨"SYS_UNIT_MGMT", 0x40000200, [(0x8, 64)], 0, 0, 0, 0⟩,
   ⟨"SYS_UNIT_DP", 0x40000204, [(0x8, 64)], 0, 0, 0, 0⟩,
   ⟨"SYS_SSCRUB_CTL", 0x40000400, [], 0x80000040, 0x80000fff, 0, 0⟩,
   ⟨"SYS_CNT_SSCRUB_PASS", 0x40000408, [], 0, 0, 0, 0xffffffff⟩,
   ⟨"SYS_CNT_SSCRUB_CE", 0x4000040c, [], 0, 0, 0, 0xffffffff⟩,
   ⟨"SYS_CNT_SSCRUB_UE", 0x40000410, [], 0, 0, 0, 0xffffffff⟩,
   ⟨"SYS_BG_CAL", 0x40000420, [], 0x14, 0xff, 0, 0⟩,
   ⟨"SYS_BG_CAL_STEPS", 0x40000424, [(0x8, 3)], 0, 0, 0, 0xffffffff⟩,
   ⟨"SYS_BG_CAL_LATE", 0x40000428, [(0x8, 3)], 0, 0, 0, 0xffffffff⟩,
   ⟨"SYS_TELEM_CTL", 0x40000440, [], 0x3e8, 0x800003ff, 0, 0⟩,
   ⟨"SYS_TELEM_LO", 0x40000444, [], 0, 0xffff0000, 0, 0⟩,
   ⟨"SYS_TELEM_HI", 0x40000448, [], 0, 0xf, 0, 0⟩,
   ⟨"SYS_TELEM_IDX", 0x4000044c, [], 0, 0x3ff, 0, 0⟩,
   ⟨"SYS_CNT_TELEM_DROP", 0x40000450, [], 0, 0, 0, 0xffffffff⟩,
   ⟨"SYS_NOR_CTL", 0x40000480, [], 0x4, 0xff, 0, 0⟩,
   ⟨"SYS_NOR_WEAR", 0x4000048c, [], 0, 0, 0, 0⟩,
   ⟨"SYS_CNT_NOR_ERASE", 0x40000490, [], 0, 0, 0, 0xffffffff⟩,
   ⟨"SYS_CAL_STATUS", 0x400004a0, [], 0, 0, 0, 0⟩,
   ⟨"ACLINT_MSIP", 0x40300000, [(0x4, 4)], 0, 0x1, 0, 0⟩,
   ⟨"ACLINT_MTIMECMP_LO", 0x40304000, [(0x8, 4)], 0, 0xffffffff, 0, 0⟩,
   ⟨"ACLINT_MTIMECMP_HI", 0x40304004, [(0x8, 4)], 0, 0xffffffff, 0, 0⟩,
   ⟨"ACLINT_MTIME_LO", 0x4030bff8, [], 0, 0, 0, 0⟩,
   ⟨"ACLINT_MTIME_HI", 0x4030bffc, [], 0, 0, 0, 0⟩]

/-- Register families of the window 0x4000_0000, part 2. -/
def regs40_1 : List RegFam :=
  [⟨"PLIC_PRIORITY", 0x40400000, [(0x4, 256)], 0, 0x7, 0, 0⟩,
   ⟨"PLIC_PENDING", 0x40401000, [(0x4, 8)], 0, 0, 0, 0⟩,
   ⟨"PLIC_ENABLE", 0x40402000, [(0x80, 8), (0x4, 8)], 0, 0xffffffff, 0, 0⟩,
   ⟨"PLIC_THRESHOLD", 0x40600000, [(0x1000, 8)], 0, 0x7, 0, 0⟩,
   ⟨"PLIC_CLAIM", 0x40600004, [(0x1000, 8)], 0, 0, 0, 0⟩]

/-- Register families of the window 0x4100_0000, part 1. -/
def regs41_0 : List RegFam :=
  [⟨"PWR_CMD", 0x41000000, [], 0, 0, 0, 0⟩,
   ⟨"PWR_RES", 0x41000004, [], 0, 0, 0, 0⟩,
   ⟨"PWR_STATUS", 0x41000008, [], 0, 0, 0x18, 0⟩,
   ⟨"PWR_DOM_ON", 0x4100000c, [], 0xffffff, 0, 0, 0⟩,
   ⟨"PWR_WAKE_EN", 0x41000010, [], 0x400, 0x1ffbff, 0, 0⟩,
   ⟨"PWR_WAKE_CAUSE", 0x41000014, [], 0, 0, 0x7fd, 0⟩,
   ⟨"PWR_RET_MASK", 0x41000018, [], 0xffff, 0xffff, 0, 0⟩,
   ⟨"PWR_BANK_LOST", 0x4100001c, [], 0, 0, 0xffff, 0⟩,
   ⟨"PWR_RESUME", 0x41000020, [], 0x8000000, 0xfffffffc, 0, 0⟩,
   ⟨"PWR_REFUSE", 0x41000024, [], 0, 0, 0, 0⟩,
   ⟨"PWR_ACK_TIMEOUT", 0x41000028, [], 0x1f4, 0xffff, 0, 0⟩,
   ⟨"PWR_CNT_EMBER", 0x41000030, [], 0, 0, 0, 0xffffffff⟩,
   ⟨"PWR_CNT_REFUSED", 0x41000034, [], 0, 0, 0, 0xffffffff⟩,
   ⟨"PWR_DOM_STATUS", 0x41000100, [(0x4, 24)], 0, 0, 0x4, 0xff000000⟩,
   ⟨"PWR_BANK_SIG", 0x41000200, [(0x4, 16)], 0, 0, 0, 0⟩]

/-- Register families of the window 0x4200_0000, part 1. -/
def regs42_0 : List RegFam :=
  [⟨"NTIM_RAW_LO", 0x42000000, [], 0, 0, 0, 0⟩,
   ⟨"NTIM_RAW_HI", 0x42000004, [], 0, 0, 0, 0⟩,
   ⟨"NTIM_NOW_NS", 0x42000008, [], 0, 0, 0, 0⟩,
   ⟨"NTIM_NOW_SEC_LO", 0x4200000c, [], 0, 0, 0, 0⟩,
   ⟨"NTIM_NOW_SEC_HI", 0x42000010, [], 0, 0, 0, 0⟩,
   ⟨"NTIM_RATE", 0x42000014, [], 0, 0xffffffff, 0, 0⟩,
   ⟨"NTIM_ARG_NS", 0x42000018, [], 0, 0xffffffff, 0, 0⟩,
   ⟨"NTIM_ARG_SEC_LO", 0x4200001c, [], 0, 0xffffffff, 0, 0⟩,
   ⟨"NTIM_ARG_SEC_HI", 0x42000020, [], 0, 0xffff, 0, 0⟩,
   ⟨"NTIM_CMD", 0x42000024, [], 0, 0, 0, 0⟩,
   ⟨"NTIM_SLEW_CTL", 0x42000028, [], 0x64, 0x3ff, 0, 0⟩,
   ⟨"NTIM_SLEW_LEFT", 0x4200002c, [], 0, 0, 0, 0⟩,
   ⟨"NTIM_STATUS", 0x42000030, [], 0, 0, 0xe0, 0⟩,
   ⟨"NTIM_SRC_CTL", 0x42000034, [], 0, 0x103, 0, 0⟩,
   ⟨"NTIM_BCN_CTL", 0x42000040, [], 0x43264, 0x3fffffff, 0, 0⟩,
   ⟨"NTIM_BCN_PERIOD", 0x42000044, [], 0xf4240, 0xffffffff, 0, 0⟩,
   ⟨"NTIM_BCN_PATH", 0x42000048, [], 0, 0xfffff, 0, 0⟩,
   ⟨"NTIM_BCN_STATUS", 0x4200004c, [], 0, 0, 0, 0xffffff00⟩,
   ⟨"NTIM_GUARD_CTL", 0x42000050, [], 0x23e8014, 0xffffffff, 0, 0⟩,
   ⟨"NTIM_GUARD", 0x42000054, [], 0x4e20, 0, 0, 0⟩,
   ⟨"NTIM_PPS_START_NS", 0x42000100, [(0x20, 4)], 0, 0xffffffff, 0, 0⟩,
   ⟨"NTIM_PPS_START_SEC_LO", 0x42000104, [(0x20, 4)], 0, 0xffffffff, 0, 0⟩,
   ⟨"NTIM_PPS_START_SEC_HI", 0x42000108, [(0x20, 4)], 0, 0xffff, 0, 0⟩,
   ⟨"NTIM_PPS_PERIOD", 0x4200010c, [(0x20, 4)], 0x3b9aca00, 0xffffffff, 0, 0⟩,
   ⟨"NTIM_PPS_WIDTH", 0x42000110, [(0x20, 4)], 0x5f5e100, 0xffffffff, 0, 0⟩,
   ⟨"NTIM_PPS_CTL", 0x42000114, [(0x20, 4)], 0, 0x2, 0, 0⟩,
   ⟨"NTIM_PPS_STATUS", 0x42000118, [(0x20, 4)], 0, 0, 0x6, 0⟩,
   ⟨"TMR_LT_LO", 0x42001000, [], 0, 0, 0, 0⟩,
   ⟨"TMR_LT_HI", 0x42001004, [], 0, 0, 0, 0⟩,
   ⟨"TMR_CH_CTL", 0x42001100, [(0x20, 32)], 0, 0x1ffe1f33, 0, 0⟩,
   ⟨"TMR_CH_CMP", 0x42001104, [(0x20, 32)], 0, 0xffffffff, 0, 0⟩,
   ⟨"TMR_CH_PERIOD", 0x42001108, [(0x20, 32)], 0, 0xffffffff, 0, 0⟩,
   ⟨"TMR_CH_CAP_LO", 0x4200110c, [(0x20, 32)], 0, 0, 0, 0⟩,
   ⟨"TMR_CH_CAP_HI", 0x42001110, [(0x20, 32)], 0, 0, 0, 0⟩,
   ⟨"TMR_CH_STATUS", 0x42001114, [(0x20, 32)], 0, 0, 0x7, 0⟩]

/-- Register families of the window 0x4300_0000, part 1. -/
def regs43_0 : List RegFam :=
  [⟨"LAMP_STATE_CTL", 0x43000000, [(0x100000, 3)], 0x100, 0x103, 0, 0⟩,
   ⟨"LAMP_STATUS", 0x43000004, [(0x100000, 3)], 0, 0, 0xc000, 0⟩,
   ⟨"LAMP_TUNE", 0x43000008, [(0x100000, 3)], 0, 0x3fffff, 0, 0⟩,
   ⟨"LAMP_RX_GAIN", 0x4300000c, [(0x100000, 3)], 0x14, 0x1f, 0, 0⟩,
   ⟨"LAMP_TXPWR", 0x43000010, [(0x100000, 3)], 0, 0x3f, 0, 0⟩,
   ⟨"LAMP_EXT_MAP", 0x43000014, [(0x100000, 3)], 0, 0xfff, 0, 0⟩,
   ⟨"LAMP_EXT_DLY", 0x43000018, [(0x100000, 3)], 0, 0x3fffffff, 0, 0⟩,
   ⟨"LAMP_CAL_CTL", 0x43000020, [(0x100000, 3)], 0x100, 0x100, 0, 0⟩,
   ⟨"LAMP_CAL_STATUS", 0x43000024, [(0x100000, 3)], 0, 0, 0x1000000, 0⟩,
   ⟨"LAMP_TEMP", 0x43000028, [(0x100000, 3)], 0, 0, 0, 0⟩,
   ⟨"LAMP_TX_ONTIME", 0x4300002c, [(0x100000, 3)], 0, 0, 0, 0xffffffff⟩,
   ⟨"LAMP_CNT_DEADLINE", 0x43000030, [(0x100000, 3)], 0, 0, 0, 0xffffffff⟩,
   ⟨"LAMP_CNT_LBT_BUSY", 0x43000034, [(0x100000, 3)], 0, 0, 0, 0xffffffff⟩,
   ⟨"LAMP_CNT_ACK_DROP", 0x43000038, [(0x100000, 3)], 0, 0, 0, 0xffffffff⟩,
   ⟨"LAMP_CNT_TX_ABORT", 0x4300003c, [(0x100000, 3)], 0, 0, 0, 0xffffffff⟩,
   ⟨"LAMP_PAIR_CTL", 0x43100080, [], 0, 0x113, 0, 0⟩,
   ⟨"LAMP_PAIR_STATUS", 0x43100084, [], 0, 0, 0x6, 0⟩,
   ⟨"LAMP_PROF_A", 0x43000100, [(0x100000, 3), (0x8, 8)], 0xb00005, 0xc0ffffff, 0, 0⟩,
   ⟨"LAMP_PROF_B", 0x43000104, [(0x100000, 3), (0x8, 8)], 0, 0xff0fffff, 0, 0⟩,
   ⟨"LAMP0_RSVD80", 0x43000080, [], 0, 0, 0, 0⟩,
   ⟨"LAMP0_RSVD84", 0x43000084, [], 0, 0, 0, 0⟩,
   ⟨"LAMP2_RSVD80", 0x43200080, [], 0, 0, 0, 0⟩,
   ⟨"LAMP2_RSVD84", 0x43200084, [], 0, 0, 0, 0⟩]

/-- Register families of the window 0x4400_0000, part 1. -/
def regs44_0 : List RegFam :=
  [⟨"LENS_CTL", 0x44000000, [(0x10000, 3)], 0x190000, 0xff0f01, 0, 0⟩,
   ⟨"LENS_RASTER_ORG", 0x44000004, [(0x10000, 3)], 0, 0xffffffff, 0, 0⟩,
   ⟨"LENS_HOLD", 0x44000008, [(0x10000, 3)], 0x1f4, 0x1fff, 0, 0⟩,
   ⟨"LENS_LIMITS", 0x4400000c, [(0x10000, 3)], 0xa040, 0xffff, 0, 0⟩,
   ⟨"LENS_CAP", 0x44000010, [(0x10000, 3)], 0x4000c00, 0, 0, 0⟩,
   ⟨"LENS_USAGE", 0x44000014, [(0x10000, 3)], 0, 0, 0, 0⟩,
   ⟨"LENS_PEND", 0x44000018, [(0x10000, 3)], 0, 0, 0, 0⟩,
   ⟨"LENS_SRCH", 0x44000020, [(0x10000, 3), (0x4, 8)], 0x84189999, 0x8fffffff, 0, 0⟩,
   ⟨"LENS_RING_LO", 0x44000040, [(0x10000, 3)], 0, 0xfe000000, 0, 0⟩,
   ⟨"LENS_RING_HI", 0x44000044, [(0x10000, 3)], 0, 0xf, 0, 0⟩,
   ⟨"LENS_CNT_DECL", 0x44000080, [(0x10000, 3)], 0, 0, 0, 0xffffffff⟩,
   ⟨"LENS_CNT_SUPPRESSED", 0x44000084, [(0x10000, 3)], 0, 0, 0, 0xffffffff⟩,
   ⟨"LENS_CNT_DROP_QFULL", 0x44000088, [(0x10000, 3)], 0, 0, 0, 0xffffffff⟩,
   ⟨"LENS_CNT_DROP_NOCTX", 0x4400008c, [(0x10000, 3)], 0, 0, 0, 0xffffffff⟩,
   ⟨"LENS_CNT_DROP_CHND", 0x44000090, [(0x10000, 3)], 0, 0, 0, 0xffffffff⟩,
   ⟨"LENS_CNT_SYNC_TO", 0x44000094, [(0x10000, 3)], 0, 0, 0, 0xffffffff⟩,
   ⟨"LENS_CNT_HDR_TO", 0x44000098, [(0x10000, 3)], 0, 0, 0, 0xffffffff⟩,
   ⟨"LENS_CNT_OVERRUN", 0x4400009c, [(0x10000, 3)], 0, 0, 0, 0xffffffff⟩,
   ⟨"LENS_CNT_MASK_FAIL", 0x440000a0, [(0x10000, 3)], 0, 0, 0, 0xffffffff⟩,
   ⟨"LENS_SHP5", 0x44000100, [(0x10000, 3), (0x4, 17)], 0, 0xffff, 0, 0⟩,
   ⟨"LENS_SHP3", 0x44000180, [(0x10000, 3), (0x4, 17)], 0, 0xffff, 0, 0⟩,
   ⟨"LENS_MASK_CTL", 0x44000200, [(0x10000, 3)], 0x10, 0x1ff, 0, 0⟩,
   ⟨"LENS_MASK", 0x44000210, [(0x10000, 3), (0x4, 8)], 0, 0xff7f00ff, 0, 0⟩,
   ⟨"LENS_CTX_CMD", 0x44030000, [], 0, 0, 0, 0⟩,
   ⟨"LENS_CTX_ARG", 0x44030004, [], 0, 0xffffffff, 0, 0⟩,
   ⟨"LENS_CTX_RES", 0x44030008, [], 0, 0, 0, 0⟩]

/-- Register families of the window 0x4500_0000, part 1. -/
def regs45_0 : List RegFam :=
  [⟨"WICK_CTL", 0x45000000, [(0x10000, 64)], 0, 0, 0, 0⟩,
   ⟨"WICK_STATUS", 0x45000004, [(0x10000, 64)], 0, 0, 0, 0⟩,
   ⟨"WICK_PC", 0x45000008, [(0x10000, 64)], 0, 0, 0, 0⟩,
   ⟨"WICK_FAULT_PC", 0x4500000c, [(0x10000, 64)], 0, 0, 0, 0⟩,
   ⟨"WICK_ENTRY", 0x45000010, [(0x10000, 64)], 0, 0, 0, 0⟩,
   ⟨"WICK_DMEM_ADDR", 0x45000020, [(0x10000, 64)], 0, 0x8000ffff, 0, 0⟩,
   ⟨"WICK_DMEM_DATA", 0x45000024, [(0x10000, 64)], 0, 0, 0, 0⟩,
   ⟨"WICK_IMEM_ADDR", 0x45000028, [(0x10000, 64)], 0, 0x80003fff, 0, 0⟩,
   ⟨"WICK_IMEM_DATA", 0x4500002c, [(0x10000, 64)], 0, 0, 0, 0⟩,
   ⟨"WICK_RRB", 0x45000030, [(0x10000, 64)], 0, 0, 0, 0⟩,
   ⟨"WICK_STALLS", 0x45000034, [(0x10000, 64)], 0, 0, 0, 0xffffffff⟩,
   ⟨"WICK_LOAD_CMD", 0x45400000, [], 0, 0, 0, 0⟩,
   ⟨"WICK_LOAD_SRC_LO", 0x45400004, [], 0, 0xffffffc0, 0, 0⟩,
   ⟨"WICK_LOAD_SRC_HI", 0x45400008, [], 0, 0xf, 0, 0⟩,
   ⟨"WICK_LOAD_MASK_LO", 0x4540000c, [], 0, 0xffffffff, 0, 0⟩,
   ⟨"WICK_LOAD_MASK_HI", 0x45400010, [], 0, 0xffffffff, 0, 0⟩,
   ⟨"WICK_LOAD_RES", 0x45400014, [], 0, 0, 0, 0⟩,
   ⟨"WICK_LOAD_PROG", 0x45400018, [], 0, 0, 0, 0⟩]

/-- Register families of the window 0x4600_0000, part 1. -/
def regs46_0 : List RegFam :=
  [⟨"MANT_CTL", 0x46000000, [], 0x2000, 0x3f01, 0, 0⟩,
   ⟨"MANT_LANES", 0x46000004, [], 0, 0, 0, 0⟩,
   ⟨"MANT_SUBMIT", 0x46000008, [], 0, 0, 0, 0⟩,
   ⟨"MANT_ABORT", 0x4600000c, [], 0, 0, 0, 0⟩,
   ⟨"MANT_ABORT_RES", 0x46000010, [], 0, 0, 0, 0⟩,
   ⟨"MANT_QLEVEL", 0x46000014, [], 0, 0, 0, 0⟩,
   ⟨"MANT_STORE_LO", 0x46000020, [], 0, 0xfc000000, 0, 0⟩,
   ⟨"MANT_STORE_HI", 0x46000024, [], 0, 0xf, 0, 0⟩,
   ⟨"MANT_PAIR_CTL", 0x46000028, [], 0x2004e20, 0x8f007fff, 0, 0⟩,
   ⟨"MANT_EXP_CTL", 0x4600002c, [], 0x1f400414, 0xfff00fff, 0, 0⟩,
   ⟨"MANT_EXP_PEER", 0x46000030, [(0x4, 4)], 0, 0x800003ff, 0, 0⟩,
   ⟨"MANT_IMP_RING_LO", 0x46000040, [], 0, 0xffe00000, 0, 0⟩,
   ⟨"MANT_IMP_RING_HI", 0x46000044, [], 0, 0xf, 0, 0⟩,
   ⟨"MANT_IMP_TASK", 0x46000048, [], 0, 0xfff, 0, 0⟩,
   ⟨"MANT_IMP_IDX", 0x4600004c, [], 0, 0x3f, 0, 0⟩,
   ⟨"MANT_CNT_HDR_OK", 0x46000080, [], 0, 0, 0, 0xffffffff⟩,
   ⟨"MANT_CNT_HDR_FAIL", 0x46000084, [], 0, 0, 0, 0xffffffff⟩,
   ⟨"MANT_CNT_HDR_VER", 0x46000088, [], 0, 0, 0, 0xffffffff⟩,
   ⟨"MANT_CNT_CW_OK", 0x4600008c, [], 0, 0, 0, 0xffffffff⟩,
   ⟨"MANT_CNT_CW_FAIL", 0x46000090, [], 0, 0, 0, 0xffffffff⟩,
   ⟨"MANT_CNT_PAIR_BOUND", 0x46000094, [], 0, 0, 0, 0xffffffff⟩,
   ⟨"MANT_CNT_PAIR_OK", 0x46000098, [], 0, 0, 0, 0xffffffff⟩,
   ⟨"MANT_CNT_PAIR_FAIL", 0x4600009c, [], 0, 0, 0, 0xffffffff⟩,
   ⟨"MANT_CNT_UNSTORED", 0x460000a0, [], 0, 0, 0, 0xffffffff⟩,
   ⟨"MANT_CNT_EXP_SENT", 0x460000a4, [], 0, 0, 0, 0xffffffff⟩,
   ⟨"MANT_CNT_EXP_LATE", 0x460000a8, [], 0, 0, 0, 0xffffffff⟩,
   ⟨"MANT_CNT_EXP_BIG", 0x460000ac, [], 0, 0, 0, 0xffffffff⟩,
   ⟨"MANT_CNT_IMP_OK", 0x460000b0, [], 0, 0, 0, 0xffffffff⟩,
   ⟨"MANT_CNT_IMP_FAIL", 0x460000b4, [], 0, 0, 0, 0xffffffff⟩,
   ⟨"MANT_CNT_IMP_DROP", 0x460000b8, [], 0, 0, 0, 0xffffffff⟩]

/-- Register families of the window 0x4700_0000, part 1. -/
def regs47_0 : List RegFam :=
  [⟨"LANT_CTL", 0x47000000, [], 0, 0xc77703ff, 0, 0⟩,
   ⟨"LANT_PART", 0x47000004, [], 0x3e8, 0xffff, 0, 0⟩,
   ⟨"LANT_PART_LO", 0x47000010, [(0x8, 3)], 0xffffffff, 0xffffffff, 0, 0⟩,
   ⟨"LANT_PART_HI", 0x47000014, [(0x8, 3)], 0xffffffff, 0xffffffff, 0, 0⟩,
   ⟨"LANT_BCN_CTL", 0x47000030, [], 0, 0xff0007ff, 0, 0⟩,
   ⟨"LANT_BCN_SEQ", 0x47000034, [], 0, 0, 0, 0⟩,
   ⟨"LANT_BCN_LAST", 0x47000038, [], 0, 0, 0, 0⟩,
   ⟨"LANT_EVT_LO", 0x47000040, [], 0, 0xffff0000, 0, 0⟩,
   ⟨"LANT_EVT_HI", 0x47000044, [], 0, 0xf, 0, 0⟩,
   ⟨"LANT_EVT_IDX", 0x47000048, [], 0, 0xfff, 0, 0⟩,
   ⟨"LANT_CNT_ACCEPT", 0x47000080, [], 0, 0, 0, 0xffffffff⟩,
   ⟨"LANT_CNT_DUP_ACK", 0x47000084, [], 0, 0, 0, 0xffffffff⟩,
   ⟨"LANT_CNT_DUP_DROP", 0x47000088, [], 0, 0, 0, 0xffffffff⟩,
   ⟨"LANT_CNT_STALE", 0x4700008c, [], 0, 0, 0, 0xffffffff⟩,
   ⟨"LANT_CNT_EPOCH", 0x47000090, [], 0, 0, 0, 0xffffffff⟩,
   ⟨"LANT_CNT_UNKNOWN", 0x47000094, [], 0, 0, 0, 0xffffffff⟩,
   ⟨"LANT_CNT_TAG_FAIL", 0x47000098, [], 0, 0, 0, 0xffffffff⟩,
   ⟨"LANT_CNT_KEY", 0x4700009c, [], 0, 0, 0, 0xffffffff⟩,
   ⟨"LANT_CNT_LATE", 0x470000a0, [], 0, 0, 0, 0xffffffff⟩,
   ⟨"LANT_CNT_BADLEN", 0x470000a4, [], 0, 0, 0, 0xffffffff⟩,
   ⟨"LANT_CNT_FOREIGN", 0x470000a8, [], 0, 0, 0, 0xffffffff⟩,
   ⟨"LANT_CNT_BCN_OLD", 0x470000ac, [], 0, 0, 0, 0xffffffff⟩,
   ⟨"LANT_CNT_PART", 0x470000b0, [], 0, 0, 0, 0xffffffff⟩,
   ⟨"LANT_CNT_RESYNC", 0x470000b4, [], 0, 0, 0, 0xffffffff⟩,
   ⟨"LANT_CNT_DL_DONE", 0x470000b8, [], 0, 0, 0, 0xffffffff⟩,
   ⟨"LANT_CNT_WAIT", 0x470000bc, [], 0, 0, 0, 0xffffffff⟩,
   ⟨"LANT_CNT_FENCED", 0x470000c0, [], 0, 0, 0, 0xffffffff⟩,
   ⟨"LANT_CNT_EVT_DROP", 0x470000c4, [], 0, 0, 0, 0xffffffff⟩,
   ⟨"LANT_RUN", 0x47000400, [(0x40, 6)], 0, 0, 0, 0⟩,
   ⟨"LANT_STATUS", 0x47000404, [(0x40, 6)], 0, 0, 0x100, 0⟩,
   ⟨"NBR_CTL", 0x47010000, [], 0x3320564, 0x8fffffff, 0, 0⟩,
   ⟨"NBR_STORE_LO", 0x47010008, [], 0, 0xff000000, 0, 0⟩,
   ⟨"NBR_STORE_HI", 0x4701000c, [], 0, 0xf, 0, 0⟩,
   ⟨"NBR_DIR_LO", 0x47010010, [], 0, 0xffc00000, 0, 0⟩,
   ⟨"NBR_DIR_HI", 0x47010014, [], 0, 0xf, 0, 0⟩,
   ⟨"NBR_MSG_LO", 0x47010018, [], 0, 0xff000000, 0, 0⟩,
   ⟨"NBR_MSG_HI", 0x4701001c, [], 0, 0xf, 0, 0⟩,
   ⟨"NBR_CMD", 0x47010020, [], 0, 0, 0, 0⟩,
   ⟨"NBR_ARG", 0x47010024, [], 0, 0xffffffff, 0, 0⟩,
   ⟨"NBR_RES", 0x47010028, [], 0, 0, 0, 0⟩]

/-- Register families of the window 0x4700_0000, part 2. -/
def regs47_1 : List RegFam :=
  [⟨"NBR_PROG", 0x4701002c, [], 0, 0, 0, 0⟩,
   ⟨"NBR_OCC_ACT", 0x47010030, [], 0, 0, 0, 0⟩,
   ⟨"NBR_OCC_RET", 0x47010034, [], 0, 0, 0, 0⟩,
   ⟨"NBR_BUF", 0x47010100, [(0x4, 16)], 0, 0xffffffff, 0, 0⟩]

/-- Register families of the window 0x4800_0000, part 1. -/
def regs48_0 : List RegFam :=
  [⟨"CIPH_CTL", 0x48000000, [], 0x4000000, 0x87ff0001, 0, 0⟩,
   ⟨"CIPH_STATUS", 0x48000004, [], 0, 0, 0x20000000, 0⟩,
   ⟨"CIPH_SUBMIT", 0x48000008, [], 0, 0, 0, 0⟩,
   ⟨"CIPH_ABORT", 0x4800000c, [], 0, 0, 0, 0⟩,
   ⟨"CIPH_ABORT_RES", 0x48000010, [], 0, 0, 0, 0⟩,
   ⟨"CIPH_LANES", 0x48000014, [], 0xf, 0, 0, 0⟩,
   ⟨"CIPH_KREC_LO", 0x48000020, [], 0, 0xfe000000, 0, 0⟩,
   ⟨"CIPH_KREC_HI", 0x48000024, [], 0, 0xf, 0, 0⟩,
   ⟨"CIPH_KCMD", 0x48000030, [], 0, 0, 0, 0⟩,
   ⟨"CIPH_KARG", 0x48000034, [], 0, 0xffffffff, 0, 0⟩,
   ⟨"CIPH_KRES", 0x48000038, [], 0, 0, 0, 0⟩,
   ⟨"CIPH_KPROG", 0x4800003c, [], 0, 0, 0, 0⟩,
   ⟨"CIPH_KADDR_LO", 0x48000040, [], 0, 0xffffffc0, 0, 0⟩,
   ⟨"CIPH_KADDR_HI", 0x48000044, [], 0, 0xf, 0, 0⟩,
   ⟨"CIPH_KINFO0", 0x48000048, [], 0, 0, 0, 0⟩,
   ⟨"CIPH_KINFO1", 0x4800004c, [], 0, 0, 0, 0⟩,
   ⟨"CIPH_KBUF", 0x48000060, [(0x4, 8)], 0, 0xffffffff, 0, 0⟩,
   ⟨"CIPH_CNT_JOBS", 0x48000080, [], 0, 0, 0, 0xffffffff⟩,
   ⟨"CIPH_CNT_TAG_FAIL", 0x48000084, [], 0, 0, 0, 0xffffffff⟩,
   ⟨"CIPH_CNT_KEY_SPENT", 0x48000088, [], 0, 0, 0, 0xffffffff⟩,
   ⟨"CIPH_CNT_KEY_GONE", 0x4800008c, [], 0, 0, 0, 0xffffffff⟩,
   ⟨"CIPH_CNT_GRACE", 0x48000090, [], 0, 0, 0, 0xffffffff⟩,
   ⟨"CIPH_CNT_MISS", 0x48000094, [], 0, 0, 0, 0xffffffff⟩,
   ⟨"CIPH_CNT_UNWRAP_FAIL", 0x48000098, [], 0, 0, 0, 0xffffffff⟩,
   ⟨"CIPH_CNT_BADJOB", 0x4800009c, [], 0, 0, 0, 0xffffffff⟩,
   ⟨"SEC_TAMPER_STATUS", 0x48008000, [], 0, 0, 0xfc, 0⟩,
   ⟨"SEC_TAMPER_CTL", 0x48008004, [], 0xfc, 0x1fc, 0, 0⟩,
   ⟨"SEC_CMD", 0x48008008, [], 0, 0, 0, 0⟩,
   ⟨"SEC_RES", 0x4800800c, [], 0, 0, 0, 0⟩,
   ⟨"SEC_ADDR_LO", 0x48008010, [], 0, 0xffffffc0, 0, 0⟩,
   ⟨"SEC_ADDR_HI", 0x48008014, [], 0, 0xf, 0, 0⟩,
   ⟨"SEC_PROG", 0x48008018, [], 0, 0, 0, 0⟩,
   ⟨"SEC_RNG", 0x4800801c, [], 0, 0, 0, 0⟩]

/-- Register families of the window 0x4900_0000, part 1. -/
def regs49_0 : List RegFam :=
  [⟨"CHND_CTL", 0x49000000, [], 0, 0x7, 0, 0⟩,
   ⟨"CHND_STATUS", 0x49000004, [], 0, 0, 0x80000000, 0⟩,
   ⟨"CHND_TICK", 0x49000008, [], 0, 0, 0, 0⟩,
   ⟨"CHND_CMD", 0x4900000c, [], 0, 0, 0, 0⟩,
   ⟨"CHND_ARG", 0x49000010, [], 0, 0xffffffff, 0, 0⟩,
   ⟨"CHND_RES", 0x49000014, [], 0, 0, 0, 0⟩,
   ⟨"CHND_FLAG_SET", 0x49000018, [], 0, 0, 0, 0⟩,
   ⟨"CHND_FLAGS_LO", 0x4900001c, [], 0, 0, 0, 0⟩,
   ⟨"CHND_FLAGS_HI", 0x49000020, [], 0, 0, 0, 0⟩,
   ⟨"CHND_CPL_BASE", 0x49000030, [], 0, 0xffffe000, 0, 0⟩,
   ⟨"CHND_CPL_IDX", 0x49000034, [], 0, 0x3ff, 0, 0⟩,
   ⟨"CHND_POOL_RANGE", 0x49000040, [(0x8, 3)], 0, 0x7ff0fff, 0, 0⟩,
   ⟨"CHND_POOL_TMPL", 0x49000044, [(0x8, 3)], 0x100000, 0xfff03fff, 0, 0⟩,
   ⟨"CHND_CNT_DISPATCH", 0x49000080, [], 0, 0, 0, 0xffffffff⟩,
   ⟨"CHND_CNT_PREEMPT", 0x49000084, [], 0, 0, 0, 0xffffffff⟩,
   ⟨"CHND_CNT_REFUSED", 0x49000088, [], 0, 0, 0, 0xffffffff⟩,
   ⟨"CHND_CNT_SAT", 0x4900008c, [], 0, 0, 0, 0xffffffff⟩,
   ⟨"CHND_CNT_DLY_LATE", 0x49000090, [], 0, 0, 0, 0xffffffff⟩,
   ⟨"CHND_CNT_CPL_DROP", 0x49000094, [], 0, 0, 0, 0xffffffff⟩,
   ⟨"CHND_CNT_ABORT", 0x49000098, [], 0, 0, 0, 0xffffffff⟩,
   ⟨"CHND_LIST_CFG", 0x49000100, [(0x4, 64)], 0xfffff000, 0xfffffff0, 0, 0⟩,
   ⟨"CHND_LIST_OCC", 0x49000200, [(0x4, 64)], 0, 0, 0, 0⟩,
   ⟨"CHND_GRP_CFG", 0x49000300, [(0x4, 16)], 0x1, 0xff, 0, 0⟩,
   ⟨"CHND_DESC", 0x49010000, [(0x20, 4096), (0x4, 8)], 0, 0, 0, 0⟩]

/-- Register families of the window 0x4A00_0000, part 1. -/
def regs4A_0 : List RegFam :=
  [⟨"DMC_CTL", 0x4a000000, [], 0x4, 0x6, 0, 0⟩,
   ⟨"DMC_STATUS", 0x4a000004, [], 0, 0, 0x40, 0⟩,
   ⟨"DMC_TRAIN_CMD", 0x4a000008, [], 0, 0, 0, 0⟩,
   ⟨"DMC_TRAIN_RES", 0x4a00000c, [], 0, 0, 0, 0⟩,
   ⟨"DMC_TRAIN_PROG", 0x4a000010, [], 0, 0, 0, 0⟩,
   ⟨"DMC_RANK_CTL", 0x4a000014, [], 0, 0x3, 0, 0⟩,
   ⟨"DMC_REFRESH", 0x4a000018, [], 0, 0, 0, 0⟩,
   ⟨"DMC_SCRUB_CTL", 0x4a000020, [], 0x80000002, 0x80000fff, 0, 0⟩,
   ⟨"DMC_SCRUB_POS", 0x4a000024, [], 0, 0, 0, 0⟩,
   ⟨"DMC_ECC_LOG", 0x4a000030, [], 0, 0, 0xa0000000, 0⟩,
   ⟨"DMC_ECC_ADDR_LO", 0x4a000034, [], 0, 0, 0, 0⟩,
   ⟨"DMC_ECC_ADDR_HI", 0x4a000038, [], 0, 0, 0, 0⟩,
   ⟨"DMC_PORT_CFG", 0x4a000040, [(0x8, 8)], 0, 0xc0ffffff, 0, 0⟩,
   ⟨"DMC_PORT_LATE", 0x4a000044, [(0x8, 8)], 0, 0, 0, 0xffffffff⟩,
   ⟨"DMC_CNT_CE", 0x4a000080, [], 0, 0, 0, 0xffffffff⟩,
   ⟨"DMC_CNT_UE", 0x4a000084, [], 0, 0, 0, 0xffffffff⟩,
   ⟨"DMC_CNT_RMW", 0x4a000088, [], 0, 0, 0, 0xffffffff⟩,
   ⟨"DMC_CNT_FWD", 0x4a00008c, [], 0, 0, 0, 0xffffffff⟩,
   ⟨"DMC_CNT_RAW_WAIT", 0x4a000090, [], 0, 0, 0, 0xffffffff⟩,
   ⟨"DMC_CNT_CA_ALERT", 0x4a000094, [], 0, 0, 0, 0xffffffff⟩,
   ⟨"DMC_CNT_REF_FORCED", 0x4a000098, [], 0, 0, 0, 0xffffffff⟩,
   ⟨"DMC_CNT_SCRUB_PASS", 0x4a00009c, [], 0, 0, 0, 0xffffffff⟩,
   ⟨"DMC_CNT_SCRUB_CE", 0x4a0000a0, [], 0, 0, 0, 0xffffffff⟩]

/-- Register families of the window 0x4B00_0000, part 1. -/
def regs4B_0 : List RegFam :=
  [⟨"CLU_CTL", 0x4b090000, [], 0, 0xf, 0, 0⟩,
   ⟨"CLU_PEER_ADDR", 0x4b090010, [(0x20, 4), (0x4, 4)], 0, 0xffffffff, 0, 0⟩,
   ⟨"CLU_PEER", 0x4b090020, [(0x20, 4)], 0, 0x1, 0, 0⟩,
   ⟨"CLU_IMPORT", 0x4b090100, [], 0, 0, 0, 0⟩,
   ⟨"CLU_CNT_IMP_BAD", 0x4b090104, [], 0, 0, 0, 0xffffffff⟩,
   ⟨"EMAC_CTL", 0x4b000000, [(0x10000, 5)], 0x5ee0142, 0x3fff03ff, 0, 0⟩,
   ⟨"EMAC_STATUS", 0x4b000004, [(0x10000, 5)], 0, 0, 0x2, 0⟩,
   ⟨"EMAC_SERDES", 0x4b000008, [(0x10000, 4)], 0x320, 0xc00003ff, 0, 0⟩,
   ⟨"EMAC_FILT", 0x4b000010, [(0x10000, 5)], 0x4, 0x7, 0, 0⟩,
   ⟨"EMAC_HASH_LO", 0x4b000014, [(0x10000, 5)], 0, 0xffffffff, 0, 0⟩,
   ⟨"EMAC_HASH_HI", 0x4b000018, [(0x10000, 5)], 0, 0xffffffff, 0, 0⟩,
   ⟨"EMAC_MAC_LO", 0x4b000020, [(0x10000, 5), (0x8, 4)], 0, 0xffffffff, 0, 0⟩,
   ⟨"EMAC_MAC_HI", 0x4b000024, [(0x10000, 5), (0x8, 4)], 0, 0x8000ffff, 0, 0⟩,
   ⟨"EMAC_PAUSE_CTL", 0x4b000040, [(0x10000, 5)], 0xffff3010, 0xffffffff, 0, 0⟩,
   ⟨"EMAC_PAUSE_STATUS", 0x4b000044, [(0x10000, 5)], 0, 0, 0, 0⟩,
   ⟨"EMAC_VLAN", 0x4b000048, [(0x10000, 5)], 0x1, 0x80000fff, 0, 0⟩,
   ⟨"EMAC_PCP_MAP", 0x4b00004c, [(0x10000, 5)], 0xfac688, 0xffffff, 0, 0⟩,
   ⟨"EMAC_STAT_HALF", 0x4b000050, [(0x10000, 5)], 0, 0, 0x1fffffff, 0⟩,
   ⟨"EMAC_STAT_IEN", 0x4b000054, [(0x10000, 5)], 0, 0x1fffffff, 0, 0⟩,
   ⟨"EMAC_PAUSE_SEND", 0x4b000058, [(0x10000, 5)], 0, 0, 0, 0⟩,
   ⟨"EMAC_CNT", 0x4b000100, [(0x10000, 5), (0x4, 29)], 0, 0, 0, 0⟩,
   ⟨"EMAC_RX_BASE_LO", 0x4b000200, [(0x10000, 5), (0x10, 3)], 0, 0xffffffe0, 0, 0⟩,
   ⟨"EMAC_RX_BASE_HI", 0x4b000204, [(0x10000, 5), (0x10, 3)], 0, 0xf, 0, 0⟩,
   ⟨"EMAC_RX_CFG", 0x4b000208, [(0x10000, 5), (0x10, 3)], 0x200004, 0x80ff000f, 0, 0⟩,
   ⟨"EMAC_RX_IDX", 0x4b00020c, [(0x10000, 5), (0x10, 3)], 0, 0xfff, 0, 0⟩,
   ⟨"EMAC_TX_BASE_LO", 0x4b000300, [(0x10000, 5), (0x10, 8)], 0, 0xffffffe0, 0, 0⟩,
   ⟨"EMAC_TX_BASE_HI", 0x4b000304, [(0x10000, 5), (0x10, 8)], 0, 0xf, 0, 0⟩,
   ⟨"EMAC_TX_CFG", 0x4b000308, [(0x10000, 5), (0x10, 8)], 0x4, 0x8000000f, 0, 0⟩,
   ⟨"EMAC_TX_IDX", 0x4b00030c, [(0x10000, 5), (0x10, 8)], 0, 0xfff, 0, 0⟩,
   ⟨"EMAC_MDIO", 0x4b008000, [], 0, 0x7fffffff, 0, 0⟩,
   ⟨"EMAC_MDIO_RES", 0x4b008004, [], 0, 0, 0, 0⟩,
   ⟨"EMAC_WAKE_STATUS", 0x4b008100, [], 0, 0, 0x3ffff, 0⟩,
   ⟨"EMAC_WAKE_CTL", 0x4b008200, [(0x40, 8)], 0, 0xe01f03ff, 0, 0⟩,
   ⟨"EMAC_WAKE_MASK", 0x4b008204, [(0x40, 8)], 0, 0xffffffff, 0, 0⟩,
   ⟨"EMAC_WAKE_PAT", 0x4b008208, [(0x40, 8), (0x4, 8)], 0, 0xffffffff, 0, 0⟩,
   ⟨"FWD_CTL", 0x4b080000, [], 0, 0xc000ffff, 0, 0⟩,
   ⟨"FWD_CMD", 0x4b080004, [], 0, 0, 0, 0⟩,
   ⟨"FWD_RES", 0x4b080008, [], 0, 0, 0, 0⟩,
   ⟨"FWD_OCC", 0x4b08000c, [], 0, 0, 0, 0⟩,
   ⟨"FWD_LOCAL_EN", 0x4b080010, [], 0, 0xffff, 0, 0⟩]

/-- Register families of the window 0x4B00_0000, part 2. -/
def regs4B_1 : List RegFam :=
  [⟨"FWD_BUF", 0x4b080040, [(0x4, 16)], 0, 0xffffffff, 0, 0⟩,
   ⟨"FWD_ENC_CTL", 0x4b080100, [], 0x400000, 0xffffff00, 0, 0⟩,
   ⟨"FWD_ENC_LIM", 0x4b080104, [], 0xfa005ac, 0xfffc3fff, 0, 0⟩,
   ⟨"FWD_ENC_PORTS", 0x4b080108, [], 0, 0xffffffff, 0, 0⟩,
   ⟨"FWD_ENC_DST", 0x4b080110, [(0x4, 4)], 0, 0xffffffff, 0, 0⟩,
   ⟨"FWD_ENC_BSEQ", 0x4b080120, [], 0, 0, 0, 0⟩,
   ⟨"FWD_PUNT_BASE_LO", 0x4b080140, [], 0, 0xffffffe0, 0, 0⟩,
   ⟨"FWD_PUNT_BASE_HI", 0x4b080144, [], 0, 0xf, 0, 0⟩,
   ⟨"FWD_PUNT_CFG", 0x4b080148, [], 0x200004, 0x80ff000f, 0, 0⟩,
   ⟨"FWD_PUNT_IDX", 0x4b08014c, [], 0, 0xfff, 0, 0⟩,
   ⟨"FWD_CNT_TRANSIT", 0x4b080200, [], 0, 0, 0, 0xffffffff⟩,
   ⟨"FWD_CNT_REC", 0x4b080204, [], 0, 0, 0, 0xffffffff⟩,
   ⟨"FWD_CNT_DGRAM", 0x4b080208, [], 0, 0, 0, 0xffffffff⟩,
   ⟨"FWD_CNT_PUNT", 0x4b08020c, [(0x4, 7)], 0, 0, 0, 0xffffffff⟩,
   ⟨"FWD_CNT_BLACKHOLE", 0x4b080228, [], 0, 0, 0, 0xffffffff⟩,
   ⟨"FWD_CNT_VLAN_DROP", 0x4b08022c, [], 0, 0, 0, 0xffffffff⟩,
   ⟨"FWD_CNT_PUNT_DROP", 0x4b080230, [], 0, 0, 0, 0xffffffff⟩,
   ⟨"FWD_LOCAL", 0x4b080400, [(0x10, 16), (0x4, 4)], 0, 0xffffffff, 0, 0⟩,
   ⟨"FWD_VLAN", 0x4b084000, [(0x4, 4095)], 0, 0x1f, 0, 0⟩]

/-- Register families of the window 0x4C00_0000, part 1. -/
def regs4C_0 : List RegFam :=
  [⟨"TMGR_CTL", 0x4c000000, [], 0, 0x3, 0, 0⟩,
   ⟨"TMGR_STATUS", 0x4c000004, [], 0x4000, 0, 0x80000000, 0⟩,
   ⟨"TMGR_SLOT", 0x4c000008, [], 0, 0, 0, 0⟩,
   ⟨"TMGR_CNT_WHEEL_LATE", 0x4c00000c, [], 0, 0, 0, 0xffffffff⟩,
   ⟨"TMGR_Q_CFG", 0x4c000100, [(0x10, 32)], 0x5f20400, 0xffff3fff, 0, 0⟩,
   ⟨"TMGR_Q_OCC", 0x4c000104, [(0x10, 32)], 0, 0, 0, 0⟩,
   ⟨"TMGR_Q_CNT_TX", 0x4c000108, [(0x10, 32)], 0, 0, 0, 0xffffffff⟩,
   ⟨"TMGR_Q_CNT_DROP", 0x4c00010c, [(0x10, 32)], 0, 0, 0, 0xffffffff⟩,
   ⟨"TMGR_VCLS", 0x4c010000, [(0x4, 4095)], 0, 0x81ff83ff, 0, 0⟩,
   ⟨"TMGR_FLOW_RATE", 0x4c020000, [(0x20, 512)], 0x989680, 0x80ffffff, 0, 0⟩,
   ⟨"TMGR_FLOW_BURST", 0x4c020004, [(0x20, 512)], 0x14000600, 0x3f0fffff, 0, 0⟩,
   ⟨"TMGR_FLOW_TOKENS", 0x4c020008, [(0x20, 512)], 0, 0, 0, 0⟩,
   ⟨"TMGR_FLOW_NEXT", 0x4c02000c, [(0x20, 512)], 0, 0, 0, 0⟩,
   ⟨"TMGR_FLOW_WAIT", 0x4c020010, [(0x20, 512)], 0, 0, 0, 0⟩,
   ⟨"TMGR_POL_RATE", 0x4c030000, [(0x10, 1024)], 0x989680, 0x80ffffff, 0, 0⟩,
   ⟨"TMGR_POL_CBS", 0x4c030004, [(0x10, 1024)], 0x14002800, 0x3f0fffff, 0, 0⟩,
   ⟨"TMGR_POL_TOKENS", 0x4c030008, [(0x10, 1024)], 0, 0, 0, 0⟩,
   ⟨"TMGR_POL_DROP", 0x4c03000c, [(0x10, 1024)], 0, 0, 0, 0xffffffff⟩,
   ⟨"TMGR_GCL_CTL", 0x4c040000, [(0x2000, 4)], 0x1, 0x800001ff, 0, 0⟩,
   ⟨"TMGR_ADMIN_CYCLE", 0x4c040004, [(0x2000, 4)], 0xf4240, 0xffffffff, 0, 0⟩,
   ⟨"TMGR_ADMIN_BASE_NS", 0x4c040008, [(0x2000, 4)], 0, 0xffffffff, 0, 0⟩,
   ⟨"TMGR_ADMIN_BASE_SEC_LO", 0x4c04000c, [(0x2000, 4)], 0, 0xffffffff, 0, 0⟩,
   ⟨"TMGR_ADMIN_BASE_SEC_HI", 0x4c040010, [(0x2000, 4)], 0, 0xffff, 0, 0⟩,
   ⟨"TMGR_GCL_CMD", 0x4c040014, [(0x2000, 4)], 0, 0, 0, 0⟩,
   ⟨"TMGR_GCL_RES", 0x4c040018, [(0x2000, 4)], 0, 0, 0, 0⟩,
   ⟨"TMGR_GCL_STATUS", 0x4c04001c, [(0x2000, 4)], 0, 0, 0, 0⟩,
   ⟨"TMGR_OPER_CYCLE", 0x4c040020, [(0x2000, 4)], 0, 0, 0, 0⟩,
   ⟨"TMGR_CNT_OVERSIZE", 0x4c040030, [(0x2000, 4)], 0, 0, 0, 0xffffffff⟩,
   ⟨"TMGR_CNT_HELD", 0x4c040034, [(0x2000, 4)], 0, 0, 0, 0xffffffff⟩,
   ⟨"TMGR_MAXOPEN", 0x4c040040, [(0x2000, 4), (0x4, 8)], 0xffffffff, 0, 0, 0⟩,
   ⟨"TMGR_GCL_GATES", 0x4c041000, [(0x2000, 4), (0x800, 2), (0x8, 256)], 0xff, 0xff, 0, 0⟩,
   ⟨"TMGR_GCL_INTERVAL", 0x4c041004, [(0x2000, 4), (0x800, 2), (0x8, 256)], 0, 0xffffffff, 0, 0⟩]

/-- Register families of the window 0x4D00_0000, part 1. -/
def regs4D_0 : List RegFam :=
  [⟨"PCNT_CTL", 0x4d000000, [], 0, 0x1, 0, 0⟩,
   ⟨"PCNT_WRAP", 0x4d000010, [(0x4, 16)], 0, 0, 0xffffffff, 0⟩,
   ⟨"PCNT_USER", 0x4d000080, [], 0, 0xffff, 0, 0⟩,
   ⟨"PCNT_CNT_LO", 0x4d001000, [(0x8, 512)], 0, 0, 0, 0⟩,
   ⟨"PCNT_CNT_HI", 0x4d001004, [(0x8, 512)], 0, 0, 0, 0⟩,
   ⟨"PCNT_SHD_LO", 0x4d002000, [(0x8, 512)], 0, 0, 0, 0⟩,
   ⟨"PCNT_SHD_HI", 0x4d002004, [(0x8, 512)], 0, 0, 0, 0⟩]

/-- Register families of the window 0x4E00_0000, part 1. -/
def regs4E_0 : List RegFam :=
  [⟨"HIF_MBX_VER", 0x4e000000, [], 0x100, 0xffff, 0, 0⟩,
   ⟨"HIF_MBX_STATUS", 0x4e000004, [], 0, 0x1, 0x2, 0⟩,
   ⟨"HIF_MBX_BASE", 0x4e000008, [], 0, 0xffff0000, 0, 0⟩,
   ⟨"HIF_MBX_CMD_IDX", 0x4e000010, [], 0, 0xff00ff, 0, 0⟩,
   ⟨"HIF_MBX_RSP_IDX", 0x4e000014, [], 0, 0xff00ff, 0, 0⟩,
   ⟨"HIF_DWIN", 0x4e000020, [], 0x20, 0x3f, 0, 0⟩]

/-- The families whose window holds an address. -/
def regsOf (a : Nat) : List RegFam :=
  match a / 0x1000000 with
  | 0x40 => regs40_0 ++ regs40_1
  | 0x41 => regs41_0
  | 0x42 => regs42_0
  | 0x43 => regs43_0
  | 0x44 => regs44_0
  | 0x45 => regs45_0
  | 0x46 => regs46_0
  | 0x47 => regs47_0 ++ regs47_1
  | 0x48 => regs48_0
  | 0x49 => regs49_0
  | 0x4a => regs4A_0
  | 0x4b => regs4B_0 ++ regs4B_1
  | 0x4c => regs4C_0
  | 0x4d => regs4D_0
  | 0x4e => regs4E_0
  | _ => []

/-- The indices of an offset in nested strides; none where a hole or a wrong alignment answers. -/
def dimIdx : List (Nat × Nat) → Nat → Option (List Nat)
  | [], off => if off = 0 then some [] else none
  | (st, n) :: ds, off =>
    if off / st < n then (dimIdx ds (off % st)).map ((off / st) :: ·) else none

/-- The indices of `a` in a family. -/
def RegFam.idx (f : RegFam) (a : Nat) : Option (List Nat) :=
  if f.base ≤ a then dimIdx f.dims (a - f.base) else none

/-- The family of an address, by its table row. -/
def regFind (a : Nat) : Option RegFam := (regsOf a).find? fun f => (f.idx a).isSome

/-- The families' own indices of an address, with the family's name. -/
def regName (a : Nat) : Option (String × List Nat) :=
  match regFind a with
  | some f => (f.idx a).map fun is => (f.name, is)
  | none => none

end Sys2Proof.Machine
end

