-- ==== Sys2Proof/Machine/Ops.lean ====
section
/-! DEFINITION. The named operations every meaning is built from: sparse tables, byte memory, bit fields, registers,
the fabric, interrupts, performance counters, network time and the service state of units. -/
namespace Sys2Proof.Machine

/-! ### Sparse tables -/

/-- The value under key `k`, or the default. -/
def tabGet {α : Type} (d : α) : Tab α → Nat → α
  | [], _ => d
  | (a, b) :: r, k => if a = k then b else tabGet d r k

/-- The table with `v` under key `k`. -/
def tabSet {α : Type} : Tab α → Nat → α → Tab α
  | [], k, v => [(k, v)]
  | (a, b) :: r, k, v =>
    if k < a then (k, v) :: (a, b) :: r
    else if k = a then (k, v) :: r
    else (a, b) :: tabSet r k v

/-- The table without key `k`. -/
def tabDel {α : Type} (t : Tab α) (k : Nat) : Tab α := t.filter fun e => e.1 != k

/-! ### Byte memory in canonical form -/

/-- The byte at an address; `z` is what an unlisted address reads as. -/
def cellGet (z : Byte) : List Host.Cell → Nat → Byte
  | [], _ => z
  | (a, b) :: r, k => if a = k then b else cellGet z r k

/-- The memory with byte `v` at `k`; writing `z` removes the entry, so equal memories are equal lists. -/
def cellSet (z : Byte) : List Host.Cell → Nat → Byte → List Host.Cell
  | [], k, v => if v = z then [] else [(k, v)]
  | (a, b) :: r, k, v =>
    if k < a then (if v = z then (a, b) :: r else (k, v) :: (a, b) :: r)
    else if k = a then (if v = z then r else (k, v) :: r)
    else (a, b) :: cellSet z r k v

/-- Every key of `m` lies above `lo`, keys rise strictly, and no entry equals `z`. -/
def cellsAbove (z : Byte) : Option Nat → List Host.Cell → Bool
  | _, [] => true
  | lo, (a, b) :: r =>
    (match lo with
      | none => true
      | some l => decide (l < a)) && decide (b ≠ z) && cellsAbove z (some a) r

/-- What an unlisted byte of shared SRAM or DRAM reads as (DESIGN CHOICE, assumption 3). -/
def memZero : Byte := 0
/-- What an unlisted byte of the NOR reads as: erased flash (PRESUMED, assumption 4). -/
def norZero : Byte := 0xFF

/-- The canonical form of the fabric memory. -/
def Memory.wf (m : List Host.Cell) : Bool := cellsAbove memZero none m

/-- `n` bytes from `a`. -/
def cellsRead (z : Byte) (m : List Host.Cell) (a : Nat) : Nat → List Byte
  | 0 => []
  | n + 1 => cellGet z m a :: cellsRead z m (a + 1) n

/-- The bytes `bs` stored from `a`. -/
def cellsWrite (z : Byte) (m : List Host.Cell) (a : Nat) : List Byte → List Host.Cell
  | [] => m
  | b :: bs => cellsWrite z (cellSet z m a b) (a + 1) bs

/-- Little-endian value of bytes. -/
def leNat : List Byte → Nat
  | [] => 0
  | b :: bs => b.toNat + 256 * leNat bs

/-- `n` little-endian bytes of `v`. -/
def leBytes : Nat → Nat → List Byte
  | 0, _ => []
  | n + 1, v => BitVec.ofNat 8 v :: leBytes n (v / 256)

/-- Big-endian value of bytes. -/
def beNat (bs : List Byte) : Nat := bs.foldl (fun a b => a * 256 + b.toNat) 0

/-- `n` big-endian bytes of `v`. -/
def beBytes (n v : Nat) : List Byte := (leBytes n v).reverse

/-! ### Bit fields -/

/-- Bits [hi:lo] of `v`. -/
def fld (v : Word) (hi lo : Nat) : Nat := v.toNat / 2 ^ lo % 2 ^ (hi + 1 - lo)

/-- Bits [hi:lo] of `v` as a two's complement number. -/
def sfld (v : Word) (hi lo : Nat) : Int :=
  let u := fld v hi lo
  if 2 ^ (hi - lo) ≤ u then (u : Int) - 2 ^ (hi + 1 - lo) else u

/-- `v` with bits [hi:lo] set to `x`. -/
def setFld (v : Word) (hi lo x : Nat) : Word :=
  let w := hi + 1 - lo
  BitVec.ofNat 32 (v.toNat - v.toNat / 2 ^ lo % 2 ^ w * 2 ^ lo + x % 2 ^ w * 2 ^ lo)

/-- Bit `n` of `v`. -/
def bit (v : Word) (n : Nat) : Bool := v.getLsbD n

/-- `v` with bit `n` set to `b`. -/
def setBit (v : Word) (n : Nat) (b : Bool) : Word := setFld v n n b.toNat

/-- The two's complement reading of the low `w` bits of `n`. -/
def sext (w n : Nat) : Int :=
  let u := n % 2 ^ w
  if 2 ^ (w - 1) ≤ u then (u : Int) - 2 ^ w else u

/-- The low `w` bits of an integer. -/
def wrap (w : Nat) (i : Int) : Nat := (i % 2 ^ w).toNat

/-- The nearest value within [lo, hi]. -/
def clampI (lo hi i : Int) : Int := max lo (min hi i)

/-- Division of integers rounded half away from zero; `d` is positive. -/
def roundDiv (n : Int) (d : Nat) : Int :=
  if 0 ≤ n then (2 * n + d) / (2 * d) else -((2 * (-n) + d) / (2 * d))

/-! ### Codes and initiators -/

/-- The number of a completion code (R7). -/
def Code.val : Code → Nat
  | .ok => 0 | .tooLate => 1 | .keyGone => 2 | .keySpent => 3 | .tagFail => 4 | .deadlineMissed => 5
  | .noBuffer => 6 | .fenced => 7 | .inSteps => 8 | .versionMismatch => 9 | .refused => 10 | .badArgument => 11

/-- The fabric initiators in one numbering, for the per-initiator copies of R459. [DESIGN CHOICE, assumption 13] -/
def iniIdx : Ini → Nat
  | .hart h _ => h.val
  | .host => 4
  | .lantern k => 5 + k.val
  | .wick c => 11 + c.val

/-! ### Free values -/

/-- A free value below `n` and the state that has drawn it: the spec leaves the value open. [DESIGN CHOICE, assumption
1; DESIGN CHOICE, assumption 101] -/
def State.draw (s : State) (n : Nat) : Nat × State :=
  (Config.free s.freeCtr % n, { s with freeCtr := s.freeCtr + 1 })

/-- Which of the codes that can close a command: every code of R7 but IN_STEPS, which R9 has another code follow. -/
def closing (n : Nat) : Nat := if n % 11 < 8 then n % 11 else n % 11 + 1

/-- `n` free bytes. -/
def State.drawBytes (s : State) : Nat → List Byte × State
  | 0 => ([], s)
  | n + 1 =>
    let r := { s with freeCtr := s.freeCtr + 1 }.drawBytes n
    (BitVec.ofNat 8 (Config.free s.freeCtr) :: r.1, r.2)

/-! ### Registers -/

/-- Coefficients of the reset BT 0.5 and BT 0.3 shaping filters (R150). -/
def shp5Reset : List Nat := [32767, 29317, 20999, 12040, 5527, 2031, 597, 141, 27, 0, 0, 0, 0, 0, 0, 0, 0]
def shp3Reset : List Nat :=
  [32767, 31481, 27917, 22851, 17265, 12040, 7750, 4605, 2525, 1278, 597, 258, 103, 38, 13, 4, 1]

/-- Reset values of DMC_PORTp_CFG: MAX_URG, RESERVE and TARGET of R348. -/
def dmcPortReset : List Nat :=
  [0xC00801F4, 0xC00807D0, 0xC01003E8, 0xC01003E8, 0xC0080190, 0xC0100190, 0xC00807D0, 0x40044E20]

/-- The units of R458's table. -/
def isUnit (u : Nat) : Bool :=
  u ≤ 2 || (8 ≤ u && u ≤ 0x2B) || (0x30 ≤ u && u ≤ 0x34) || u = 0x38 || u = 0x39

/-- A unit whose records are in service after a cold reset: all but the ranks (R447). -/
def unitResets (u : Nat) : Nat := if isUnit u && u < 0x38 then 1 else 0

/-- The families whose reset value depends on the index. -/
def resetSpecial (a : Nat) : Option Nat :=
  if 0x44000000 ≤ a ∧ a < 0x44030000 then
    let o := a % 0x10000
    if 0x100 ≤ o ∧ o ≤ 0x140 then shp5Reset[(o - 0x100) / 4]?
    else if 0x180 ≤ o ∧ o ≤ 0x1C0 then shp3Reset[(o - 0x180) / 4]?
    else none
  else if 0x40000200 ≤ a ∧ a < 0x40000400 then some (unitResets ((a - 0x40000200) / 8))
  else if 0x4A000040 ≤ a ∧ a < 0x4A000080 ∧ (a - 0x4A000040) % 8 = 0 then
    dmcPortReset[(a - 0x4A000040) / 8]?
  else if 0x4B084000 ≤ a ∧ a < 0x4B088000 then (if a = 0x4B084004 then some 0x1F else none)
  else none

/-- The reset value of a register. -/
def regReset (a : Nat) : Word :=
  match resetSpecial a with
  | some v => BitVec.ofNat 32 v
  | none =>
    match regFind a with
    | some f => BitVec.ofNat 32 f.reset
    | none => 0

/-- The value of register `a`. [DEDUCED, assumption 11] -/
def State.reg (s : State) (a : Nat) : Word := tabGet (regReset a) s.regs a

/-- The state with register `a` holding `v`. -/
def State.setReg (s : State) (a : Nat) (v : Word) : State := { s with regs := tabSet s.regs a v }

/-- SYS_IDENT with its GRADE fuse (R2). -/
def identWord : Word := setBit (regReset SYS_IDENT) 0 Config.grade

/-- A field of a register. -/
def State.rf (s : State) (a hi lo : Nat) : Nat := fld (s.reg a) hi lo

/-- A bit of a register. -/
def State.rb (s : State) (a n : Nat) : Bool := bit (s.reg a) n

/-- The state with a field of a register set. -/
def State.setRf (s : State) (a hi lo x : Nat) : State := s.setReg a (setFld (s.reg a) hi lo x)

/-- The state with a bit of a register set. -/
def State.setRb (s : State) (a n : Nat) (b : Bool) : State := s.setRf a n n b.toNat

/-- A 32-bit counter advanced by `n`; it stops at 0xFFFF_FFFF. -/
def State.bump (s : State) (a : Nat) (n : Nat := 1) : State :=
  s.setReg a (BitVec.ofNat 32 (min 0xFFFFFFFF ((s.reg a).toNat + n)))

/-- A counter in bits [hi:lo] advanced by 1; it stops at its greatest value. -/
def State.bumpFld (s : State) (a hi lo : Nat) : State :=
  s.setRf a hi lo (min (2 ^ (hi + 1 - lo) - 1) (s.rf a hi lo + 1))

/-- The latched copy of an initiator (R459). -/
def State.latch (s : State) (by_ : Ini) (a : Nat) : Word :=
  tabGet 0 s.latches (iniIdx by_ * 0x10000000000 + a)

/-- The state with an initiator's copy filled. -/
def State.setLatch (s : State) (by_ : Ini) (a : Nat) (v : Word) : State :=
  { s with latches := tabSet s.latches (iniIdx by_ * 0x10000000000 + a) v }

/-- A command's completion code in its initiator's copy of a result register (R7, R459). -/
def State.result (s : State) (by_ : Ini) (a : Nat) (c : Code) : State :=
  s.setLatch by_ a (BitVec.ofNat 32 c.val)

/-- The fabric's answer to an initiator. [DESIGN CHOICE, assumption 13] -/
def State.answer (s : State) (by_ : Ini) (r : BusResp) : State :=
  { s with resp := tabSet s.resp (iniIdx by_) r }

/-! ### Time and reset -/

/-- The state at instant `t`; the axis never runs back. [DESIGN CHOICE, assumption 5] -/
def State.at (s : State) (t : Nat) : State := { s with clk := max s.clk t }

/-- NTIM_RAW, which is TMR_LT (R62). [DESIGN CHOICE, assumption 5] -/
def State.raw (s : State) : Nat := (s.clk - s.relAt) % 2 ^ 64

/-- What `left` of a slew at `ppm` has applied after `el` raw ns, units of 2^-40 ns (R68). [DEDUCED, assumption 34] -/
def slewGone (left : Int) (ppm el : Nat) : Int :=
  let go := min left.natAbs (el * ppm * 2 ^ 40 / 1000000)
  if 0 ≤ left then go else -(go : Int)

/-- Slew applied after `el` raw ns, units of 2^-40 ns (R68). [DEDUCED, assumption 34] -/
def Ntim.slewDone (n : Ntim) (el : Nat) : Int := slewGone n.slewLeft n.slewPpm el

/-- Unapplied slew after `el` raw ns. -/
def Ntim.left (n : Ntim) (el : Nat) : Int := n.slewLeft - n.slewDone el

/-- Raw ns since the last fold. -/
def State.sinceFold (s : State) : Nat := (s.raw + 2 ^ 64 - s.ntim.base) % 2 ^ 64

/-- The unapplied slew now, units of 2^-40 ns (R68). -/
def State.slewFine (s : State) : Int := s.ntim.left s.sinceFold

/-- R63 at raw value `raw`, units of 2^-40 ns. -/
def State.netFine (s : State) (raw : Nat) : Int :=
  let el : Nat := (raw + 2 ^ 64 - s.ntim.base) % 2 ^ 64
  s.ntim.ofs + (el : Int) * (2 ^ 40 + (s.reg NTIM_RATE).toInt) + s.ntim.slewDone el

/-- Network time in ns at a raw value, truncated (R63); seconds wrap at 2^48 only where registers show them. -/
def State.netAt (s : State) (raw : Nat) : Int := s.netFine raw / 2 ^ 40

/-- Network time in ns now. -/
def State.now (s : State) : Int := s.netAt s.raw

/-- The term of a slew in progress over `el` raw ns, which may be negative; a slew whose remainder is 0 has none (R63). -/
def State.slewTerm (s : State) (el : Int) : Int :=
  if s.slewFine = 0 then 0
  else el * s.ntim.slewPpm * 2 ^ 40 / 1000000 * s.ntim.slewLeft.sign

/-- Network time in ns of a raw instant, before or after the last fold, with the values in force (R63, R147).
[DEDUCED, assumption 143] -/
def State.netOf (s : State) (raw : Nat) : Int :=
  let el := sext 64 ((raw + 2 ^ 64 - s.ntim.base) % 2 ^ 64)
  if 0 ≤ el then s.netAt raw
  else (s.ntim.ofs + el * (2 ^ 40 + (s.reg NTIM_RATE).toInt) + s.slewTerm el) / 2 ^ 40

/-- Network time in ns as it was at raw instant `raw`, with the values in force at that instant (R77, R78). [DEDUCED,
assumption 143] -/
def State.netWas (s : State) (raw : Nat) : Int :=
  if s.ntim.base ≤ raw then s.netAt raw
  else
    match s.ntim.past.find? fun x => decide (x.base ≤ raw) with
    | some x =>
      (x.ofs + (raw - x.base : Nat) * (2 ^ 40 + x.rate) + slewGone x.slewLeft x.slewPpm (raw - x.base)) / 2 ^ 40
    | none => s.netOf raw

/-- R64: the elapsed time folded into `ofs` at the old rate, and base := raw. The stretch that ends is kept for 100 ms,
longer than any frame takes. -/
def State.fold (s : State) : State :=
  { s with ntim := { s.ntim with
      ofs := s.netFine s.raw
      slewLeft := s.slewFine
      base := s.raw
      past := ({ ofs := s.ntim.ofs, base := s.ntim.base, slewLeft := s.ntim.slewLeft, slewPpm := s.ntim.slewPpm,
                 rate := (s.reg NTIM_RATE).toInt, till := s.raw } : NtSeg)
        :: s.ntim.past.filter fun x => decide (s.raw < x.till + 100000000) } }

/-- Network time has reached `n`. -/
def State.reached (s : State) (n : Int) : Bool := decide (n ≤ s.now)

/-! ### Power domains, units and service -/

/-- The state of a domain (R412). -/
def State.dom (s : State) (d : Nat) : DomSt := tabGet .on s.pwr.dom d

/-- A domain runs. -/
def State.domOn (s : State) (d : Nat) : Bool := decide (s.dom d = .on)

/-- The power domain of a unit (R458). -/
def unitDomain (u : Nat) : Nat :=
  if u ≤ 2 then u + 1
  else if u ≤ 0x0F then u - 3
  else if u ≤ 0x27 then 14
  else if u ≤ 0x2B then 15
  else if u ≤ 0x34 then 17
  else 22

/-- A unit's rank is trained; other units need no training. -/
def State.unitReady (s : State) (u : Nat) : Bool :=
  if u = 0x38 then s.dmc.trained0 else if u = 0x39 then s.dmc.trained1 else true

/-- A unit is in service (R446): both records say so, they do not diverge, and its domain runs (R420). -/
def State.inService (s : State) (u : Nat) : Bool :=
  isUnit u && s.rb (SYS_UNIT_MGMT u) 0 && s.rb (SYS_UNIT_DP u) 0 && !s.rb (SYS_UNIT_DP u) 1
    && s.domOn (unitDomain u) && s.unitReady u

/-- How many of the units from `u` on, `n` of them, are in service. -/
def State.countIn (s : State) (u n : Nat) : Nat :=
  ((List.range n).filter fun i => s.inService (u + i)).length

/-- Wick groups fenced (R25, R137). -/
def State.groupsFenced (s : State) : Nat := 8 - s.countIn 8 8

/-- A DRAM rank is in service (R360). -/
def State.rankIn (s : State) (r : Nat) : Bool := s.inService (0x38 + r)

/-! ### Memory on the fabric -/

/-- An address in shared SRAM. -/
def inSram (a : Nat) : Bool := 0x08000000 ≤ a && a < 0x09000000

/-- An address in DRAM. -/
def inDram (a : Nat) : Bool := 0x800000000 ≤ a && a < 0xA00000000

/-- The address can be accessed: its SRAM bank runs, or its rank is in service (R22, R412). -/
def State.memOk (s : State) (a : Nat) : Bool :=
  (inSram a && s.domOn 21) || (inDram a && s.rankIn ((a - 0x800000000) / 0x100000000))

/-- R460: `n` bytes from `a` lie wholly within ranks in service. -/
def State.areaIn (s : State) (a n : Nat) : Bool :=
  decide (0x800000000 ≤ a) && decide (a + n ≤ 0xA00000000) && decide (0 < n) &&
    (decide (0x900000000 ≤ a) || s.rankIn 0) && (decide (a + n ≤ 0x900000000) || s.rankIn 1)

/-- One byte as the fabric reads it. [DESIGN CHOICE, assumption 3] -/
def State.byte (s : State) (a : Nat) : Byte := cellGet memZero s.mem a

/-- A 64-byte granule that a read finds uncorrectable (R351, R431). -/
def State.poisoned (s : State) (a n : Nat) : Bool :=
  (s.dmc.poison ++ s.bg.sramBad).any fun g => decide (g * 64 < a + n) && decide (a < g * 64 + 64)

/-- `n` bytes read over the fabric; none is a bus error (R22, R351). -/
def State.load (s : State) (a n : Nat) : Option (List Byte) :=
  if s.memOk a && s.memOk (a + (n - 1)) && !s.poisoned a n then some (cellsRead memZero s.mem a n) else none

/-- A little-endian value of `n` bytes. -/
def State.loadNat (s : State) (a n : Nat) : Option Nat := (s.load a n).map leNat

/-- Bytes stored over the fabric; none is a bus error, and nothing has changed. A store of a whole granule clears its
poison; SRAM and DRAM stores end a self-refresh wait elsewhere. -/
def State.store (s : State) (a : Nat) (bs : List Byte) : Option State :=
  if s.memOk a && s.memOk (a + (bs.length - 1)) then
    some { s with
      mem := cellsWrite memZero s.mem a bs
      dmc := { s.dmc with poison := s.dmc.poison.filter fun g =>
        !(decide (a ≤ g * 64) && decide (g * 64 + 64 ≤ a + bs.length)) }
      bg := { s.bg with sramBad := s.bg.sramBad.filter fun g =>
        !(decide (a ≤ g * 64) && decide (g * 64 + 64 ≤ a + bs.length)) } }
  else none

/-- A store whose bus error is dropped. -/
def State.storeDrop (s : State) (a : Nat) (bs : List Byte) : State := (s.store a bs).getD s

/-- The lid temperature of SYS_THERMAL, 1/16 degree. -/
def State.lid (s : State) : Int := sfld (s.reg SYS_THERMAL) 15 0

/-- Tracks since when the lid has stayed 3 degrees below the threshold of the rate in force (R354). -/
def State.trackCool (s : State) : State :=
  let thr : Int := if s.dmc.rate = 2 then 105 else 85
  let cool := decide (s.dmc.rate ≠ 0) && decide (s.lid ≤ (thr - 3) * 16)
  { s with dmc := { s.dmc with
      coolAt := if cool then some (s.dmc.coolAt.getD s.clk) else none } }

/-! ### Interrupts and counters -/

/-- A P source pulses (R456). -/
def State.pulse (s : State) (src : Nat) : State :=
  { s with irqPend := s.irqPend ||| (1#256 <<< src) }

/-- Source number of block `b`, offset `o` (R455). -/
def irqNo (b o : Nat) : Nat := 16 * b + 1 + o

/-- Performance event `e` counts `n` (R451): nothing while FREEZE is 1 or the fabric domain is off; a wrap is sticky.
[DEDUCED, assumption 127] -/
def State.event (s : State) (e : Nat) (n : Nat := 1) : State :=
  if s.rb PCNT_CTL 0 then s
  else
    let v := (tabGet 0 s.pcnt e).toNat + n
    let s := { s with pcnt := tabSet s.pcnt e (BitVec.ofNat 48 v) }
    if 2 ^ 48 ≤ v then s.setRb (PCNT_WRAP (e / 32)) (e % 32) true else s

/-- An event that counts whole units of `unit`: the remainder is kept for the next. -/
def State.eventFrac (s : State) (e unit n : Nat) : State :=
  let v := tabGet 0 s.pcntFrac e + n
  { s with pcntFrac := tabSet s.pcntFrac e (v % unit) }.event e (v / unit)

/-! ### Who reaches the fabric -/

/-- The fabric holds a write of initiator number `k` (R173, R315). -/
def State.fabricHolds (s : State) (k : Nat) : Bool :=
  s.mant.waiting.any (fun w => w.1 == k) || s.ciph.waiting.any (fun w => w.1 == k)

/-- The host's accesses reach the GTH-7 only over a PCIe link that is up, no initiator runs while internal reset is
asserted (R40, R42), and one whose write the fabric holds stalls (R10). -/
def State.hears (s : State) (by_ : Ini) : Bool :=
  !s.board.held && (decide (by_ ≠ .host) || s.board.linkUp) && !s.fabricHolds (iniIdx by_)

/-- The initiator number of core `n`: Wicks 0 to 63, Lanterns 64 to 69. -/
def coreIdx (n : Nat) : Nat := if n < 64 then 11 + n else 5 + (n - 64)

/-- Cores whose held write the fabric no longer holds go on (R173, R279, R315). -/
def State.holdsEnd (s : State) : State :=
  { s with cores := s.cores.map fun e =>
      if e.2.fstHeld.isSome && !s.fabricHolds (coreIdx e.1) then (e.1, { e.2 with fstHeld := none }) else e }

/-- The fabric has performed the held write of initiator number `k`: it is answered, and a core that no other held write
stalls goes on (R173, R279, R315). -/
def State.heldDone (s : State) (k : Nat) : State :=
  let s := { s with resp := tabSet s.resp k .done }
  s.holdsEnd

/-- Hart `h`. -/
def State.hart (s : State) (h : Nat) : Hart := tabGet {} s.harts h

/-- CSR `n` of a hart as stored. -/
def Hart.csrOf (x : Hart) (n : Nat) : Nat := (tabGet 0 x.csr n).toNat

/-- What an access does. -/
inductive PmpUse where
  | read | write | exec
  deriving DecidableEq, Repr

/-- The configuration byte of PMP entry `i` (R428): pmpcfg0 holds entries 0 to 7 and pmpcfg2 entries 8 to 15. -/
def Hart.pmpCfg (x : Hart) (i : Nat) : Nat := x.csrOf (0x3A0 + 2 * (i / 8)) / 256 ^ (i % 8) % 256

/-- pmpaddr of entry `i`, as an address divided by 4. -/
def Hart.pmpAddr (x : Hart) (i : Nat) : Nat := x.csrOf (0x3B0 + i) % 2 ^ 54

/-- The range that PMP entry `i` matches: first byte and the byte behind it (R428). With a granularity of 64 bytes the
low four bits of pmpaddr are 0 for TOR, and the low three are 1 for NAPOT. [PRESUMED, assumption 140] -/
def Hart.pmpRange (x : Hart) (i : Nat) : Option (Nat × Nat) :=
  let y := x.pmpAddr i
  match x.pmpCfg i / 8 % 4 with
  | 1 => some ((if i = 0 then 0 else x.pmpAddr (i - 1) / 16 * 64), y / 16 * 64)
  | 2 => some (y * 4, y * 4 + 4)
  | 3 =>
    let z := y ||| 7
    let k := z ^^^ (z + 1)
    some ((z - z % (k + 1)) * 4, (z - z % (k + 1) + k + 1) * 4)
  | _ => none

/-- The lowest-numbered PMP entry that matches a byte of the access. -/
def Hart.pmpEntry (x : Hart) (a n : Nat) : Option (Nat × Nat × Nat) :=
  (List.range 16).findSome? fun i =>
    match x.pmpRange i with
    | some (lo, hi) => if lo < a + n && a < hi && lo < hi then some (i, lo, hi) else none
    | none => none

/-- PMP lets a hart access `n` bytes from `a` in mode `p` (R428): the entry must match every byte, and grant the use
unless the mode is machine and the entry is not locked; with no entry only machine mode passes. [PRESUMED, assumption
140] -/
def Hart.pmpOk (x : Hart) (p : Priv) (u : PmpUse) (a n : Nat) : Bool :=
  match x.pmpEntry a n with
  | none => p == .machine
  | some (i, lo, hi) =>
    let c := x.pmpCfg i
    decide (lo ≤ a) && decide (a + n ≤ hi) &&
      ((p == .machine && decide (c < 128)) ||
        (match u with
          | .read => c % 2 == 1
          | .write => c / 2 % 2 == 1
          | .exec => c / 4 % 2 == 1))

/-- An initiator's access passes PMP, which checks harts alone (R428). -/
def State.pmpOk (s : State) (by_ : Ini) (u : PmpUse) (a n : Nat) : Bool :=
  match by_ with
  | .hart h p => (s.hart h.val).pmpOk p u a n
  | _ => true

/-- An initiator's 32-bit write of register `a` leaves it. -/
def State.admits (s : State) (by_ : Ini) (a : Nat) : Bool := s.hears by_ && s.pmpOk by_ .write a 4

/-- A posted store to `a` has ended in a bus error (R430). [DEDUCED, assumption 16] -/
def State.storeError (s : State) (a : Nat) : State :=
  if s.rb SYS_BUSERR_HI 31 then s
  else (s.setReg SYS_BUSERR_LO (BitVec.ofNat 32 a)).setReg SYS_BUSERR_HI (BitVec.ofNat 32 (2 ^ 31 + a / 2 ^ 32 % 16))

/-- A write that ends in a bus error: a hart's posted store is recorded (R430). [DEDUCED, assumption 16] -/
def State.writeError (s : State) (by_ : Ini) (a : Nat) : State :=
  match by_ with
  | .hart _ _ => s.storeError a
  | _ => s

/-- The power domain of a register window (R411, R454); none for an address outside every window. [DESIGN CHOICE,
assumption 19] -/
def addrDomain (a : Nat) : Option Nat :=
  match a / 0x1000000 with
  | 0x40 => some 0
  | 0x41 => some 0
  | 0x42 => some 0
  | 0x43 => if a < 0x43300000 then some (1 + (a - 0x43000000) / 0x100000) else none
  | 0x44 => some 4
  | 0x45 => if a < 0x45400000 then some (5 + (a - 0x45000000) / 0x80000) else some 20
  | 0x46 => some 14
  | 0x47 => some 13
  | 0x48 => if a = SEC_TAMPER_STATUS ∨ a = SEC_TAMPER_CTL then some 0 else some 15
  | 0x49 => some 16
  | 0x4A => some 22
  | 0x4B => some 17
  | 0x4C => some 17
  | 0x4D => some 20
  | 0x4E => some 18
  | _ => none

/-! ### Gates of the meanings -/

/-- The outcome type of every meaning. -/
abbrev Out := Host.Outcome State Fault Refusal

/-- The fabric cycle of 800 MHz in which instant `t` falls (R48). -/
def fabCycle (t : Nat) : Nat := t * 4 / 5

/-- An event of a block: nothing happens while internal reset is asserted (R40) or the domain does not run (R412).
[DESIGN CHOICE, assumption 6; DEDUCED, assumption 12] -/
def State.when (s : State) (t d : Nat) (k : State → State) : Out :=
  let s := s.at t
  if s.board.held || !s.domOn d then .next s else .next (k s)

/-- A write of register `a` by an initiator: nothing where it does not reach the fabric (R40, R42); an access fault where
PMP stops a hart (R428); a bus error when the register's domain does not run (R412) or the window is fenced (R22). -/
def State.access (s : State) (t a : Nat) (by_ : Ini) (fenced : State → Bool) (k : State → State) : Out :=
  let s := s.at t
  if !s.hears by_ then .next s
  else if !s.pmpOk by_ .write a 4 then .next (s.answer by_ .fault)
  else if !(addrDomain a).any s.domOn || fenced s then .next ((s.writeError by_ a).answer by_ .error)
  else .next ((k s).answer by_ (if (k s).fabricHolds (iniIdx by_) then .held else .done))

/-- A read of register `a` by an initiator, gated as `access` gates a write. -/
def State.reads (s : State) (t a : Nat) (by_ : Ini) (k : State → State × Word) : Out :=
  let s := s.at t
  if !s.hears by_ then .next s
  else if !s.pmpOk by_ .read a 4 then .next (s.answer by_ .fault)
  else if !(addrDomain a).any s.domOn then .next (s.answer by_ .error)
  else .next ((k s).1.answer by_ (.data (k s).2.toNat))

end Sys2Proof.Machine
end

