-- ==== Sys2Proof/Machine/Units.lean ====
section
/-! DEFINITION. The two state records of a unit, their epochs and the divergence rule (R446, R447). -/
namespace Sys2Proof.Machine

/-- Epoch of the management record. -/
def State.mgmtEpoch (s : State) (u : Nat) : Nat := s.rf (SYS_UNIT_MGMT u) 31 16
/-- Epoch of the data-path record. -/
def State.dpEpoch (s : State) (u : Nat) : Nat := s.rf (SYS_UNIT_DP u) 31 16

/-- The epoch that the next change of either record takes (R446). [DEDUCED, assumption 31] -/
def State.nextEpoch (s : State) (u : Nat) : Nat := (max (s.mgmtEpoch u) (s.dpEpoch u) + 1) % 65536

/-- The management record written. [DEDUCED, assumption 31] -/
def State.setMgmt (s : State) (u e : Nat) (intent : Bool) : State :=
  s.setReg (SYS_UNIT_MGMT u) (BitVec.ofNat 32 (e * 65536 + intent.toNat))

/-- The data-path record written. -/
def State.setDp (s : State) (u e cause : Nat) (diverged state : Bool) : State :=
  s.setReg (SYS_UNIT_DP u)
    (BitVec.ofNat 32 (e * 65536 + cause * 256 + diverged.toNat * 2 + state.toNat))

/-- The unit's bit of SYS_UNIT_DIV set. [DEDUCED, assumption 33] -/
def State.markDiv (s : State) (u : Nat) : State :=
  if u < 32 then s.setRb SYS_UNIT_DIV_LO u true else s.setRb SYS_UNIT_DIV_HI (u - 32) true

/-- A change that counts as a SET advances both records to one new epoch and ends any divergence (R447). -/
def State.asSet (s : State) (u : Nat) (intent state : Bool) : State :=
  let e := s.nextEpoch u
  (s.setMgmt u e intent).setDp u e 0 false state

/-- A change the hardware makes on its own: the data-path record advances, and a disagreement diverges (R447). -/
def State.hwChange (s : State) (u cause : Nat) (state : Bool) : State :=
  let e := s.nextEpoch u
  let differs := s.rb (SYS_UNIT_MGMT u) 0 != state
  let s := s.setDp u e cause differs state
  if differs then s.markDiv u else s

/-- A unit SET to in service that fails: STATE 0 at the SET's own epoch, and the records diverge (R446). [DEDUCED,
assumption 32] -/
def State.setFailed (s : State) (u e cause : Nat) : State :=
  (s.setDp u e cause true false).markDiv u

end Sys2Proof.Machine
end

