-- ==== Sys2Proof/Machine/Mbx.lean ====
section
/-! DEFINITION. The mailbox rings: the command at the head, and responses (R437 to R439). -/
namespace Sys2Proof.Machine

/-- The state with the mailbox changed. -/
def State.onMbx (s : State) (f : Mbx → Mbx) : State := { s with mbx := f s.mbx }

/-- HIF_MBX_BASE as an address. -/
def State.mbxBase (s : State) : Nat := (s.reg HIF_MBX_BASE).toNat / 65536 * 65536

/-- A response entry of 64 bytes. -/
def MbxRsp.bytes (r : MbxRsp) : List Byte :=
  let p := r.payload.take 14
  leBytes 4 (r.opcode * 65536 + r.tag) ++ leBytes 4 (r.code * 2 ^ 24 + 4 * p.length)
    ++ p.flatMap (fun w => leBytes 4 w.toNat) ++ List.replicate (56 - 4 * p.length) 0

/-- Up to `n` waiting responses are written while the ring has room: each advances RSP_TAIL and signals vector 0.
[DEDUCED, assumption 124] -/
def State.mbxFlush (s : State) : Nat → State
  | 0 => s
  | n + 1 =>
    match s.mbx.out with
    | [] => s
    | r :: rest =>
      let tail := s.rf HIF_MBX_RSP_IDX 23 16
      if (tail + 1) % 256 = s.rf HIF_MBX_RSP_IDX 7 0 then s
      else
        match s.store (s.mbxBase + 0x4000 + 64 * tail) r.bytes with
        | none => s
        | some s =>
          ((s.setRf HIF_MBX_RSP_IDX 23 16 ((tail + 1) % 256)).onMbx fun m =>
            { m with out := rest, msix := m.msix + 1 }).mbxFlush n

/-- A response is issued; it waits where the ring is full. [DESIGN CHOICE, assumption 122] -/
def State.mbxRespond (s : State) (opcode tag : Nat) (c : Nat) (payload : List Word) : State :=
  let s := s.onMbx fun m => { m with out := m.out ++ [⟨opcode, tag, c, payload⟩] }
  s.mbxFlush s.mbx.out.length

/-- The closing response of a command that returned IN_STEPS; one whose TAG a reset of the rings has ended is discarded. -/
def State.mbxClose (s : State) (tag : Nat) (c : Code) (payload : List Word) : State :=
  match s.mbx.opened.lookup tag with
  | some op => (s.onMbx fun m => { m with opened := tabDel m.opened tag }).mbxRespond op tag c.val payload
  | none => s

/-- A command entry. [DESIGN CHOICE, assumption 122] -/
structure MbxCmd where
  opcode : Nat
  tag : Nat
  len : Nat
  w : List Word

/-- Payload word `i`, counted from word 2 of the entry. -/
def MbxCmd.word (c : MbxCmd) (i : Nat) : Nat := (c.w.getD i 0).toNat

/-- The command at the head of the ring, while the mailbox is served. -/
def State.mbxHead (s : State) : Option MbxCmd :=
  let h := s.rf HIF_MBX_CMD_IDX 23 16
  if !s.domOn 18 || !s.rb HIF_MBX_STATUS 0 || h == s.rf HIF_MBX_CMD_IDX 7 0 then none
  else
    (s.load (s.mbxBase + 64 * h) 64).map fun b =>
      let w := fun (i : Nat) => leNat ((b.drop (4 * i)).take 4)
      { opcode := w 0 / 65536, tag := w 0 % 65536, len := w 1
        w := (List.range 14).map fun i => BitVec.ofNat 32 (w (2 + i)) }

/-- The boot ROM serves the mailbox (R434). -/
def State.romServes (s : State) : Bool := s.boot.phase == .mailbox

/-- Opcodes that have a row and are served now (R438). [DESIGN CHOICE, assumption 123] -/
def State.mbxServed (s : State) (op : Nat) : Bool :=
  if s.romServes then [1, 2, 4].contains op else [1, 2, 3, 0x10, 0x11, 0x20, 0x21, 0x30].contains op

/-- The command at the head is taken, where its opcode is `op`, or is one that no row serves (R437 to R439). The
answers of opcodes that the firmware image defines are free values. [DESIGN CHOICE, assumption 123; DEDUCED,
assumption 167] -/
def State.mbxServe (s : State) (op : Nat) (k : MbxCmd → State → State) : State :=
  let s := s.mbxFlush s.mbx.out.length
  match s.mbxHead with
  | none => s
  | some c =>
    let own := s.mbxServed c.opcode
    if own && c.opcode != op then s
    else
      let s := s.setRf HIF_MBX_CMD_IDX 23 16 ((s.rf HIF_MBX_CMD_IDX 23 16 + 1) % 256)
      let reply (s : State) (x : Code) : State := s.mbxRespond c.opcode c.tag x.val []
      if (s.mbx.opened.lookup c.tag).isSome then reply s .badArgument
      else if s.mbx.minor.isNone && c.opcode != 1 && c.opcode != 2 then reply s .versionMismatch
      else if !own then
        if s.romServes || c.opcode < 0x8000 then reply s .badArgument
        else
          let d := s.draw 11
          d.2.mbxRespond c.opcode c.tag (closing d.1) []
      else if 56 < c.len then reply s .badArgument
      else k c s

/-- A served command closes at once. -/
def State.mbxDone (s : State) (c : MbxCmd) (x : Code) (payload : List Word) : State :=
  s.mbxRespond c.opcode c.tag x.val payload

/-- A served command returns IN_STEPS; its closing response follows. -/
def State.mbxOpen (s : State) (c : MbxCmd) : State :=
  (s.onMbx fun m => { m with opened := tabSet m.opened c.tag c.opcode }).mbxRespond c.opcode c.tag Code.inSteps.val []

end Sys2Proof.Machine
end

