-- ==== Sys2Proof/Machine/Dsp.lean ====
section
/-! DEFINITION. The arithmetic of Lens on complex samples (R126, R131, R144, R145, R148, R151). Angles are in units of
2^-32 of a turn, powers and floors in units of 2^-20, frequencies in mHz. The spec states formulas and no word lengths; the
precision is the model's (assumption 156). -/
namespace Sys2Proof.Machine

/-- A complex sample: I and Q. -/
abbrev Cx := Int × Int

def cadd (a b : Cx) : Cx := (a.1 + b.1, a.2 + b.2)
def csub (a b : Cx) : Cx := (a.1 - b.1, a.2 - b.2)
def cmul (a b : Cx) : Cx := (a.1 * b.1 - a.2 * b.2, a.1 * b.2 + a.2 * b.1)
def cconj (a : Cx) : Cx := (a.1, -a.2)
/-- The power of a sample. -/
def csq (a : Cx) : Nat := (a.1 * a.1 + a.2 * a.2).toNat
/-- A sample multiplied by `k` / `d`. -/
def cscale (a : Cx) (k : Int) (d : Nat) : Cx := (roundDiv (a.1 * k) d, roundDiv (a.2 * k) d)

/-- arctan 2^-i for i = 0 to 31, units of 2^-32 turn. -/
def arcTans : List Int :=
  [536870912, 316933406, 167458907, 85004756, 42667331, 21354465, 10679838, 5340245, 2670163, 1335087, 667544] ++
  [333772, 166886, 83443, 41722, 20861, 10430, 5215, 2608, 1304, 652, 326, 163, 81, 41, 20, 10, 5, 3, 1, 1, 0]

/-- An angle brought into -2^31 to 2^31 - 1. -/
def halfTurn (z : Int) : Int := (z + 2147483648) % 4294967296 - 2147483648

/-- One CORDIC step by arctan 2^-i: the vector turned down (true) or up. -/
def turnStep (down : Bool) (d : Int) (v : Cx) : Cx :=
  if down then (v.1 + v.2 / d, v.2 - v.1 / d) else (v.1 - v.2 / d, v.2 + v.1 / d)

/-- arg of a sample; that of a sample without power is unknown (R131). [DESIGN CHOICE, assumption 156] -/
def phaseOf (x : Cx) : Int :=
  if x = (0, 0) then Config.nullPhase
  else
    let v : Cx := if x.1 < 0 then (-x.1 * 4294967296, -x.2 * 4294967296) else (x.1 * 4294967296, x.2 * 4294967296)
    let r := arcTans.foldl (fun (st : Int × (Cx × Int)) (a : Int) =>
      let y := st.2.1.2
      (st.1 * 2,
        if y = 0 then st.2 else if 0 < y then (turnStep true st.1 st.2.1, st.2.2 + a)
        else (turnStep false st.1 st.2.1, st.2.2 - a))) (1, (v, 0))
    halfTurn (r.2.2 + (if x.1 < 0 then 2147483648 else 0))

/-- exp(i z) scaled by 2^30. [DESIGN CHOICE, assumption 156] -/
def expi (z : Int) : Cx :=
  let p := halfTurn z
  let far := decide (1073741824 < p) || decide (p < -1073741824)
  let r := arcTans.foldl (fun (st : Int × (Cx × Int)) (a : Int) =>
    (st.1 * 2,
      if 0 ≤ st.2.2 then (turnStep false st.1 st.2.1, st.2.2 - a) else (turnStep true st.1 st.2.1, st.2.2 + a)))
    (1, ((652032874, 0), if far then halfTurn (p + 2147483648) else p))
  if far then (-r.2.1.1, -r.2.1.2) else r.2.1

/-- A sample turned by the angle `z`. [DESIGN CHOICE, assumption 156] -/
def rotate (x : Cx) (z : Int) : Cx :=
  let y := cmul x (expi z)
  (roundDiv y.1 1073741824, roundDiv y.2 1073741824)

/-- The largest number whose square is at most `n`, below 2^40. -/
def rootOf (n : Nat) : Nat :=
  (List.range 40).foldl (fun r i => let c := r + 2 ^ (39 - i); if c * c ≤ n then c else r) 0

/-- 10^(-d/10) in units of 2^-30: the amplitude ratio of `d` gain steps of 2 dB. -/
def gainRatio (d : Int) : Nat :=
  (List.range 34).foldl (fun r i =>
    let c := r + 2 ^ (33 - i)
    if c ^ 10 * 10 ^ d.toNat ≤ 2 ^ 300 * 10 ^ (-d).toNat then c else r) 0

/-! ### The quantities of R131 -/

/-- A stream prepared for measurement: the angle from each sample to the next, and the powers. -/
structure Prep where
  steps : List Int
  pows : List Nat

/-- The preparation of a stream. -/
def prep (xs : List Cx) : Prep :=
  ⟨(xs.zip (xs.drop 1)).map fun e => phaseOf (cmul e.2 (cconj e.1)), xs.map csq⟩

/-- The first sample index not below `pos4` - `k` fs, where positions count 4 Rs to a sample. -/
def idxFrom (fs rs pos4 k : Nat) : Nat := (pos4 - k * fs + 4 * rs - 1) / (4 * rs)

/-- f[j] in mHz for the 16 symbols that end at `pos4` (R131). -/
def symFreqs (fs rs pos4 : Nat) (p : Prep) : List Int :=
  (List.range 16).map fun j =>
    let lo := idxFrom fs rs pos4 (4 * (16 - j) - 1)
    let seg := (p.steps.drop (lo - 1)).take (idxFrom fs rs pos4 (4 * (16 - j) - 3) - lo)
    roundDiv (fs * 1000 * seg.sum) (4294967296 * seg.length)

/-- The sum of (-1)^j f[j]. -/
def altSum (f : List Int) : Int := f.foldr (fun x a => x - a) 0

/-- m in units of 2^-32 (R131); a stream without deviation has an unknown one. [DESIGN CHOICE, assumption 156] -/
def metricOf (f : List Int) : Nat :=
  let d := (f.map Int.natAbs).sum
  if d = 0 then Config.nullMetric else 4294967296 * (altSum f).natAbs / d

/-- p over the 16 symbols that end at `pos4` (R131). [DESIGN CHOICE, assumption 156] -/
def symPower (fs rs pos4 : Nat) (p : Prep) : Nat :=
  let lo := idxFrom fs rs pos4 64
  let seg := (p.pows.drop lo).take (idxFrom fs rs pos4 0 - lo)
  2 ^ 20 * seg.sum / seg.length

/-- The mean of f[j] in mHz. -/
def meanFreq (f : List Int) : Int := roundDiv f.sum f.length

/-- The mean of abs(f[j] - mean) in mHz (R145). -/
def meanDev (f : List Int) : Nat := (roundDiv ((f.map fun x => (((x - meanFreq f).natAbs : Nat) : Int)).sum) f.length).toNat

/-- What one evaluation of a position finds (R131): m, p, the mean of f[j], and the sub-channel. -/
structure Eval where
  m : Nat := 0
  p : Nat := 0
  fMean : Int := 0
  sub : Nat := 0
  deriving DecidableEq, Repr

/-- The measures of a stream over the 16 symbols that end at `pos4`. -/
def evalAt (fs rs pos4 sub : Nat) (p : Prep) : Eval :=
  let f := symFreqs fs rs pos4 p
  ⟨metricOf f, symPower fs rs pos4 p, meanFreq f, sub⟩

/-- The evaluation with the larger metric, the first at equality. -/
def betterEval (a b : Eval) : Eval := if a.m < b.m then b else a

/-- Evaluation `e` symbols before the newest sample: the largest over four timing phases and the sub-channels. [DESIGN
CHOICE, assumption 156] -/
def evalPos (fs rs e : Nat) (ps : List Prep) : Eval :=
  (ps.zip (List.range ps.length)).foldl (fun a (x : Prep × Nat) =>
    (List.range 4).foldl (fun a ph =>
      betterEval a (evalAt fs rs (4 * rs * x.1.pows.length - (4 * e + ph) * fs) x.2 x.1)) a) {}

/-- A stream of `len` samples holds `e` + 16 symbols and the sample before them. -/
def longEnough (fs rs e len : Nat) : Bool := decide ((16 + e + 1) * fs + rs ≤ len * rs)

/-! ### Diversity combining (R148) -/

/-- The gain of a branch against the stronger one, units of 2^-16: its correlation with it. -/
def branchGain (x strong : List Cx) : Cx :=
  let c := (x.zip strong).foldl (fun a e => cadd a (cmul e.1 (cconj e.2))) (0, 0)
  let p := (strong.map csq).sum
  if p = 0 then (0, 0) else cscale c 65536 p

/-- The branch with the most power, the first at equality. -/
def strongest (xs : List (List Cx)) : List Cx :=
  (xs.foldl (fun (a : Option (Nat × List Cx)) x =>
    let p := (x.map csq).sum
    match a with
    | some b => if b.1 < p then some (p, x) else a
    | none => some (p, x)) none).elim [] (·.2)

/-- Streams added sample by sample. -/
def addStreams (a b : List Cx) : List Cx :=
  if a.isEmpty then b else (a.zip b).map fun e => cadd e.1 e.2

/-- Sum of conj(h_i) x_i / n_i over the branches, and its noise; one branch alone stays as it is. A floor below one
unit counts as one. [DESIGN CHOICE, assumption 156] -/
def combine (ns : List Nat) (xs : List (List Cx)) : List Cx × Nat :=
  match xs with
  | [x] => (x, ns.headD 0)
  | _ =>
    let top := strongest xs
    (xs.zip ns).foldl (fun a e =>
      let h := branchGain e.1 top
      let n := max 1 e.2
      (addStreams a.1 (e.1.map fun x => cscale (cmul (cconj h) x) (2 ^ 28) n), a.2 + csq h * 2 ^ 8 / n)) ([], 0)

/-- The RMS magnitude of a stream. -/
def rmsOf (xs : List Cx) : Nat := rootOf ((xs.map csq).sum / max 1 xs.length)

/-! ### Front end and bins (R126, R144) -/

/-- One sample through the DC tracking loop with its 200 Hz corner: the loop's new state and the sample. -/
def dcLoop (dc : Cx) (x : Cx) : Cx × Cx :=
  let one := fun (d v : Int) => d + (v * 4294967296 - d) * 70276 / 4294967296
  ((one dc.1 x.1, one dc.2 x.2), (x.1 - dc.1 / 4294967296, x.2 - dc.2 / 4294967296))

/-- A bin takes a sample: delay line of 1,024, floor from the first 64 samples, then its update (R128, R144). -/
def BinIn.take (b : BinIn) (x : Cx) : BinIn :=
  let p := csq x
  let b := { b with line := (x :: b.line).take 1024 }
  if b.seen < 64 then
    { b with seen := b.seen + 1, sum := b.sum + p, floor := if b.seen = 63 then (b.sum + p) * 2 ^ 20 / 64 else b.floor }
  else if p * 2 ^ 20 < 4 * b.floor then
    { b with floor := ((b.floor : Int) + ((p * 2 ^ 20 : Nat) - (b.floor : Int)) / 1024).toNat }
  else b

/-- floor[k]: before the mean of the first 64 samples exists, unknown. [DESIGN CHOICE, assumption 157] -/
def BinIn.level (b : BinIn) : Nat := if b.seen < 64 then Config.earlyFloor b.seen b.sum else b.floor

/-! ### Spectrum (R151) -/

/-- Every second element, from the first. -/
def evens : List Cx → List Cx
  | a :: _ :: r => a :: evens r
  | l => l

/-- The transform of 2^k samples. -/
def fft : Nat → List Cx → List Cx
  | 0, xs => xs
  | k + 1, xs =>
    let e := fft k (evens xs)
    let o := (fft k (evens (xs.drop 1))).zip (List.range (2 ^ k))
    let t := o.map fun (x : Cx × Nat) => rotate x.1 (-((x.2 : Int) * 2 ^ (31 - k)))
    ((e.zip t).map fun x => cadd x.1 x.2) ++ ((e.zip t).map fun x => csub x.1 x.2)

/-- 256 samples under a Hann window; the window is 2^12 at its centre. -/
def hann (xs : List Cx) : List Cx :=
  (xs.zip (List.range 256)).map fun (x : Cx × Nat) => cscale x.1 (1073741824 - (expi ((x.2 : Int) * 2 ^ 24)).1) (2 ^ 19)

/-- The power spectrum of 256 samples, bins -128 to 127. -/
def spectrum (xs : List Cx) : List Nat :=
  let p := (fft 8 (hann xs)).map csq
  p.drop 128 ++ p.take 128

/-- The spectra of whole blocks of 256 samples added, at most `fuel` of them. -/
def sumSpectra : Nat → List Cx → List Nat
  | 0, _ => List.replicate 256 0
  | f + 1, xs =>
    if xs.length < 256 then List.replicate 256 0
    else ((spectrum (xs.take 256)).zip (sumSpectra f (xs.drop 256))).map fun e => e.1 + e.2

/-- The power spectrum averaged over a baseband, in whole blocks of 16 symbols (R151). [DEDUCED, assumption 159] -/
def meanSpectrum (xs : List Cx) : List Nat :=
  (sumSpectra (xs.length / 256) xs).map fun p => p / max 1 (xs.length / 256)

end Sys2Proof.Machine
end

