-- ==== Sys2Proof/Machine/Aes.lean ====
section
/-! DEFINITION. AES-128 and AES-256 (FIPS 197) and the modes of R313: CBC, CFB, CTR, CCM and CMAC, and the key derivation
of R324. Bytes are naturals below 256 inside the cipher. -/
namespace Sys2Proof.Machine

/-- The S-box, byte 0 most significant. -/
def aesSbox : Nat := 0x637c777bf26b6fc53001672bfed7ab76ca82c97dfa5947f0add4a2af9ca472c0b7fd9326363ff7cc34a5e5f171d8311504c723c31896059a071280e2eb27b27509832c1a1b6e5aa0523bd6b329e32f8453d100ed20fcb15b6acbbe394a4c58cfd0efaafb434d338545f9027f503c9fa851a3408f929d38f5bcb6da2110fff3d2cd0c13ec5f974417c4a77e3d645d197360814fdc222a908846eeb814de5e0bdbe0323a0a4906245cc2d3ac629195e479e7c8376d8dd54ea96c56f4ea657aae08ba78252e1ca6b4c6e8dd741f4bbd8b8a703eb5664803f60e613557b986c11d9ee1f8981169d98e949b1e87e9ce5528df8ca1890dbfe6426841992d0fb054bb16
/-- The inverse S-box. -/
def aesInvSbox : Nat := 0x52096ad53036a538bf40a39e81f3d7fb7ce339829b2fff87348e4344c4dee9cb547b9432a6c2233dee4c950b42fac34e082ea16628d924b2765ba2496d8bd12572f8f66486689816d4a45ccc5d65b6926c704850fdedb9da5e154657a78d9d8490d8ab008cbcd30af7e45805b8b34506d02c1e8fca3f0f02c1afbd0301138a6b3a9111414f67dcea97f2cfcef0b4e67396ac7422e7ad3585e2f937e81c75df6e47f11a711d29c5896fb7620eaa18be1bfc563e4bc6d279209adbc0fe78cd5af41fdda8338807c731b11210592780ec5f60517fa919b54a0d2de57a9f93c99cefa0e03b4dae2af5b0c8ebbb3c83539961172b047eba77d626e169146355210c7d

/-- Byte `i` of a 256-byte table. -/
def tableByte (t i : Nat) : Nat := (t >>> (8 * (255 - i))) % 256

/-- Multiplication by x in GF(2^8). -/
def gfX (b : Nat) : Nat := if b < 128 then 2 * b else (2 * b) ^^^ 0x11B

/-- Multiplication by the low four bits of `k` in GF(2^8). -/
def gfMul (k b : Nat) : Nat :=
  let b2 := gfX b
  let b4 := gfX b2
  (if k.testBit 0 then b else 0) ^^^ (if k.testBit 1 then b2 else 0) ^^^ (if k.testBit 2 then b4 else 0)
    ^^^ (if k.testBit 3 then gfX b4 else 0)

/-- Bytewise exclusive or, to the length of the shorter. -/
def xorL (a b : List Nat) : List Nat := List.zipWith (fun x y => x ^^^ y) a b

/-- The words of the key schedule, latest first: `n` more from word `i` on. -/
def aesWords (nk : Nat) : Nat → Nat → List (List Nat) → List (List Nat)
  | 0, _, ws => ws
  | n + 1, i, ws =>
    let prev := ws.headD []
    let sub := fun (l : List Nat) => l.map (tableByte aesSbox)
    let t :=
      if i % nk = 0 then xorL (sub (prev.drop 1 ++ prev.take 1)) [(List.range (i / nk - 1)).foldl (fun c _ => gfX c) 1, 0, 0, 0]
      else if nk = 8 && i % nk == 4 then sub prev
      else prev
    aesWords nk n (i + 1) (xorL (ws[nk - 1]?.getD []) t :: ws)

/-- A list cut in pieces of `n`, at most `fuel` of them. -/
def pieces {α : Type} (n : Nat) : Nat → List α → List (List α)
  | 0, _ => []
  | f + 1, l => if l.isEmpty then [] else l.take n :: pieces n f (l.drop n)

/-- The 16-byte blocks of a byte string; the last may be shorter. -/
def blocks16 (l : List Nat) : List (List Nat) := pieces 16 l.length l

/-- The round keys of a 16 or 32-byte key, first round first. -/
def aesKeys (key : List Nat) : List (List Nat) :=
  let nk := key.length / 4
  let ws := (aesWords nk (3 * nk + 28) nk (pieces 4 nk key).reverse).reverse
  (pieces 4 ws.length ws).map List.flatten

/-- One column of MixColumns with the row `[a, b, c, d]` of the circulant matrix. -/
def mixColumn (m col : List Nat) : List Nat :=
  (List.range 4).map fun r => (List.range 4).foldl (fun x j =>
    x ^^^ gfMul (m[(j + 4 - r) % 4]?.getD 0) (col[j]?.getD 0)) 0

/-- MixColumns over a block. -/
def mixAll (m b : List Nat) : List Nat := ((pieces 4 4 b).map (mixColumn m)).flatten

/-- A block with its bytes permuted: byte i comes from (i + k x (i mod 4)) mod 16. -/
def shiftRows (k : Nat) (b : List Nat) : List Nat :=
  (List.range 16).map fun i => b[(i + k * (i % 4)) % 16]?.getD 0

/-- The rounds of the cipher after the first key. -/
def aesRounds : List (List Nat) → List Nat → List Nat
  | [], b => b
  | [k], b => xorL (shiftRows 4 (b.map (tableByte aesSbox))) k
  | k :: ks, b => aesRounds ks (xorL (mixAll [2, 3, 1, 1] (shiftRows 4 (b.map (tableByte aesSbox)))) k)

/-- One block encrypted. [DEDUCED, assumption 138] -/
def aesEnc (key b : List Nat) : List Nat :=
  match aesKeys key with
  | k :: ks => aesRounds ks (xorL b k)
  | [] => b

/-- The rounds of the inverse cipher, round keys last first. -/
def aesInvRounds : List (List Nat) → List Nat → List Nat
  | [], b => b
  | [k], b => xorL ((shiftRows 12 b).map (tableByte aesInvSbox)) k
  | k :: ks, b => aesInvRounds ks (mixAll [14, 11, 13, 9] (xorL ((shiftRows 12 b).map (tableByte aesInvSbox)) k))

/-- One block decrypted. -/
def aesDec (key b : List Nat) : List Nat :=
  match (aesKeys key).reverse with
  | k :: ks => aesInvRounds ks (xorL b k)
  | [] => b

/-! ### Modes -/

/-- CBC encryption of blocks (SP 800-38A). -/
def cbcEnc (key : List Nat) : List Nat → List (List Nat) → List (List Nat)
  | _, [] => []
  | iv, b :: bs => let c := aesEnc key (xorL b iv); c :: cbcEnc key c bs

/-- CBC decryption. -/
def cbcDec (key : List Nat) : List Nat → List (List Nat) → List (List Nat)
  | _, [] => []
  | iv, c :: cs => xorL (aesDec key c) iv :: cbcDec key c cs

/-- CFB-128 encryption. -/
def cfbEnc (key : List Nat) : List Nat → List (List Nat) → List (List Nat)
  | _, [] => []
  | iv, b :: bs => let c := xorL b (aesEnc key iv); c :: cfbEnc key c bs

/-- CFB-128 decryption. -/
def cfbDec (key : List Nat) : List Nat → List (List Nat) → List (List Nat)
  | _, [] => []
  | iv, c :: cs => xorL c (aesEnc key iv) :: cfbDec key c cs

/-- Big-endian bytes of a natural. -/
def beList (n v : Nat) : List Nat := (List.range n).map fun i => v / 256 ^ (n - 1 - i) % 256

/-- Value of big-endian bytes. -/
def beVal (l : List Nat) : Nat := l.foldl (fun a b => a * 256 + b) 0

/-- Counter mode from the counter block `ctr`, incremented mod 2^128 (R313). -/
def ctrMode (key : List Nat) : Nat → List (List Nat) → List (List Nat)
  | _, [] => []
  | ctr, b :: bs => xorL b (aesEnc key (beList 16 ctr)) :: ctrMode key ((ctr + 1) % 2 ^ 128) bs

/-- A list padded with zeros to 16 bytes. -/
def pad16 (l : List Nat) : List Nat := l ++ List.replicate (16 - l.length) 0

/-- The CBC-MAC of blocks. -/
def cbcMac (key : List Nat) (bs : List (List Nat)) : List Nat :=
  bs.foldl (fun x b => aesEnc key (xorL x (pad16 b))) (List.replicate 16 0)

/-- The full CCM tag before encryption (SP 800-38C): `m` is the tag length. [DEDUCED, assumption 79] -/
def ccmMac (key nonce ad p : List Nat) (m : Nat) : List Nat :=
  let l := 15 - nonce.length
  let b0 := ((if ad.isEmpty then 0 else 64) + (m - 2) / 2 * 8 + (l - 1)) :: nonce ++ beList l p.length
  let a := if ad.isEmpty then [] else blocks16 (beList 2 ad.length ++ ad)
  cbcMac key (b0 :: a ++ blocks16 p)

/-- The CCM counter block `i` as a number. -/
def ccmCtr (nonce : List Nat) (i : Nat) : Nat :=
  let l := 15 - nonce.length
  beVal ((l - 1) :: nonce ++ beList l i)

/-- CCM payload encryption or decryption. -/
def ccmCrypt (key nonce p : List Nat) : List Nat := (ctrMode key (ccmCtr nonce 1) (blocks16 p)).flatten

/-- The CCM tag of a payload. -/
def ccmTag (key nonce ad p : List Nat) (m : Nat) : List Nat :=
  (xorL (ccmMac key nonce ad p m) (aesEnc key (beList 16 (ccmCtr nonce 0)))).take m

/-- CCM encryption: ciphertext, then the tag. -/
def ccmSeal (key nonce ad p : List Nat) (m : Nat) : List Nat := ccmCrypt key nonce p ++ ccmTag key nonce ad p m

/-- CCM decryption: the plaintext when the tag matches. -/
def ccmOpen (key nonce ad c tag : List Nat) : Option (List Nat) :=
  let p := ccmCrypt key nonce c
  if ccmTag key nonce ad p tag.length = tag then some p else none

/-- A CMAC subkey doubled (SP 800-38B). -/
def cmacDouble (v : Nat) : Nat := (2 * v) % 2 ^ 128 ^^^ (if 2 ^ 127 ≤ v then 0x87 else 0)

/-- CMAC of a byte string, all 16 bytes. -/
def cmac (key m : List Nat) : List Nat :=
  let k1 := cmacDouble (beVal (aesEnc key (List.replicate 16 0)))
  let bs := if m.isEmpty then [[]] else blocks16 m
  let last := bs.getLast?.getD []
  let fin := if last.length = 16 then xorL last (beList 16 k1)
    else xorL (pad16 (last ++ [0x80])) (beList 16 (cmacDouble k1))
  cbcMac key (bs.dropLast ++ [fin])

/-- The label of R324. [PRESUMED, assumption 30] -/
def rootLabel : List Nat := [0x47, 0x54, 0x48, 0x37, 0x2D, 0x52, 0x4F, 0x4F, 0x54]

/-- The counter-mode KDF of SP 800-108 on AES-CMAC: 32 bytes (PRESUMED: a 32-bit counter before the label, one zero
byte, and a 32-bit length after the context; assumption 30). -/
def kdfRoot (seed context : List Nat) : List Nat :=
  ([1, 2].map fun i => cmac seed (beList 4 i ++ rootLabel ++ [0] ++ context ++ beList 4 256)).flatten

/-- Bytes as naturals. -/
def natsOf (l : List Byte) : List Nat := l.map BitVec.toNat
/-- Naturals as bytes. -/
def bytesNat (l : List Nat) : List Byte := l.map (BitVec.ofNat 8)

end Sys2Proof.Machine
end

