-- ==== Sys2Proof/Machine/Ldpc.lean ====
section
/-! DEFINITION. The LDPC codes and the header CRC (R161, R162, R167 to R171). -/
namespace Sys2Proof.Machine

/-- A base matrix row: (column, shift) entries, the row's own parity column last. -/
abbrev LdpcRow := List (Nat × Nat)

/-- The mother matrix of payload codewords (R167). -/
def payRows : List LdpcRow :=
  [[(0, 0), (1, 37), (2, 114), (3, 201), (4, 9), (5, 160), (6, 83), (7, 242), (8, 0)],
   [(0, 173), (1, 2), (2, 66), (3, 129), (4, 250), (5, 47), (6, 198), (7, 15), (8, 0), (9, 0)],
   [(0, 55), (3, 190), (9, 77), (10, 0)],
   [(1, 141), (4, 23), (8, 206), (11, 0)],
   [(2, 98), (5, 231), (6, 12), (12, 0)],
   [(0, 119), (7, 164), (9, 3), (13, 0)],
   [(1, 88), (3, 57), (5, 140), (14, 0)],
   [(2, 210), (4, 175), (7, 31), (15, 0)],
   [(0, 226), (6, 61), (8, 133), (16, 0)],
   [(1, 19), (5, 95), (9, 248), (17, 0)],
   [(3, 72), (4, 156), (7, 108), (18, 0)],
   [(2, 35), (6, 181), (8, 220), (19, 0)],
   [(0, 147), (2, 5), (5, 202), (20, 0)],
   [(1, 233), (4, 44), (6, 126), (21, 0)],
   [(3, 11), (7, 92), (9, 167), (22, 0)],
   [(0, 80), (4, 213), (8, 59), (23, 0)]]

/-- The header code (R168), Z = 8. -/
def hdrRows : List LdpcRow :=
  [[(0, 0), (1, 3), (2, 6), (3, 1), (4, 0)],
   [(0, 5), (1, 0), (2, 2), (3, 7), (4, 0), (5, 0)],
   [(0, 2), (2, 4), (5, 1), (6, 0)],
   [(1, 6), (3, 3), (4, 5), (7, 0)],
   [(0, 7), (3, 5), (5, 4), (8, 0)],
   [(1, 1), (2, 7), (4, 2), (9, 0)],
   [(0, 4), (1, 5), (5, 6), (10, 0)],
   [(2, 1), (3, 2), (4, 3), (11, 0)]]

/-- A code in use: rows, Z, information bits and coded bits. -/
structure Ldpc where
  rows : List LdpcRow
  z : Nat
  k : Nat
  n : Nat

/-- The header code. -/
def hdrCode : Ldpc := ⟨hdrRows, 8, 32, 96⟩

/-- K of a KSIZE code (R161). -/
def ksizeK (c : Nat) : Nat := 256 * 2 ^ (c % 4)

/-- The payload code of a KSIZE and a RATE code (R161, R167). -/
def payCode (ksize rate : Nat) : Ldpc :=
  let k := ksizeK ksize
  match rate with
  | 0 => ⟨payRows, k / 8, k, 3 * k⟩
  | 1 => ⟨payRows.take 8, k / 8, k, 2 * k⟩
  | 2 => ⟨payRows.take 4, k / 8, k, k + k / 2⟩
  | _ => ⟨payRows.take 2, k / 8, k, k + k / 4⟩

/-- Coded bit of entry `e` for check `i` (R169). -/
def Ldpc.pos (c : Ldpc) (e : Nat × Nat) (i : Nat) : Nat := e.1 * c.z + (i + e.2) % c.z

/-- Parity bits filled row by row (R169). -/
def Ldpc.encode (c : Ldpc) (info : List Bool) : Array Bool :=
  let v := (info ++ List.replicate (c.n - info.length) false).toArray
  c.rows.foldl (fun v row =>
    let own := (row.getLast?.getD (0, 0)).1
    (List.range c.z).foldl (fun v i =>
      let x := (row.dropLast).foldl (fun b e => b != v.getD (c.pos e i) false) false
      v.setIfInBounds (own * c.z + i) x) v) v

/-- Unsatisfied checks of a word (R169). -/
def Ldpc.unsat (c : Ldpc) (v : Array Bool) : Nat :=
  c.rows.foldl (fun a row =>
    (List.range c.z).foldl (fun a i =>
      if row.foldl (fun b e => b != v.getD (c.pos e i) false) false then a + 1 else a) a) 0

/-- 0.75 x m (R171); where it is not whole its rounding is free. [DESIGN CHOICE, assumption 21] -/
def norm34 (m : Nat) : Nat := 3 * m / 4 + (if 3 * m % 4 = 0 then 0 else Config.minSumRound m % 2)

/-- One check of one layer: messages `r` and posteriors `l` (R171). [DEDUCED, assumption 22] -/
def Ldpc.check (c : Ldpc) (row : LdpcRow) (base i : Nat) (st : Array Int × Array Int) : Array Int × Array Int :=
  let es := row.zip (List.range row.length)
  let q := es.map fun (e : (Nat × Nat) × Nat) =>
    (c.pos e.1 i, (base + e.2) * c.z + i, st.2.getD (c.pos e.1 i) 0 - st.1.getD ((base + e.2) * c.z + i) 0)
  let neg := q.foldl (fun b x => b != decide (x.2.2 < 0)) false
  q.foldl (fun st x =>
    let m := q.foldl (fun m y => if y.2.1 = x.2.1 then m else min m y.2.2.natAbs) 127
    let g : Int := norm34 m
    let r := if neg != decide (x.2.2 < 0) then -g else g
    (st.1.setIfInBounds x.2.1 r, st.2.setIfInBounds x.1 (clampI (-511) 511 (x.2.2 + r)))) st

/-- One iteration over every layer. [DEDUCED, assumption 22] -/
def Ldpc.iter (c : Ldpc) (st : Array Int × Array Int) : Array Int × Array Int :=
  (c.rows.foldl (fun (a : Nat × (Array Int × Array Int)) row =>
    (a.1 + row.length, (List.range c.z).foldl (fun st i => c.check row a.1 i st) a.2)) (0, st)).2

/-- Hard decisions of posteriors: a positive value favours 0 (R170). -/
def hard (l : Array Int) : Array Bool := l.map fun x => decide (x < 0)

/-- The outcome of a decode. -/
structure Decoded where
  bits : List Bool
  iters : Nat
  unsat : Nat

/-- At most `fuel` iterations, until the syndrome is zero (R171). [DEDUCED, assumption 22] -/
def Ldpc.run (c : Ldpc) : Nat → Nat → Array Int × Array Int → Decoded
  | 0, done, st => ⟨(hard st.2).toList.take c.k, done, c.unsat (hard st.2)⟩
  | f + 1, done, st =>
    let st := c.iter st
    let u := c.unsat (hard st.2)
    if u = 0 then ⟨(hard st.2).toList.take c.k, done + 1, 0⟩ else c.run f (done + 1) st

/-- The decode of `llr` within `maxit` iterations. -/
def Ldpc.decode (c : Ldpc) (llr : List Int) (maxit : Nat) : Decoded :=
  let entries := c.rows.foldl (fun a r => a + r.length) 0
  c.run maxit 0 ((List.replicate (entries * c.z) (0 : Int)).toArray, llr.toArray)

/-- An LLR byte: two's complement, -128 read as -127 (R170). -/
def llrOf (b : Byte) : Int := max (-127) b.toInt

/-- The bits of bytes, most significant first (R160). -/
def bitsOf (bs : List Byte) : List Bool := bs.flatMap fun b => (List.range 8).map fun i => b.getLsbD (7 - i)

/-- Bytes of bits, most significant first. -/
def bytesOf : List Bool → List Byte
  | a :: b :: c :: d :: e :: f :: g :: h :: r =>
    BitVec.ofNat 8 (a.toNat * 128 + b.toNat * 64 + c.toNat * 32 + d.toNat * 16 + e.toNat * 8 + f.toNat * 4 + g.toNat * 2
      + h.toNat) :: bytesOf r
  | _ => []

/-- The header CRC-6 of R162. -/
def crc6 (w : Word) : Nat :=
  (List.range 26).foldl (fun crc j =>
    let fb := Nat.xor (crc / 32) (if bit w (31 - j) then 1 else 0) % 2
    let crc := crc * 2 % 64
    if fb = 1 then Nat.xor crc 3 else crc) 0

/-- A header word with its CRC (R161). -/
def hdrWithCrc (w : Word) : Word := setFld w 5 0 (crc6 w)

/-- Fields of a header word (R161). -/
def hdrVer (w : Word) : Nat := fld w 31 28
def hdrType (w : Word) : Nat := fld w 27 25
def hdrKsize (w : Word) : Nat := fld w 24 23
def hdrRate (w : Word) : Nat := fld w 22 21
def hdrNcw (w : Word) : Nat := fld w 20 16 + 1
def hdrPair (w : Word) : Nat := fld w 15 14
def hdrMic16 (w : Word) : Bool := bit w 13

/-- The payload code of a header word. -/
def hdrPay (w : Word) : Ldpc := payCode (hdrKsize w) (hdrRate w)

/-- Symbols of the payload: NCW x n / b. -/
def paySymbols (w : Word) (mod4 : Bool) : Nat := hdrNcw w * (hdrPay w).n / (if mod4 then 2 else 1)

/-- What a receiver or an encoder says of a header word (R163, R177): none when it is acceptable. -/
def hdrBad (w : Word) : Option Code :=
  if hdrVer w ≠ 1 then some .versionMismatch
  else if 4 < hdrType w || hdrPair w = 3 then some .badArgument
  else none

end Sys2Proof.Machine
end

