-- ==== Sys2Proof/Machine/Frame.lean ====
section
/-! DEFINITION. Received frames: the byte stream of R164, the CCM inputs of R165, the checks of R189 and the discards of
R201. -/
namespace Sys2Proof.Machine

/-- The addressing block: bytes 0 to 9 of payload codeword 0. -/
def RxFrame.block (f : RxFrame) : List Byte := (tabGet [] f.cws 0).take 10
def RxFrame.devid (f : RxFrame) : Nat := beNat (f.block.take 4)
def RxFrame.epoch (f : RxFrame) : Nat := beNat ((f.block.drop 4).take 1)
def RxFrame.seq (f : RxFrame) : Nat := beNat ((f.block.drop 5).take 3)
def RxFrame.length (f : RxFrame) : Nat := beNat ((f.block.drop 8).take 2)
/-- TYPE of the header. -/
def RxFrame.type (f : RxFrame) : Nat := hdrType f.hdr
/-- Bytes of the CCM tag. -/
def micLen (hdr : Word) : Nat := if hdrMic16 hdr then 16 else 8
/-- Every payload codeword has been delivered. -/
def RxFrame.whole (f : RxFrame) : Bool := (List.range (hdrNcw f.hdr)).all fun j => (f.cws.lookup j).isSome
/-- The byte stream of the codewords. -/
def RxFrame.stream (f : RxFrame) : List Byte := (List.range (hdrNcw f.hdr)).flatMap fun j => tabGet [] f.cws j

/-- The geometry rule of R164 for `n` bytes of ciphertext under header `hdr`. -/
def geometryOk (hdr : Word) (n : Nat) : Bool :=
  let k := (hdrPay hdr).k / 8
  decide ((hdrNcw hdr - 1) * k < 10 + n + micLen hdr) && decide (10 + n + micLen hdr ≤ hdrNcw hdr * k)

/-- A received frame's LENGTH fits its type (R189). -/
def RxFrame.lengthOk (f : RxFrame) : Bool :=
  match f.type with
  | 0 => decide (4 ≤ f.length) && decide (f.length + micLen f.hdr ≤ 8182)
  | 3 => f.length == 0
  | 4 => f.length == 12
  | _ => false

/-- The nonce of R165; `base` is T bit 7, a base station's frame. -/
def frameNonce (devid epoch seq type : Nat) (base : Bool) : List Nat :=
  beList 4 devid ++ [epoch] ++ beList 3 seq ++ [type + base.toNat * 128] ++ beList 4 Config.syncWord.toNat

/-- PAIR_ID of a header (R161). -/
def pairId (devid seq : Nat) : Nat := (devid ^^^ seq) % 128

/-- The addressing block of a frame. -/
def frameBlock (devid epoch seq len : Nat) : List Nat := beList 4 devid ++ [epoch] ++ beList 3 seq ++ beList 2 len

/-- The payload byte stream of a frame that the GTH-7 sends: addressing block, ciphertext, tag and padding (R164, R165). -/
def sealFrame (key : List Nat) (hdr : Word) (devid epoch seq : Nat) (p : List Nat) : List Byte :=
  let blk := frameBlock devid epoch seq p.length
  let ct := ccmSeal key (frameNonce devid epoch seq (hdrType hdr) true) (beList 4 hdr.toNat ++ blk) p (micLen hdr)
  let all := blk ++ ct
  bytesNat (all ++ List.replicate (hdrNcw hdr * ((hdrPay hdr).k / 8) - all.length) 0)

/-- What CCM decryption of a received frame gives: its plaintext when the tag matches. -/
def RxFrame.openWith (f : RxFrame) (key : List Nat) : Option (List Byte) :=
  let body := f.stream.drop 10
  let c := natsOf (body.take f.length)
  let tag := natsOf ((body.drop f.length).take (micLen f.hdr))
  (ccmOpen key (frameNonce f.devid f.epoch f.seq f.type f.beacon) (beList 4 f.hdr.toNat ++ natsOf f.block) c tag).map
    bytesNat

/-- The frame of context `i`. -/
def State.rxFrame (s : State) (i : Nat) : Option RxFrame := s.lant.rx.lookup i
/-- The frame of context `i` replaced. -/
def State.setRx (s : State) (i : Nat) (f : RxFrame) : State :=
  { s with lant := { s.lant with rx := tabSet s.lant.rx i f } }
/-- The frame of context `ctx` with sync mark `sync` changed, whether it holds the context's place or waits for it. -/
def State.onFrame (s : State) (ctx : Nat) (sync : Word) (g : RxFrame → RxFrame) : State :=
  let h := fun (x : Nat × RxFrame) => if x.1 == ctx && x.2.syncLt == sync then (x.1, g x.2) else x
  { s with lant := { s.lant with rx := s.lant.rx.map h, behind := s.lant.behind.map h } }

/-- The frame of context `i` discarded or done; the next frame of the context takes its place. -/
def State.dropRx (s : State) (i : Nat) : State :=
  let s := { s with ciph := { s.ciph with frames := s.ciph.frames.filter fun x => x != i } }
  match s.lant.behind.find? fun x => x.1 == i with
  | some x => { s with lant := { s.lant with rx := tabSet s.lant.rx i x.2, behind := s.lant.behind.erase x } }
  | none => { s with lant := { s.lant with rx := tabDel s.lant.rx i } }

/-- A frame's cipher job has ended (R201). -/
def State.frameEnd (s : State) (i : Nat) (c : Code) (plain : List Byte) : State :=
  match s.rxFrame i with
  | none => s
  | some f =>
    match c with
    | .ok => s.setRx i { f with stage := .verified, plain := plain }
    | .tagFail => (s.dropRx i).bump LANT_CNT_TAG_FAIL
    | .keySpent => (s.dropRx i).bump LANT_CNT_KEY
    | .keyGone => (s.dropRx i).bump LANT_CNT_KEY
    | .fenced => (s.dropRx i).bump LANT_CNT_FENCED
    | _ => s.dropRx i

end Sys2Proof.Machine
end

