-- ==== Sys2Proof/Machine/Air.lean ====
section
/-! DEFINITION. The frame on air: rates and deviations, symbol maps, sync variants, the transmit image, and the modulator
(R149, R150, R156 to R160, R177). -/
namespace Sys2Proof.Machine

/-- Symbol rate of a class in sym/s (R156). -/
def clsRs (c : Nat) : Nat :=
  match c with
  | 0 => 1200 | 1 => 2400 | 2 => 4800 | 3 => 12500 | 4 => 25000 | 5 => 50000 | 6 => 100000 | _ => 200000

/-- The deviation d of 2-GFSK in Hz: 0.5 Rs (R156). -/
def devTwo (c : Nat) : Nat := clsRs c / 2
/-- The outer level D of 4-GFSK in Hz: 0.75 Rs (R156). -/
def devOuter (c : Nat) : Nat := 3 * clsRs c / 4
/-- The inner level D / 3 of 4-GFSK in Hz (R156). -/
def devInner (c : Nat) : Nat := clsRs c / 4

/-- The level of a two-level symbol (R157, R158). -/
def levelTwo (c : Nat) (mod4 b : Bool) : Int :=
  let d : Int := if mod4 then devOuter c else devTwo c
  if b then d else -d

/-- The level of a dibit, its earlier bit first (R157). -/
def levelFour (c : Nat) (a b : Bool) : Int :=
  match a, b with
  | false, false => devOuter c
  | false, true => devInner c
  | true, true => -devInner c
  | true, false => -devOuter c

/-- The levels of a payload's bits (R157, R158). -/
def payLevels (c : Nat) (mod4 : Bool) : List Bool → List Int
  | a :: b :: r => if mod4 then levelFour c a b :: payLevels c mod4 r
      else levelTwo c false a :: levelTwo c false b :: payLevels c mod4 r
  | [a] => if mod4 then [] else [levelTwo c false a]
  | [] => []

/-- The variant of a sync word that signals payload map and BT (R159). -/
def syncVariant (w : Word) (mod4 bt3 : Bool) : Word :=
  w ^^^ (if mod4 then 0xFFFF0000 else 0) ^^^ (if bt3 then 0x0000FFFF else 0)

/-! ### Transmit images (R177) -/

/-- A link: class, MOD4, BT3 and MIC16. -/
structure Link where
  cls : Nat
  mod4 : Bool
  bt3 : Bool
  mic16 : Bool
  deriving DecidableEq, Repr

/-- A header word with its CRC (R161, R162). -/
def headerOf (type ksize rate ncw : Nat) (mic16 : Bool) (devid seq : Nat) : Word :=
  hdrWithCrc (BitVec.ofNat 32 (2 ^ 28 + type * 2 ^ 25 + ksize * 2 ^ 23 + rate * 2 ^ 21 + (ncw - 1) * 2 ^ 16
    + mic16.toNat * 2 ^ 13 + pairId devid seq * 64))

/-- The transmit image of a frame (R177): its bytes from offset 0. -/
def imageOf (l : Link) (hdr : Word) (stream : List Byte) : List Byte :=
  let c := hdrPay hdr
  let w0 := l.mod4.toNat * 2 ^ 31 + l.bt3.toNat * 2 ^ 30 + l.cls * 2 ^ 27 + (96 + paySymbols hdr l.mod4)
  let cws := pieces (c.k / 8) (hdrNcw hdr) stream
  leBytes 4 w0 ++ leBytes 4 Config.syncWord.toNat ++ List.replicate 8 0 ++
    bytesOf (hdrCode.encode (bitsOf (beBytes 4 hdr.toNat))).toList ++
    cws.flatMap fun b => bytesOf (c.encode (bitsOf b)).toList

/-- Word `i` of an image. -/
def imageWord (img : List Byte) (i : Nat) : Word := BitVec.ofNat 32 (leNat ((img.drop (4 * i)).take 4))
/-- MOD4, BT3, CLASS and SYMBOLS of an image. -/
def imageMod4 (img : List Byte) : Bool := bit (imageWord img 0) 31
def imageBt3 (img : List Byte) : Bool := bit (imageWord img 0) 30
def imageCls (img : List Byte) : Nat := fld (imageWord img 0) 29 27
def imageSymbols (img : List Byte) : Nat := fld (imageWord img 0) 20 0

/-- Bytes of a transmit image with word 0 `w0` (R177). -/
def imageLen (w0 : Word) : Nat := 0x1C + ((fld w0 20 0 - 96) * (if bit w0 31 then 2 else 1) + 7) / 8

/-- The 32 preamble bits: 1, 0, 1, 0, from 1. -/
def preambleBits : List Bool := (List.range 32).map fun i => i % 2 == 0

/-- The bits that go out with two levels: preamble, the sync word's variant and the header codeword (R158 to R160). -/
def headBits (img : List Byte) : List Bool :=
  preambleBits ++ bitsOf (beBytes 4 (syncVariant (imageWord img 1) (imageMod4 img) (imageBt3 img)).toNat) ++
    bitsOf ((img.drop 16).take 12)

/-- The payload's coded bits in codeword order (R160). -/
def payBits (img : List Byte) : List Bool :=
  (bitsOf (img.drop 28)).take ((imageSymbols img - 96) * (if imageMod4 img then 2 else 1))

/-- The levels of a frame's symbols in Hz, in the order sent (R157, R158). -/
def frameLevels (img : List Byte) : List Int :=
  (headBits img).map (levelTwo (imageCls img) (imageMod4 img)) ++ payLevels (imageCls img) (imageMod4 img) (payBits img)

/-! ### The modulator (R149, R150) -/

/-- COEF0 to COEF16 spread over the 33 taps: the sum that divides a set (R150). -/
def tapSum (cs : List Nat) : Nat := cs.headD 0 + 2 * (cs.drop 1).sum

/-- The level at one of 8 samples per symbol; before and after the frame it is unknown. [DESIGN CHOICE, assumption
158] -/
def levelAt (ls : List Int) (i : Int) : Int :=
  if i < 0 then Config.edgeLevel false else (ls[(i / 8).toNat]?).getD (Config.edgeLevel true)

/-- The shaped frequency at sample `i`, units of 2^-16 Hz (R150). -/
def shapedAt (cs : List Nat) (ls : List Int) (i : Nat) : Int :=
  let at_ := fun (k : Int) => levelAt ls ((i : Int) + k)
  let s := ((cs.zip (List.range cs.length)).map fun (e : Nat × Nat) =>
    (e.1 : Int) * (if e.2 = 0 then at_ 0 else at_ e.2 + at_ (-(e.2 : Int)))).sum
  roundDiv (65536 * s) (tapSum cs)

/-- The shaped frequencies of a frame at 8 samples per symbol, units of 2^-16 Hz. -/
def shapedFreqs (cs : List Nat) (img : List Byte) : List Int :=
  let ls := frameLevels img
  (List.range (8 * ls.length)).map (shapedAt cs ls)

/-- Frequencies integrated to phases after a shift by `ofs` Hz; `acc` is in 2^-16 Hz samples. -/
def phasesOf (rs8 : Nat) (ofs : Int) : Int → List Int → List Int
  | _, [] => []
  | acc, f :: r => halfTurn (roundDiv (acc * 65536) rs8) :: phasesOf rs8 ofs (acc + f + ofs * 65536) r

/-- The samples that the modulator makes of an image, 8 per symbol, shifted to a channel `ofs` Hz from the lamp centre;
the scale is 2^30 (R149). -/
def airSamples (cs : List Nat) (img : List Byte) (ofs : Int) : List Cx :=
  (phasesOf (8 * clsRs (imageCls img)) ofs 0 (shapedFreqs cs img)).map expi

/-- The stream for the DAC at 76.8 MS/s: those samples interpolated by a filter that the spec does not give. [DESIGN
CHOICE, assumption 158] -/
def dacStream (cs : List Nat) (img : List Byte) (ofs : Int) : List Cx :=
  Config.interpolate (imageCls img) (airSamples cs img ofs)

end Sys2Proof.Machine
end

