-- ==== Sys2Proof/Machine/WickCore.lean ====
section
/-! DEFINITION. The state of one Wick core or Lantern: registers through rotation, results in flight, start, halt and
fault (R222 to R251). -/
namespace Sys2Proof.Machine

/-- Reset value of wsr: RND convergent, FRAC and DSAT on a Wick; only DSAT on a Lantern (R225). -/
def wsrReset (k : Nat) : BitVec 32 := if k < 64 then 0xA8 else 0x08

/-- A core as reset leaves it. [DESIGN CHOICE, assumption 10] -/
def coreReset (k : Nat) : WCore := { wsr := wsrReset k }

/-- Core `k`: Wicks 0 to 63, Lanterns 64 to 69. -/
def State.core (s : State) (k : Nat) : WCore := tabGet (coreReset k) s.cores k

/-- The state with core `k` replaced. -/
def State.setCore (s : State) (k : Nat) (c : WCore) : State := { s with cores := tabSet s.cores k c }

/-- Core `k` runs the W profile (R221). -/
def isW (k : Nat) : Bool := k < 64

/-- Words of instruction memory (R221). -/
def imemSize (k : Nat) : Nat := if isW k then 16384 else 8192

/-- The unit whose fence stops core `k`: its Wick group, or the lamp of a Lantern (R25, R251). -/
def coreUnit (k : Nat) : Nat := if isW k then 8 + k / 8 else (k - 64) / 2

/-- The power domain of core `k` (R411). -/
def coreDomain (k : Nat) : Nat := if isW k then 5 + k / 8 else 13

/-- Core `k` is in service: not fenced, and its domain runs. -/
def State.coreIn (s : State) (k : Nat) : Bool := s.inService (coreUnit k) && s.domOn (coreDomain k)

/-- The physical register that logical `d n` names (R223). -/
def physReg (rrb : Fin 48) (n : Nat) : Nat := if n < 16 then n else 16 + (n - 16 + rrb.val) % 48

/-- One rotation (R223). -/
def WCore.rotate (c : WCore) : WCore :=
  { c with rrb := ⟨(c.rrb.val + 47) % 48, Nat.mod_lt _ (by decide)⟩ }

/-- A result put in flight behind those due no later, so that of two that land together the later-issued is kept. -/
def flightIns (x : InFlight) : List InFlight → List InFlight
  | [] => [x]
  | y :: ys => if x.due < y.due then x :: y :: ys else y :: flightIns x ys

/-- Results due by cycle `n` land (R240, R241). -/
def WCore.land (c : WCore) (n : Nat) : WCore :=
  { c with
    d := (c.inflight.takeWhile fun x => decide (x.due ≤ n)).foldl (fun t x => tabSet t x.reg x.val) c.d
    inflight := c.inflight.dropWhile fun x => decide (x.due ≤ n) }

/-- Every result in flight lands: the end of a held instruction, a halt or a pre-emption (R241, R261). -/
def WCore.drain (c : WCore) : WCore :=
  { c with
    d := c.inflight.foldl (fun t x => tabSet t x.reg x.val) c.d
    inflight := []
    cyc := c.cyc + 8 }

/-- Physical register `r` as it reads now. -/
def WCore.phys (c : WCore) (r : Nat) : BitVec 24 := tabGet 0 c.d r

/-- Logical data register `n` as an instruction that issues now reads it. -/
def WCore.dr (c : WCore) (n : BitVec 6) : BitVec 24 := c.phys (physReg c.rrb n.toNat)

/-- A result for logical register `n`, readable `lat` issue cycles on; the name is resolved now (R224). -/
def WCore.res (c : WCore) (n : BitVec 6) (v : BitVec 24) (lat : Nat) : WCore :=
  { c with inflight := flightIns ⟨physReg c.rrb n.toNat, v, c.cyc + lat⟩ c.inflight }

/-- A data register written by an instruction that held issue until now: earlier results have landed (R241, R261).
[DEDUCED, assumption 87] -/
def WCore.put (c : WCore) (n : BitVec 6) (v : BitVec 24) : WCore :=
  let c := c.drain
  { c with d := tabSet c.d (physReg c.rrb n.toNat) v }

/-- Accumulator `a`. -/
def WCore.ac (c : WCore) (a : Nat) : BitVec 56 := tabGet 0 c.acc a

/-- Accumulator `a` as extraction and moves read it: 2 cycles behind a write (R240). -/
def WCore.acMove (c : WCore) (a : Nat) : BitVec 56 :=
  let o := tabGet (0, 0) c.accOld a
  if c.cyc < o.2 then o.1 else c.ac a

/-- An accumulator written. -/
def WCore.setAc (c : WCore) (a : Nat) (v : BitVec 56) : WCore :=
  { c with
    accOld := tabSet c.accOld a (c.ac a, c.cyc + 2)
    acc := tabSet c.acc a v }

/-- Pointer register `k`. -/
def WCore.ptr (c : WCore) (k : BitVec 4) : BitVec 16 := tabGet 0 c.p k.toNat
/-- A pointer register written. -/
def WCore.setPtr (c : WCore) (k : BitVec 4) (v : BitVec 16) : WCore := { c with p := tabSet c.p k.toNat v }

/-- Physical word address of data memory on core `k` (R227). -/
def dmemAddr (k a : Nat) : Nat := if isW k then a % 65536 else a % 16384

/-- A word of data memory. -/
def WCore.ld (c : WCore) (k a : Nat) : BitVec 24 := tabGet 0 c.dmem (dmemAddr k a)
/-- A word of data memory written. -/
def WCore.st' (c : WCore) (k a : Nat) (v : BitVec 24) : WCore := { c with dmem := tabSet c.dmem (dmemAddr k a) v }

/-- Registers as R251 sets them at a start at `entry`; memories, DMA channels and status stay. -/
def WCore.begin (c : WCore) (k entry : Nat) : WCore :=
  { c with
    pc := entry
    d := []
    acc := []
    accOld := []
    p := []
    cb := []
    rrb := 0
    loops := []
    wsr := wsrReset k
    inflight := []
    cyc := c.cyc + 8
    wait := none }

/-- The next pc after a non-branch, with the loop that ends there (R242). [DEDUCED, assumption 57] -/
def WCore.next (c : WCore) : WCore :=
  let c := { c with cyc := c.cyc + 1 }
  match c.loops with
  | l :: ls =>
    if l.last = c.pc then
      let n := tabGet (0 : BitVec 16) c.lc l.lc - 1
      let c := { c with lc := tabSet c.lc l.lc n }
      let c := if l.rot then c.rotate else c
      if n = 0 then { c with loops := ls, pc := c.pc + 1 } else { c with pc := l.first }
    else { c with pc := c.pc + 1 }
  | [] => { c with pc := c.pc + 1 }

/-- The core stops issuing after its pending results land. A write that the fabric holds stays there (R279). -/
def WCore.halt (c : WCore) : WCore := { c.drain with st := .halted, wait := none }

/-- A fault halts the core before the instruction at its pc (R245). -/
def WCore.faulted (c : WCore) (code : Nat) : WCore :=
  { c.drain with st := .faulted, wait := none, fault := true, faultCode := code, faultPc := c.pc }

/-- WICKn_CTL.RUN and LANTk_CTL.RUN. -/
def WCore.running (c : WCore) : Bool := decide (c.st = .running)

/-- WICKn_STATUS.STATE: 0 halted, 1 running, 2 waiting, 3 faulted, 4 fenced (R256, R261). -/
def State.coreState (s : State) (k : Nat) : Nat :=
  if !s.inService (coreUnit k) then 4
  else
    let c := s.core k
    match c.st with
    | .halted => 0
    | .faulted => 3
    | .running =>
      match c.wait with
      | some .dispatch | some (.time _) | some (.radio _ _) => 2
      | _ => 1

end Sys2Proof.Machine
end

