-- ==== Sys2Proof/Machine/Chandler.lean ====
section
/-! DEFINITION. Chandler: descriptors, readiness, selection, flows, dispatch, pre-emption, delays, pools, commands and
completions (R288 to R312). -/
namespace Sys2Proof.Machine

/-- Descriptor `i`. -/
def State.desc (s : State) (i : Nat) : Desc := tabGet {} s.chnd.descs i

/-- The state with descriptor `i` replaced. -/
def State.setDesc (s : State) (i : Nat) (d : Desc) : State :=
  { s with chnd := { s.chnd with descs := tabSet s.chnd.descs i d } }

/-- Descriptor `i` changed by `f`. -/
def State.onDesc (s : State) (i : Nat) (f : Desc → Desc) : State := s.setDesc i (f (s.desc i))

/-- READY tasks of list `l`, oldest first. -/
def State.readyOf (s : State) (l : Nat) : List Nat := tabGet [] s.chnd.ready l

/-- CHND_TICK (R302). -/
def State.tick (s : State) : Nat := s.raw / 1000 % 2 ^ 32

/-- A wake tick is due (R302). -/
def State.tickDue (s : State) (w : Nat) : Bool := decide ((s.tick + 2 ^ 32 - w) % 2 ^ 32 < 2 ^ 31)

/-- Fields of CHND_LISTl_CFG. -/
def State.listCores (s : State) (l : Nat) : Nat := s.rf (CHND_LIST_CFG l) 31 24
def State.listHwm (s : State) (l : Nat) : Nat := s.rf (CHND_LIST_CFG l) 23 12
def State.listGroup (s : State) (l : Nat) : Nat := s.rf (CHND_LIST_CFG l) 11 8
def State.listLevel (s : State) (l : Nat) : Nat := s.rf (CHND_LIST_CFG l) 7 5
def State.listPre (s : State) (l : Nat) : Bool := s.rb (CHND_LIST_CFG l) 4

/-- Level of a descriptor's list. -/
def State.levelOf (s : State) (i : Nat) : Nat := s.listLevel (s.desc i).list

/-- Descriptor `i` lies in the pool of some lamp (R305). -/
def State.inPool (s : State) (i : Nat) : Bool :=
  (List.range 3).any fun k =>
    let b := s.rf (CHND_POOL_RANGE k) 11 0
    let n := min 1024 (s.rf (CHND_POOL_RANGE k) 26 16)
    decide (b ≤ i) && decide (i < b + n)

/-- An ordered flow's sequence number for a task that becomes READY (R296). -/
def State.giveSeq (s : State) (i : Nat) : State :=
  let d := s.desc i
  if d.flowEn && d.flow < 512 then
    let n := tabGet 0 s.chnd.flowNext d.flow
    let s := { s with chnd := { s.chnd with
      flowNext := tabSet s.chnd.flowNext d.flow ((n + 1) % 65536)
      flowOut := tabSet s.chnd.flowOut d.flow (tabGet [] s.chnd.flowOut d.flow ++ [n]) } }
    s.onDesc i fun d => { d with seq := some n }
  else s

/-- A task becomes READY at the tail of its list (R293). -/
def State.makeReady (s : State) (i : Nat) (why : ReadyBy) : State :=
  let s := s.onDesc i fun d => { d with st := .ready, readyBy := why }
  let l := (s.desc i).list
  ({ s with chnd := { s.chnd with ready := tabSet s.chnd.ready l (s.readyOf l ++ [i]) } }).giveSeq i

/-- An IDLE task that is due becomes READY: by its flag, which clears, or by its credits (R291, R292). -/
def State.tryReady (s : State) (i : Nat) : State :=
  let d := s.desc i
  if d.st ≠ .idle then s
  else if d.waitFlag then
    if s.chnd.flags.getLsbD d.flag then
      { s with chnd := { s.chnd with flags := s.chnd.flags &&& ~~~(1#64 <<< d.flag) } }.makeReady i .flag
        |>.event (32 * 7 + 5)
    else s
  else if d.thresh ≤ d.dep then s.makeReady i .credits
  else s

/-- Credits added to DEP (R291). -/
def State.advance (s : State) (i n : Nat) : State :=
  let d := s.desc i
  if d.st = .free then s.bump CHND_CNT_SAT
  else
    let v := d.dep + n
    let s := s.onDesc i fun d => { d with dep := min 65535 v, sat := d.sat || decide (65535 < v) }
    let s := if 65535 < v then s.bump CHND_CNT_SAT else s
    s.tryReady i

/-- The list of an ordered flow without sequence number `q`. -/
def State.dropSeq (s : State) (f q : Nat) : State :=
  { s with chnd := { s.chnd with
    flowOut := tabSet s.chnd.flowOut f ((tabGet [] s.chnd.flowOut f).filter fun x => x != q) } }

/-- A task leaves its ready list. -/
def State.unready (s : State) (i : Nat) : State :=
  let l := (s.desc i).list
  { s with chnd := { s.chnd with ready := tabSet s.chnd.ready l ((s.readyOf l).filter fun x => x != i) } }

/-- A task leaves its delay list. -/
def State.undelay (s : State) (i : Nat) : State :=
  let l := (s.desc i).dlist
  { s with chnd := { s.chnd with
    delays := tabSet s.chnd.delays l ((tabGet [] s.chnd.delays l).filter fun x => x != i) } }

/-- The core that runs descriptor `i` loses it and waits for its next dispatch or resume (R309). -/
def State.leaveCore (s : State) (i : Nat) : State :=
  match (List.range 64).find? fun k => (s.core k).task == some i with
  | some k =>
    let c := (s.core k).drain
    s.setCore k { c with
      task := none
      wait := if c.running then some .dispatch else none }
  | none => s

/-- A pre-empted task leaves its core's frame (R309). -/
def State.leaveFrame (s : State) (i : Nat) : State :=
  match (List.range 64).find? fun k => (s.core k).frames.any fun f => f.desc == i with
  | some k =>
    let c := s.core k
    s.setCore k { c with frames := c.frames.filter fun (f : Frame) => f.desc != i }
  | none => s

/-- Position of a descriptor in a delay list sorted by wake tick, behind those that wake no later. -/
def State.delayIns (s : State) (i w : Nat) : List Nat → List Nat
  | [] => [i]
  | j :: js =>
    if ((s.desc j).wake + 2 ^ 32 - w) % 2 ^ 32 < 2 ^ 31 && (s.desc j).wake != w then i :: j :: js
    else j :: s.delayIns i w js

/-- An IDLE descriptor enters its delay list (R303). -/
def State.enterDelay (s : State) (i w : Nat) : State :=
  let d := s.desc i
  let l := tabGet [] s.chnd.delays d.dlist
  let s := s.onDesc i fun d => { d with st := .delayed, wake := w, delayRec := none, since := s.raw / 1000 }
  { s with chnd := { s.chnd with delays := tabSet s.chnd.delays d.dlist (s.delayIns i w l) } }

/-- A delay list has room (R303). -/
def State.delayRoom (s : State) (i : Nat) : Bool :=
  decide ((tabGet [] s.chnd.delays (s.desc i).dlist).length < 512)

/-- A descriptor becomes FREE; DEP is 0 and nothing of a run remains. -/
def State.toFree (s : State) (i : Nat) : State :=
  s.onDesc i fun d => { d with
    st := .free, dep := 0, credits := 0, seq := none, delayRec := none, held := none, pooled := false
    orphan := false, rebound := false }

/-- A run has ended: the descriptor goes IDLE, from RUNNING to a recorded delay, or FREE (R290, R305). -/
def State.settleDesc (s : State) (i : Nat) (free : Bool) : State :=
  let d := s.desc i
  if free || d.st = .retiring || d.orphan then s.toFree i
  else
    let s := s.onDesc i fun d => { d with st := .idle, credits := 0, seq := none, held := none, delayRec := none }
    match d.delayRec with
    | some w => if d.st = .running && s.delayRoom i then s.enterDelay i w else s.tryReady i
    | none => s.tryReady i

/-- The completion ring is full (R311). -/
def State.cplFull (s : State) : Bool :=
  (s.rf CHND_CPL_IDX 25 16 + 1) % 1024 == s.rf CHND_CPL_IDX 9 0

/-- A completion record is dropped (R308). -/
def State.cplDrop (s : State) : State := (s.bump CHND_CNT_CPL_DROP).pulse (irqNo 9 1)

/-- A completion record of a run committed at `tick` (R308). [DEDUCED, assumption 53] -/
def State.cplRecord (s : State) (i core : Nat) (code : Code) (tick : Nat) : State :=
  if s.cplFull then s.cplDrop
  else
    let wr := s.rf CHND_CPL_IDX 25 16
    let w0 := code.val * 2 ^ 24 + (s.desc i).gen.toNat * 2 ^ 16 + i
    let w1 := core * 2 ^ 26 + tick % 2 ^ 26
    match s.store ((s.reg CHND_CPL_BASE).toNat + 8 * wr) (leBytes 4 w0 ++ leBytes 4 w1) with
    | some s => (s.setRf CHND_CPL_IDX 25 16 ((wr + 1) % 1024)).pulse (irqNo 9 0)
    | none => s.cplDrop

/-- Every lower number of the ordered flow has completed or been withdrawn (R296). -/
def State.seqFirst (s : State) (i : Nat) : Bool :=
  let d := s.desc i
  match d.seq with
  | some q => (tabGet [] s.chnd.flowOut d.flow).head? == some q
  | none => true

/-- Steps 2 to 4 of R307 for a run committed at `tick`. -/
def State.releaseCpl (s : State) (i core : Nat) (code : Code) (tick : Nat) : State :=
  let d := s.desc i
  let s := if code = .ok && d.succEn then s.advance d.succ 1 else s
  let s := if d.notify || code ≠ .ok then s.cplRecord i core code tick else s
  let s := match d.seq with
    | some q => s.dropSeq d.flow q
    | none => s
  s.settleDesc i false

/-- A run's completion is committed (R307): GEN advances, and the rest waits while its ordered flow holds it. -/
def State.complete (s : State) (i core : Nat) (code : Code) : State :=
  let s := (s.onDesc i fun d => { d with gen := d.gen + 1 }).event (32 * 7 + 3)
  if s.seqFirst i then s.releaseCpl i core code s.tick
  else s.onDesc i fun d => { d with held := some (code, core, s.tick) }

/-- A run or readiness is withdrawn (R309): no record, no successor. `keep` is R310's halted core: credits go back and
a pool descriptor keeps its task. -/
def State.withdraw (s : State) (i : Nat) (keep : Bool) : State :=
  let d := s.desc i
  let s := match d.st with
    | .ready => s.unready i
    | .delayed => s.undelay i
    | .running => s.leaveCore i
    | .retiring => (s.leaveCore i).leaveFrame i
    | .preempted => s.leaveFrame i
    | _ => s
  let s := match d.seq with
    | some q => s.dropSeq d.flow q
    | none => s
  let back := keep && d.st != .retiring
  let s := s.onDesc i fun d => { d with
    gen := d.gen + 1
    seq := none
    dep := if back then min 65535 (d.dep + d.credits) else 0 }
  let s := (s.bump CHND_CNT_ABORT).event (32 * 7 + 6)
  let again := back && d.credits == 0 && d.readyBy != .credits
  let s := s.settleDesc i (!keep && (d.pooled || s.inPool i))
  if again && (s.desc i).st == .idle then s.makeReady i d.readyBy else s

/-- An abort of a generation under the completion-wins rule (R309). -/
def State.abortRun (s : State) (i : Nat) (gen : BitVec 8) : State × Code :=
  let d := s.desc i
  let live := d.st = .ready || d.st = .running || d.st = .preempted || d.st = .delayed || d.st = .retiring
  if live && d.held.isNone && d.gen = gen then (s.withdraw i false, .ok) else (s, .tooLate)

/-- R310: a RUN = 0 write or a halt withdraws the running task and every task pre-empted on core `k`. -/
def State.haltTasks (s : State) (k : Nat) : State :=
  let c := s.core k
  let all := c.task.toList ++ c.frames.map (·.desc)
  let s := all.foldl (fun s i => s.withdraw i true) s
  let c := s.core k
  s.setCore k { c with task := none, frames := [] }

/-- A run ends with a code on a fence or a fault (R310). -/
def State.endRun (s : State) (i core : Nat) (code : Code) (credits : Bool) : State :=
  let s := s.onDesc i fun d => { d with
    dep := if credits && d.st != .retiring then min 65535 (d.dep + d.credits) else d.dep }
  s.complete i core code

/-- Tasks bound to a fenced core lose BIND and carry REBOUND (R310). -/
def State.rebind (s : State) (k : Nat) : State :=
  s.chnd.descs.foldl (fun s (e : Nat × Desc) =>
    if e.2.bind && e.2.core == k && e.2.st != .free then
      s.onDesc e.1 fun d => { d with bind := false, rebound := true }
    else s) s

/-- Core `k` of a fenced Wick group: its runs and its transfers end with FENCED and it halts (R26, R251, R310).
[DEDUCED, assumption 55] -/
def State.fenceCore (s : State) (k : Nat) : State :=
  let c := s.core k
  let all := c.task.toList ++ c.frames.map (·.desc)
  let dma := c.dma.map fun e => if e.2.busy then (e.1, { e.2 with busy := false, code := .fenced }) else e
  let s := s.setCore k { c.halt with task := none, frames := [], dma }
  let s := s.rebind k
  all.foldl (fun s i => s.endRun i k .fenced true) s

/-- Core `k` faults (R245): its task ends with BAD_ARGUMENT; tasks pre-empted on it end in the same way. [DEDUCED,
assumption 55] -/
def State.faultCore (s : State) (k code : Nat) : State :=
  let c := s.core k
  let all := c.task.toList ++ c.frames.map (·.desc)
  let s := s.setCore k { c.faulted code with task := none, frames := [] }
  all.foldl (fun s i => s.endRun i k .badArgument false) s

/-- DESCRIPTOR_WRITE: word `w` of descriptor `i` (R288, R289). -/
def State.descWrite (s : State) (i w : Nat) (v : Word) : State :=
  if w = 7 then s
  else if (s.desc i).st ≠ .free then s.setRb CHND_STATUS 31 true
  else
    s.onDesc i fun d =>
      match w with
      | 0 => { d with list := fld v 19 14, entry := fld v 13 0 }
      | 1 => { d with thresh := fld v 31 16 }
      | 2 => { d with
          flowEn := bit v 31, flow := fld v 30 21, succEn := bit v 20, succ := fld v 19 8, cost := fld v 7 4
          notify := bit v 3, nopre := bit v 2, drain := bit v 1, waitFlag := bit v 0 }
      | 3 => { d with bind := bit v 31, core := fld v 30 25, dlist := fld v 24 22, flag := fld v 21 16 }
      | 4 => { d with arg0 := BitVec.ofNat 24 (fld v 23 0) }
      | 5 => { d with arg1 := BitVec.ofNat 24 (fld v 23 0) }
      | 6 => { d with arg2 := BitVec.ofNat 24 (fld v 23 0) }
      | _ => d

/-- The number of a descriptor state (R289). -/
def DescSt.val : DescSt → Nat
  | .free => 0 | .idle => 1 | .ready => 2 | .running => 3 | .preempted => 4 | .delayed => 5 | .retiring => 6

/-- Word `w` of a descriptor as it reads (R289). -/
def Desc.word (d : Desc) (w : Nat) : Word :=
  BitVec.ofNat 32 (match w with
    | 0 => d.st.val * 2 ^ 29 + d.gen.toNat * 2 ^ 20 + d.list * 2 ^ 14 + d.entry
    | 1 => d.thresh * 2 ^ 16 + d.dep
    | 2 => d.flowEn.toNat * 2 ^ 31 + d.flow * 2 ^ 21 + d.succEn.toNat * 2 ^ 20 + d.succ * 2 ^ 8 + d.cost * 16
        + d.notify.toNat * 8 + d.nopre.toNat * 4 + d.drain.toNat * 2 + d.waitFlag.toNat
    | 3 => d.bind.toNat * 2 ^ 31 + d.core * 2 ^ 25 + d.dlist * 2 ^ 22 + d.flag * 2 ^ 16 + d.sat.toNat * 2 ^ 15
        + d.lastCore
    | 4 => d.arg0.toNat
    | 5 => d.arg1.toNat
    | 6 => d.arg2.toNat
    | _ => d.wake)

/-- CHND_CMD written with `v`: the state and the code (R306). -/
def State.chndCmd (s : State) (by_ : Ini) (v : Word) : State :=
  let i := fld v 11 0
  let arg := s.reg CHND_ARG
  let d := s.desc i
  let r : State × Code :=
    match fld v 31 28 with
    | 1 =>
      if d.st ≠ .free || (d.thresh = 0 && !d.waitFlag) || d.cost = 0 || s.inPool i then (s, .badArgument)
      else ((s.onDesc i fun d => { d with st := .idle, gen := d.gen + 1, sat := false }).tryReady i, .ok)
    | 2 =>
      let n := fld arg 15 0
      if d.st = .free || n = 0 then (s, .badArgument) else (s.advance i n, .ok)
    | 3 => if d.st = .free then (s, .badArgument) else s.abortRun i (BitVec.ofNat 8 (fld arg 7 0))
    | 4 =>
      if d.st = .ready || d.st = .preempted || d.st = .delayed || d.st = .free then (s, .badArgument)
      else if !s.delayRoom i then (s, .noBuffer)
      else if d.st = .idle then (s.enterDelay i arg.toNat, .ok)
      else (s.onDesc i fun d => { d with delayRec := some arg.toNat }, .ok)
    | 5 =>
      if d.st = .idle then (s.toFree i, .ok)
      else if d.st = .ready then
        let s := s.unready i
        let s := match d.seq with
          | some q => s.dropSeq d.flow q
          | none => s
        (s.toFree i, .ok)
      else if d.st = .delayed then ((s.undelay i).toFree i, .ok)
      else (s, .badArgument)
    | _ => (s, .badArgument)
  r.1.result by_ CHND_RES r.2

/-- A Chandler command of one OP: the value written is the OP and the descriptor. -/
def chndVal (op i : Nat) : Word := BitVec.ofNat 32 (op * 2 ^ 28 + i)

/-- DESCRIPTOR_WRITE (R288). -/
def execDescriptorWrite (t : Nat) (by_ : Ini) (i : Fin 4096) (w : Fin 8) (v : Word) (s : State) : Out :=
  s.access t (CHND_DESC i.val w.val) by_ (fun _ => false) fun s => s.descWrite i.val w.val v

/-- ARM (R306). -/
def execArm (t : Nat) (by_ : Ini) (i : Fin 4096) (s : State) : Out :=
  s.access t CHND_CMD by_ (fun _ => false) fun s => s.chndCmd by_ (chndVal 1 i.val)

/-- ADVANCE (R291, R306): n is CHND_ARG[15:0]. -/
def execAdvance (t : Nat) (by_ : Ini) (i : Fin 4096) (s : State) : Out :=
  s.access t CHND_CMD by_ (fun _ => false) fun s => s.chndCmd by_ (chndVal 2 i.val)

/-- ABORT (R306, R309): GEN is CHND_ARG[7:0]. -/
def execChndAbort (t : Nat) (by_ : Ini) (i : Fin 4096) (s : State) : Out :=
  s.access t CHND_CMD by_ (fun _ => false) fun s => s.chndCmd by_ (chndVal 3 i.val)

/-- DELAY (R303, R306): the wake tick is CHND_ARG. -/
def execDelay (t : Nat) (by_ : Ini) (i : Fin 4096) (s : State) : Out :=
  s.access t CHND_CMD by_ (fun _ => false) fun s => s.chndCmd by_ (chndVal 4 i.val)

/-- FREE (R306). -/
def execFree (t : Nat) (by_ : Ini) (i : Fin 4096) (s : State) : Out :=
  s.access t CHND_CMD by_ (fun _ => false) fun s => s.chndCmd by_ (chndVal 5 i.val)

/-- CHND_FLAG_SET written (R292): every IDLE descriptor that waits on the flag becomes READY, and the flag clears;
with none waiting it stays set. -/
def State.flagSet (s : State) (f : Nat) : State :=
  let waiting := (s.chnd.descs.filter fun e => e.2.st == .idle && e.2.waitFlag && e.2.flag == f).map (·.1)
  if waiting.isEmpty then { s with chnd := { s.chnd with flags := s.chnd.flags ||| (1#64 <<< f) } }
  else waiting.foldl (fun s i => (s.makeReady i .flag).event (32 * 7 + 5)) s

/-- FLAG_SET (R292). -/
def execFlagSet (t : Nat) (by_ : Ini) (f : Fin 64) (s : State) : Out :=
  s.access t CHND_FLAG_SET by_ (fun _ => false) fun s => s.flagSet f.val

/-! ### Selection and dispatch -/

/-- Core `k` waits for a dispatch and is in service (R260, R293). -/
def State.coreWaits (s : State) (k : Nat) : Bool :=
  let c := s.core k
  c.running && c.wait == some .dispatch && s.coreIn k

/-- A list's mask takes the Wick group of core `k`. -/
def State.listTakes (s : State) (l k : Nat) : Bool := (s.listCores l).testBit (k / 8)

/-- No run of the atomic flow is in hand, and an ordered flow has window room (R296, R297). -/
def State.flowFree (s : State) (i : Nat) : Bool :=
  let d := s.desc i
  if !d.flowEn then true
  else if d.flow < 512 then
    match d.seq with
    | some q => ((tabGet [] s.chnd.flowOut d.flow).takeWhile fun x => x != q).length < 256
    | none => true
  else
    !(s.chnd.descs.any fun e => e.2.flowEn && e.2.flow == d.flow && e.1 != i
        && (e.2.st == .running || e.2.st == .preempted || e.2.st == .retiring))

/-- A task is eligible for a core that waits (R293); `wait` is asked of dispatch and not of pre-emption. -/
def State.eligible (s : State) (i k : Nat) (wait : Bool) : Bool :=
  let d := s.desc i
  (!wait || s.coreWaits k) && s.coreIn k && s.listTakes d.list k && (!d.bind || d.core == k) && s.flowFree i
    && (match (s.core k).frames.head? with
        | some f => decide (f.level < s.levelOf i)
        | none => true)

/-- The first eligible task within the first 16 entries of list `l` (R293). -/
def State.pickIn (s : State) (l k : Nat) : Option Nat := ((s.readyOf l).take 16).find? fun i => s.eligible i k true

/-- Lists in service order: those after the list last served, then those up to it. -/
def rotateAfter (last : Nat) (ls : List Nat) : List Nat :=
  (ls.filter fun l => last ≤ l) ++ (ls.filter fun l => l < last)

/-- The choice among `ls` for core `k`: highest level, then the list order after the last served, then age. Keys of
`lastList` hold the last list served plus 1. -/
def State.pickLists (s : State) (key : Nat → Nat) (ls : List Nat) (k : Nat) : Option Nat :=
  [7, 6, 5, 4, 3, 2, 1, 0].findSome? fun lv =>
    (rotateAfter (tabGet 0 s.chnd.lastList (key lv)) (ls.filter fun l => s.listLevel l == lv)).findSome? fun l =>
      s.pickIn l k

/-- Lists of a scheduling group. -/
def State.listsOf (s : State) (g : Nat) : List Nat := (List.range 64).filter fun l => s.listGroup l == g

/-- Group `g` has a ready task. -/
def State.groupReady (s : State) (g : Nat) : Bool := (s.listsOf g).any fun l => !(s.readyOf l).isEmpty

/-- Group under service moves on (R294). -/
def State.nextGroup (s : State) : State :=
  { s with chnd := { s.chnd with cur := ⟨(s.chnd.cur.val + 1) % 16, Nat.mod_lt _ (by decide)⟩, fresh := true } }

/-- Deficit round robin (R294), at most `fuel` groups; the group and task chosen with the group charged. -/
def State.drr (s : State) (k : Nat) : Nat → State × Option Nat
  | 0 => (s, none)
  | fuel + 1 =>
    let g := s.chnd.cur.val
    let cr := tabGet 0 s.chnd.credit g
    if !s.groupReady g then
      ({ s with chnd := { s.chnd with credit := tabSet s.chnd.credit g 0 } }.nextGroup).drr k fuel
    else
      match s.pickLists (fun lv => g * 8 + lv) (s.listsOf g) k with
      | none => s.nextGroup.drr k fuel
      | some h =>
        let cr := if s.chnd.fresh then min 510 (cr + max 1 (s.rf (CHND_GRP_CFG g) 7 0)) else cr
        let cost := (s.desc h).cost
        if cost ≤ cr then
          ({ s with chnd := { s.chnd with
              credit := tabSet s.chnd.credit g (cr - cost)
              fresh := false
              lastList := tabSet s.chnd.lastList (g * 8 + s.levelOf h) ((s.desc h).list + 1) } }, some h)
        else
          ({ s with chnd := { s.chnd with credit := tabSet s.chnd.credit g cr } }.nextGroup).drr k fuel

/-- Some group has a task eligible for core `k`. -/
def State.anyFor (s : State) (k : Nat) : Bool := (List.range 64).any fun l => (s.pickIn l k).isSome

/-- The task of core `k`'s dispatch opportunity (R294, R295). A cost is at most 15 and a weight at least 1, so 16 rounds
of 16 groups always find an eligible task. -/
def State.chooseTask (s : State) (k : Nat) : State × Option Nat :=
  if !s.anyFor k then (s, none)
  else if s.rb CHND_CTL 1 then
    match s.pickLists (fun _ => 128) (List.range 64) k with
    | some h => ({ s with chnd := { s.chnd with
        lastList := tabSet s.chnd.lastList 128 ((s.desc h).list + 1) } }, some h)
    | none => (s, none)
  else s.drr k 257

/-- Registers d0 to d3 of a dispatched run (R299). -/
def dispatchRegs (d : Desc) (credits : Nat) : Tab (BitVec 24) :=
  [(0, d.arg0), (1, d.arg1), (2, d.arg2),
   (3, BitVec.ofNat 24 (min credits 65535 + (decide (d.readyBy = .delay)).toNat * 2 ^ 16
      + (decide (d.readyBy = .flag)).toNat * 2 ^ 17 + d.rebound.toNat * 2 ^ 18 + d.sat.toNat * 2 ^ 19))]

/-- Task `i` starts a run on core `k` (R291, R298, R299). -/
def State.startRun (s : State) (i k : Nat) : State :=
  let d := s.desc i
  let take := if d.readyBy = .credits then (if d.drain then d.dep else d.thresh) else 0
  let s := s.unready i
  let s := s.setDesc i { d with
    st := .running
    dep := d.dep - take
    credits := take
    lastCore := k
    rebound := false
    dispNo := s.chnd.dispNo + 1 }
  let c := (s.core k).begin k d.entry
  let s := s.setCore k { c with st := .running, task := some i, d := dispatchRegs d take }
  { s with chnd := { s.chnd with dispNo := s.chnd.dispNo + 1 } }

/-- A dispatch opportunity of a core that no task is eligible for: in service mode the loop of R294 runs once.
[DEDUCED, assumption 164] -/
def State.idleOffer (s : State) : State :=
  let g := s.chnd.cur.val
  if s.rb CHND_CTL 1 then s
  else if s.groupReady g then s.nextGroup
  else { s with chnd := { s.chnd with credit := tabSet s.chnd.credit g 0 } }.nextGroup

/-- The dispatch opportunities of the waiting cores `ks`, in order, up to the first that finds a task (R294, R298);
the core and its task. [DEDUCED, assumption 164] -/
def State.offerCores (s : State) : List Nat → State × Option (Nat × Nat)
  | [] => (s, none)
  | k :: ks =>
    if s.anyFor k then
      let r := s.chooseTask k
      (r.1, r.2.map fun i => (k, i))
    else s.idleOffer.offerCores ks

/-- One dispatch (R298). [DEDUCED, assumption 25] -/
def State.dispatch (s : State) : State :=
  if !s.rb CHND_CTL 0 then s
  else
    match s.offerCores ((List.range 64).filter s.coreWaits) with
    | (s, none) => s
    | (s, some (k, i)) =>
      let d := s.desc i
      let dst := if !d.bind && d.lastCore != k && d.dispNo != 0 && s.eligible i d.lastCore true then d.lastCore else k
      ((s.startRun i dst).bump CHND_CNT_DISPATCH).event (32 * 7 + 0) |>.event (32 * 3 + 4 * (dst / 8) + 2)

/-- DISPATCH (R298). -/
def execDispatch (t : Nat) (s : State) : Out := s.when t 16 fun s => s.dispatch

/-- Words of a task's context in its frame, in the order of R246. [DEDUCED, assumption 54] -/
def WCore.context (c : WCore) : List (BitVec 24) :=
  (List.range 64).map (fun r => c.phys r)
    ++ (List.range 4).flatMap (fun a =>
      [(c.ac a).extractLsb' 0 24, (c.ac a).extractLsb' 24 24, ((c.ac a).extractLsb' 48 8).setWidth 24])
    ++ (List.range 16).map (fun r => (tabGet (0 : BitVec 16) c.p r).setWidth 24)
    ++ (List.range 4).flatMap (fun r =>
      [((tabGet (0 : BitVec 32) c.cb r).extractLsb' 16 16).setWidth 24,
       ((tabGet (0 : BitVec 32) c.cb r).extractLsb' 0 16).setWidth 24])
    ++ (List.range 3).map (fun r => (tabGet (0 : BitVec 16) c.lc r).setWidth 24)
    ++ (List.range 3).flatMap (fun r =>
      match c.loops[r]? with
      | some l => [BitVec.ofNat 24 l.first, BitVec.ofNat 24 l.last]
      | none => [0, 0])
    ++ [BitVec.ofNat 24 c.rrb.val, c.wsr.setWidth 24, BitVec.ofNat 24 c.pc]

/-- First word of the frame of a level (R300). -/
def frameBase (level : Nat) : Nat := 0xFC00 + 0x80 * level

/-- Core `k`'s running task is saved into its level's frame (R300): a held DMAWT, which the pc still names, issues
again on the resume (R246). [DEDUCED, assumption 54] -/
def State.saveTask (s : State) (k i : Nat) : State :=
  let lv := s.levelOf i
  let c := (s.core k).drain
  let ws := c.context
  let dm := (ws.zip (List.range ws.length)).foldl (fun m (e : BitVec 24 × Nat) =>
    tabSet m (dmemAddr k (frameBase lv + e.2)) e.1) c.dmem
  let s := s.setCore k { c with
    dmem := dm
    task := none
    wait := none
    frames := ⟨i, lv, c.loops, true⟩ :: c.frames }
  s.onDesc i fun d => { d with st := if d.st = .retiring then .retiring else .preempted }

/-- The core a READY task pre-empts, and the task there (R300): lowest level, then most recently dispatched. -/
def State.victim (s : State) (i : Nat) : Option Nat :=
  let lv := s.levelOf i
  let cand := (List.range 64).filter fun k =>
    match (s.core k).task with
    | some v => (s.core k).running && s.eligible i k false && !(s.desc v).nopre && decide (s.levelOf v < lv)
    | none => false
  let key := fun k => match (s.core k).task with
    | some v => (s.levelOf v, (s.desc v).dispNo)
    | none => (0, 0)
  cand.foldl (fun b k => match b with
    | none => some k
    | some j => if (key k).1 < (key j).1 || ((key k).1 == (key j).1 && (key k).2 > (key j).2) then some k else b) none

/-- The READY task that pre-empts next: the highest level whose list has PRE_EN and that no waiting core can take. -/
def State.preemptor (s : State) : Option Nat :=
  [7, 6, 5, 4, 3, 2, 1, 0].findSome? fun lv =>
    ((List.range 64).filter fun l => s.listLevel l == lv && s.listPre l).findSome? fun l =>
      ((s.readyOf l).take 16).find? fun i =>
        !((List.range 64).any fun k => s.eligible i k true) && (s.victim i).isSome

/-- PREEMPTION (R300). -/
def execPreemption (t : Nat) (s : State) : Out :=
  s.when t 16 fun s =>
    if !(s.rb CHND_CTL 0 && s.rb CHND_CTL 2) then s
    else
      match s.preemptor with
      | none => s
      | some i =>
        match s.victim i with
        | none => s
        | some k =>
          match (s.core k).task with
          | none => s
          | some v =>
            let s := (s.saveTask k v).startRun i k
            ((s.bump CHND_CNT_PREEMPT).event (32 * 7 + 1)).event (32 * 3 + 4 * (k / 8) + 3)

/-- A core's registers from the 112 words of its frame; `loops` gives what the words leave out. -/
def WCore.restore (c : WCore) (k : Nat) (f : Frame) : WCore :=
  let w := fun n => c.ld k (frameBase f.level + n)
  let r16 := fun n => (w n).setWidth 16
  { c with
    d := (List.range 64).map fun r => (r, w r)
    acc := (List.range 4).map fun a =>
      (a, ((w (64 + 3 * a + 2)).setWidth 8 ++ w (64 + 3 * a + 1) ++ w (64 + 3 * a) : BitVec 56))
    accOld := []
    p := (List.range 16).map fun r => (r, r16 (76 + r))
    cb := (List.range 4).map fun r => (r, (r16 (92 + 2 * r) ++ r16 (93 + 2 * r) : BitVec 32))
    lc := (List.range 3).map fun r => (r, r16 (100 + r))
    loops := (f.loops.zip (List.range 3)).map fun (e : Loop × Nat) =>
      { e.1 with first := (w (103 + 2 * e.2)).toNat, last := (w (104 + 2 * e.2)).toNat }
    rrb := ⟨(w 109).toNat % 48, Nat.mod_lt _ (by decide)⟩
    wsr := (w 110).setWidth 32
    pc := (w 111).toNat
    inflight := []
    cyc := c.cyc + 8
    wait := none
    task := some f.desc
    frames := c.frames.drop 1 }

/-- RESUME (R301): the task pre-empted last on core `k` is restored once the core waits and no eligible READY task
has a higher level. -/
def execResume (t : Nat) (k : Fin 64) (s : State) : Out :=
  s.when t 16 fun s =>
    let c := s.core k.val
    match c.frames.head? with
    | none => s
    | some f =>
      if !s.coreWaits k.val || (s.rb CHND_CTL 0 && s.anyFor k.val) then s
      else
        let s := s.setCore k.val (c.restore k.val f)
        s.onDesc f.desc fun d => { d with st := if d.st = .retiring then .retiring else .running }

/-- Delayed descriptors of list `l` that this tick may release: their wake tick is due, and they entered the list before
this tick (R303). -/
def State.dueOf (s : State) (l : Nat) : List Nat :=
  (tabGet [] s.chnd.delays l).filter fun i =>
    s.tickDue (s.desc i).wake && decide ((s.desc i).since < s.raw / 1000)

/-- DELAY_WAKE (R303): at a tick, up to 256 of each list; the rest are late. -/
def State.delayTick (s : State) : State :=
  (List.range 8).foldl (fun s l =>
    let due := s.dueOf l
    let now := due.take 256
    let s := now.foldl (fun s i => ((s.undelay i).makeReady i .delay).event (32 * 7 + 4)) s
    s.bump CHND_CNT_DLY_LATE (due.length - now.length)) s

/-- DELAY_WAKE (R303): one tick is worked once. -/
def execDelayWake (t : Nat) (s : State) : Out :=
  s.when t 16 fun s =>
    let k := s.raw / 1000
    if k = s.chnd.worked then s
    else { s with chnd := { s.chnd with worked := k } }.delayTick

/-- ORDERED_RELEASE (R296): the held completion of descriptor `i` releases once every lower number is done. -/
def execOrderedRelease (t : Nat) (i : Fin 4096) (s : State) : Out :=
  s.when t 16 fun s =>
    match (s.desc i.val).held with
    | some (code, core, tick) => if s.seqFirst i.val then s.releaseCpl i.val core code tick else s
    | none => s

/-- The completion ring lies in shared SRAM (R308). -/
def State.cplInSram (s : State) : Bool :=
  let b := (s.reg CHND_CPL_BASE).toNat
  inSram b && inSram (b + 8191)

/-- CHND_CTL written (R308): EN = 1 is ignored while the ring does not lie in shared SRAM. [DESIGN CHOICE, assumption
53] -/
def State.chndCtl (s : State) (v : Word) : State :=
  let en := bit v 0 && (s.cplInSram || s.rb CHND_CTL 0)
  s.setReg CHND_CTL (BitVec.ofNat 32 (fld v 2 1 * 2 + en.toNat))

/-- CHANDLER_ENABLE (R308): CHND_CTL is written. -/
def execChandlerEnable (t : Nat) (by_ : Ini) (v : Word) (s : State) : Out :=
  s.access t CHND_CTL by_ (fun _ => false) fun s => s.chndCtl v

/-! ### Lens pools -/

/-- The lowest FREE descriptor of pool `k`. -/
def State.poolFree (s : State) (k : Nat) : Option Nat :=
  let b := s.rf (CHND_POOL_RANGE k) 11 0
  let n := min 1024 (s.rf (CHND_POOL_RANGE k) 26 16)
  ((List.range n).find? fun j => (s.desc (b + j)).st == .free && decide (b + j < 4096)).map (b + ·)

/-- A Lens activation (R304, R305): pool of lamp `pool`, template of lamp `tmpl`; the descriptor taken, or none when it
is refused and counted. -/
def State.activate (s : State) (pool tmpl ctx gen cls : Nat) : State × Option Nat :=
  let tp := s.reg (CHND_POOL_TMPL tmpl)
  let l := fld tp 31 26
  match s.poolFree pool with
  | some i =>
    if s.domOn 16 && s.rb CHND_CTL 0 && decide ((s.readyOf l).length < s.listHwm l) then
      (s.setDesc i {
        st := .idle
        gen := (s.desc i).gen + 1
        list := l
        entry := fld tp 13 0
        thresh := 1
        cost := fld tp 23 20
        nopre := bit tp 24
        drain := bit tp 25
        arg0 := BitVec.ofNat 24 ctx
        arg1 := BitVec.ofNat 24 gen
        arg2 := BitVec.ofNat 24 cls
        pooled := true }, some i)
    else ((s.bump CHND_CNT_REFUSED).event (32 * 7 + 2), none)
  | none => ((s.bump CHND_CNT_REFUSED).event (32 * 7 + 2), none)

/-- A context ends with END_REASON 1: its descriptor is freed, or retires while it runs (R305); a pre-empted run is
withdrawn (R290). [DEDUCED, assumption 163] -/
def State.poolRelease (s : State) (i : Nat) : State :=
  match (s.desc i).st with
  | .running => s.onDesc i fun d => { d with st := .retiring }
  | .preempted => s.withdraw i false
  | .ready => (s.unready i).toFree i
  | .delayed => (s.undelay i).toFree i
  | .free | .retiring => s
  | .idle => s.toFree i

/-- A context ends for any other reason: its run is aborted, and the descriptor is freed once none remains (R305). -/
def State.poolAbort (s : State) (i : Nat) : State :=
  let d := s.desc i
  if d.st = .free then s
  else
    let r := s.abortRun i d.gen
    let s := r.1
    match (s.desc i).st with
    | .free => s
    | .running | .preempted | .retiring => s.onDesc i fun d => { d with orphan := true }
    | _ => s.toFree i

/-- R26: the run of a context's task ends with FENCED, with its record (R139, R308). -/
def State.poolFence (s : State) (i : Nat) : State :=
  let d := s.desc i
  match d.st with
  | .free => s
  | .running | .preempted | .retiring =>
    if d.held.isSome then s.onDesc i fun d => { d with orphan := true }
    else
      let k := d.lastCore
      let s := ((s.onDesc i fun d => { d with orphan := true }).leaveCore i).leaveFrame i
      s.complete i k .fenced
  | _ =>
    let s := (s.unready i).undelay i
    ((s.onDesc i fun d => { d with gen := d.gen + 1, orphan := true }).cplRecord i d.lastCore .fenced s.tick).toFree i

/-- The read-only views of the CHND registers. -/
def State.chndView (s : State) (a : Nat) : Option Word :=
  if a = CHND_STATUS then
    let used := (s.chnd.descs.filter fun e => e.2.st != .free).length
    some (BitVec.ofNat 32 (s.rf CHND_STATUS 31 31 * 2 ^ 31 + (4096 - used)))
  else if a = CHND_TICK then some (BitVec.ofNat 32 s.tick)
  else if a = CHND_FLAGS_LO then some (s.chnd.flags.setWidth 32)
  else if a = CHND_FLAGS_HI then some (s.chnd.flags.extractLsb' 32 32)
  else if 0x49000200 ≤ a && a < 0x49000300 && a % 4 = 0 then
    some (BitVec.ofNat 32 (s.readyOf ((a - 0x49000200) / 4)).length)
  else if 0x49000300 ≤ a && a < 0x49000340 && a % 4 = 0 then
    let g := (a - 0x49000300) / 4
    some (BitVec.ofNat 32 ((s.reg a).toNat + tabGet 0 s.chnd.credit g * 65536))
  else if 0x49010000 ≤ a && a < 0x49030000 && a % 4 = 0 then
    some ((s.desc ((a - 0x49010000) / 32)).word ((a - 0x49010000) % 32 / 4))
  else none

end Sys2Proof.Machine
end

