-- ==== Sys2Proof/Machine/LensCtx.lean ====
section
/-! DEFINITION. The contexts of the Lenses: classes, areas, records, the ends of a context, and what a fence or the
dissolving of a pair does to them (R129, R136 to R143, R465). -/
namespace Sys2Proof.Machine

/-! ### Rate classes (R129, R136) -/

/-- Bins in a group of a class (R129). -/
def clsG (c : Nat) : Nat :=
  match c with
  | 4 => 4 | 5 => 8 | 6 => 16 | 7 => 32 | _ => 2

/-- Group rate in S/s (R129). -/
def clsFs (c : Nat) : Nat := 37500 * clsG c

/-- Samples in a block of 16 symbols (R129). -/
def clsBlock (c : Nat) : Nat :=
  match c with
  | 0 => 1000 | 1 => 500 | 2 => 250 | _ => 96

/-- Cost units of a context (R136). -/
def clsCost (c : Nat) : Nat :=
  match c with
  | 5 => 3 | 6 => 4 | 7 => 6 | _ => 2

/-! ### Lamps in pairs -/

/-- Lamp `n`. -/
def State.lamp (s : State) (n : Nat) : Lamp := tabGet {} s.lamps n

/-- The state with lamp `n` replaced. -/
def State.setLamp (s : State) (n : Nat) (l : Lamp) : State := { s with lamps := tabSet s.lamps n l }

/-- Lamp `n` changed by `f`. [DESIGN CHOICE, assumption 47] -/
def State.onLamp (s : State) (n : Nat) (f : Lamp → Lamp) : State := s.setLamp n (f (s.lamp n))

/-- Lamp `n` belongs to the formed pair. -/
def State.paired (s : State) (n : Nat) : Bool := s.pair.formed && (n == s.pair.lower || n == s.pair.lower + 1)

/-- The pair is formed in span mode. -/
def State.span (s : State) : Bool := s.pair.formed && !s.pair.diversity

/-- The lamp in whose window the search of lamp `n` is set: the lower lamp of its pair, or itself. -/
def State.lensOf (s : State) (n : Nat) : Nat := if s.paired n then s.pair.lower else n

/-- The lamps that feed the search of Lens `n`. -/
def State.lensLamps (s : State) (n : Nat) : List Nat := if s.paired n then [s.pair.lower, s.pair.lower + 1] else [n]

/-- Lamp `n` delivers samples to Lens: it is in RX, and no diversity partner transmits (R17, R119, R135). -/
def State.delivers (s : State) (n : Nat) : Bool :=
  (s.lamp n).st == .rx && !(s.lamp n).partnerTx && s.inService n

/-- The intervals of lamp `n` without samples brought up to date after a change of its state. -/
def State.markBlank (s : State) (n : Nat) : State :=
  let l := s.lamp n
  let old := l.blank.filter fun (e : Nat × Option Nat) =>
    match e.2 with
    | some b => decide (s.raw < b + 60000000)
    | none => true
  if s.delivers n then
    s.setLamp n { l with blank := old.map fun (e : Nat × Option Nat) => (e.1, some (e.2.getD s.raw)) }
  else if old.any fun (e : Nat × Option Nat) => e.2.isNone then s.setLamp n { l with blank := old }
  else s.setLamp n { l with blank := (s.raw, none) :: old }

/-- Lamp `n` delivered no sample at antenna instant `a`. -/
def Lamp.blankAt (l : Lamp) (a : Int) : Bool :=
  l.blank.any fun (e : Nat × Option Nat) =>
    decide ((e.1 : Int) ≤ a) && (match e.2 with
      | some b => decide (a < (b : Int))
      | none => true)

/-! ### Contexts and their areas -/

/-- Context `i`. -/
def State.ctx (s : State) (i : Nat) : LensCtx := tabGet {} s.ctxs i

/-- The state with context `i` replaced. -/
def State.setCtx (s : State) (i : Nat) (c : LensCtx) : State := { s with ctxs := tabSet s.ctxs i c }

/-- Ring base of lamp `n` (R139). -/
def State.ringBase (s : State) (n : Nat) : Nat :=
  s.rf (LENS_RING_HI n) 3 0 * 2 ^ 32 + (s.reg (LENS_RING_LO n)).toNat

/-- Address of the area of context `i` (R139). -/
def State.ctxArea (s : State) (i : Nat) : Nat := s.ringBase (i / 1024) + i % 1024 * 0x8000

/-- A number of mHz as whole Hz, rounded half away from zero. -/
def mHz (x : Int) : Int := roundDiv x 1000

/-- The 16 words of a context record (R139). -/
def LensCtx.words (c : LensCtx) (i : Nat) : List Nat :=
  let st := c.stamp.toNat
  let sec := st / 1000000000
  [c.gen.toNat * 2 ^ 24 + c.cls * 2 ^ 16 + i / 1024 * 2 ^ 14 + c.centred.toNat * 2 ^ 12 + i,
   c.g * 2 ^ 16 + wrap 16 c.firstBin,
   wrap 32 (mHz c.nco),
   c.capLt % 2 ^ 32, c.capLt / 2 ^ 32,
   c.declLt % 2 ^ 32, c.declLt / 2 ^ 32,
   wrap 16 c.cfo * 2 ^ 16 + wrap 8 c.fde * 2 ^ 8 + c.lqi,
   (mHz c.devMeas).toNat % 2 ^ 20,
   c.wr,
   c.task,
   st % 1000000000,
   sec % 2 ^ 32,
   sec / 2 ^ 32 % 2 ^ 16,
   c.endReason * 2 ^ 28 + c.seam.toNat * 8 + c.div.toNat * 4 + c.offRaster.toNat * 2 + c.blanked.toNat,
   0]

/-- The bytes of a context record. -/
def LensCtx.bytes (c : LensCtx) (i : Nat) : List Byte := (c.words i).flatMap (leBytes 4)

/-- A context's units and area are in use. -/
def LensCtx.inUse (c : LensCtx) : Bool := c.st == .held || c.st == .live

/-- Contexts in use of the budget of lamp `n`, with their numbers. -/
def State.ctxOf (s : State) (n : Nat) : List (Nat × LensCtx) :=
  s.ctxs.filter fun (e : Nat × LensCtx) => e.2.inUse && e.2.lamp == n

/-- Context `i` marked as ended for `reason` (1 released; the rest by Lens), and its task ended: released (R305),
ended with FENCED (R26), or aborted (R143). -/
def State.endMark (s : State) (i reason : Nat) : State :=
  let c := s.ctx i
  if !c.inUse then s
  else
    let s := s.setCtx i { c with
      st := if reason = 1 then .released else .ended
      stopped := true
      endReason := reason }
    if c.st == .held then s
    else if reason = 1 then s.poolRelease c.task
    else if reason = 5 then s.poolFence c.task
    else s.poolAbort c.task

/-- R139: a write into the area of lamp `a` met a fenced rank: open contexts of the lamp in that rank end with
END_REASON 5, and SRCH_EN clears for the lamp and for the lower lamp of its pair. -/
def State.areaFenced (s : State) (a rank : Nat) : State :=
  let hit := s.ctxs.filter fun (e : Nat × LensCtx) =>
    e.2.st == .live && e.1 / 1024 == a && (s.ctxArea e.1 - 0x800000000) / 0x100000000 == rank
  let s := hit.foldl (fun s e => s.endMark e.1 5) s
  (s.setRb (LENS_CTL a) 0 false).setRb (LENS_CTL (s.lensOf a)) 0 false

/-- Bytes written into the area of context `i`. -/
def State.ctxWrite (s : State) (i off : Nat) (bs : List Byte) : State :=
  let a := s.ctxArea i + off
  match s.store a bs with
  | some s => s
  | none => s.areaFenced (i / 1024) ((a - 0x800000000) / 0x100000000)

/-- The record of context `i` written to its area. -/
def State.putRecord (s : State) (i : Nat) : State := s.ctxWrite i 0 ((s.ctx i).bytes i)

/-- A context ends, and END_REASON is written. -/
def State.endCtx (s : State) (i reason : Nat) : State :=
  if (s.ctx i).inUse then (s.endMark i reason).putRecord i else s

/-- A detection of lens `n` is dropped: its counter (17 NOCTX, 18 CHND by event offset) and the interrupt (R455). -/
def State.dropDet (s : State) (n reg ev : Nat) : State :=
  ((s.bump reg).event (32 * n + ev)).pulse (irqNo 4 (4 * n))

/-- The lamp of lens `n` is fenced or its pair dissolves: pending detections go (R465), open contexts end with
END_REASON 5 (R143). -/
def State.lensFenced (s : State) (n : Nat) : State :=
  let s := (tabGet [] s.dets n).foldl (fun s (d : Det) =>
    match d.ctx with
    | none => s.dropDet n (LENS_CNT_DROP_NOCTX n) 17
    | some i => (s.endCtx i 5).dropDet n (LENS_CNT_DROP_CHND n) 18) s
  let s := { s with dets := tabDel s.dets n }
  (s.ctxOf n).foldl (fun s e => s.endCtx e.1 5) s

/-- CTX_LIMIT of lens `n` (R137). -/
def State.ctxLimit (s : State) (n : Nat) : Nat :=
  (if s.span && n == s.pair.lower then 2048 else 1024) * (8 - s.groupsFenced) / 8

/-- UNIT_CAP of lens `n` (R137). -/
def State.unitCap (s : State) (n : Nat) : Nat :=
  (if s.span && n == s.pair.lower then 6144 else 3072) * (8 - s.groupsFenced) / 8

/-- CTX_OPEN of lens `n`. [DEDUCED, assumption 50] -/
def State.ctxOpen (s : State) (n : Nat) : Nat := (s.ctxOf n).length

/-- UNITS_USED of lens `n`. [DEDUCED, assumption 50] -/
def State.unitsUsed (s : State) (n : Nat) : Nat := (s.ctxOf n).foldl (fun a e => a + clsCost e.2.cls) 0

end Sys2Proof.Machine
end

