-- ==== Sys2Proof/Machine/Radio.lean ====
section
/-! DEFINITION. Operations of the lamps that more than one command uses: state changes, tuning, calibration, the
transmit queue, stops and fences (R93 to R120, R461, R462). -/
namespace Sys2Proof.Machine

/-- The code of a lamp state (R93's table). -/
def LampSt.val : LampSt → Nat
  | .off => 0 | .standby => 1 | .cal => 2 | .settle => 3 | .rx => 4 | .rxToTx => 5 | .tx => 6 | .txToRx => 7

/-- The lamps that a control write to lamp `n` reaches: both of a formed pair. -/
def State.members (s : State) (n : Nat) : List Nat := if s.paired n then [s.pair.lower, s.pair.lower + 1] else [n]

/-- Lamp `n` is the upper member of the formed pair. -/
def State.isUpper (s : State) (n : Nat) : Bool := s.pair.formed && n == s.pair.lower + 1

/-- A state in which the lamp is blanked by a transmission or a calibration step (R17, R102). -/
def LampSt.blanked : LampSt → Bool
  | .cal | .rxToTx | .tx | .txToRx => true
  | _ => false

/-- Lamp `n` changes state: listens in progress become void (R111), intervals without samples and the blanked
microseconds are kept (R135, R457). -/
def State.lampTo (s : State) (n : Nat) (st : LampSt) : State :=
  let l := s.lamp n
  let q := if st == .rx then l.queue else
    l.queue.map fun (x : TxCmd) => if x.listen.isSome then { x with listen := none } else x
  let ended := match l.blankFrom with
    | some b => if st.blanked then none else some (s.clk - b)
    | none => none
  let from_ := if st.blanked then some (l.blankFrom.getD s.clk) else none
  let s := s.setLamp n { l with st := st, queue := q, blankFrom := from_ }
  let s := match ended with
    | some d => s.eventFrac (32 * n + 29) 1000 d
    | none => s
  s.markBlank n

/-- The timed move of lamp `n` and its end. [DEDUCED, assumption 41] -/
def State.lampMove (s : State) (n : Nat) (m : LampMove) (due : Nat) : State :=
  s.onLamp n fun l => { l with move := m, due := due }

/-! ### Completion of radio commands -/

/-- RCMD number `n` of Lantern `k` becomes final: unless the Lantern has started since, or a later command holds its
tag, the tag takes the code, and so does an RSTAT that waits for it (R283). -/
def State.tagDone (s : State) (k n : Nat) (c : Code) : State :=
  if n < tabGet 0 s.rtagBase k || n + 16 < tabGet 0 s.rtagCnt k then s
  else
    let tag := n % 16
    let s := { s with rtags := tabSet s.rtags (k * 16 + tag) (some c) }
    let w := s.core (64 + k)
    match w.wait with
    | some (.radio g dd) =>
      if g = tag then s.setCore (64 + k) { w.put dd (BitVec.ofNat 24 c.val) with wait := none }.next else s
    | _ => s

/-- An acknowledgement that lamp `n` does not send is counted once (R107). [DEDUCED, assumption 45] -/
def State.ackDrop (s : State) (n : Nat) : State := (s.bump (LAMP_CNT_ACK_DROP n)).event (32 * n + 26)

/-- A command ended with DEADLINE_MISSED is counted (R106). [DEDUCED, assumption 45] -/
def State.deadlineMiss (s : State) (n : Nat) : State := (s.bump (LAMP_CNT_DEADLINE n)).event (32 * n + 27)

/-- A radio command's code goes to its owner. -/
def State.giveCode (s : State) (o : TxOwner) (c : Code) : State :=
  match o with
  | .lantern k tag => s.tagDone k tag c
  | .ackHw _ => s

/-- A command that lamp `n` does not send ends with `c`, counted as R106 and R107 say. [DEDUCED, assumption 46] -/
def State.txFail (s : State) (n : Nat) (x : TxCmd) (c : Code) : State :=
  let s := s.giveCode x.owner c
  let s := if c == .deadlineMissed then s.deadlineMiss n else s
  if x.ack then s.ackDrop n else s

/-- Queued commands of lamp `n` for which `p` holds end with `c`. -/
def State.failQueued (s : State) (n : Nat) (p : TxCmd → Bool) (c : Code) : State :=
  let l := s.lamp n
  let s := s.setLamp n { l with queue := l.queue.filter fun x => !p x }
  (l.queue.filter p).foldl (fun s x => s.txFail n x c) s

/-- Commands that could no longer start by their deadline (R106). -/
def State.expireTx (s : State) (n : Nat) : State :=
  s.failQueued n (fun x => decide (x.d < s.now + 25000)) .deadlineMissed

/-! ### Tuning -/

/-- The tuning band of a frequency in Hz: a boundary belongs to the higher band. -/
def bandOf (f : Int) : Nat :=
  if f < 300000000 then 0 else if f < 600000000 then 1 else if f < 1200000000 then 2
  else if f < 2000000000 then 3 else 4

/-- The centre that lamp `n` tunes to: LAMPn_TUNE, or its pair's (R117 to R119). -/
def State.tuneOf (s : State) (n : Nat) : Int :=
  let c : Int := s.rf (LAMP_TUNE (s.lensOf n)) 21 0 * 1000
  if s.span && n == s.pair.lower + 1 then c + 64000000 else c

/-- The centre that channel offsets of lamp `n` count from: the present one, or for an idle synthesiser the tuned one. -/
def State.centreOf (s : State) (n : Nat) : Int := if (s.lamp n).centre = 0 then s.tuneOf n else (s.lamp n).centre

/-- The requested synthesiser word, units of 2^-40 Hz (R98); a pair's FCORR_EN is the lower lamp's (R117). -/
def State.synthOf (s : State) (n : Nat) (f : Int) : Int :=
  if s.rb (LAMP_STATE_CTL (s.lensOf n)) 8 && s.ntim.valid then f * (2 ^ 40 + (s.reg NTIM_RATE).toInt) else f * 2 ^ 40

/-- Lamp `n` starts SETTLE towards its tuned centre (R93, R96): 60 us from an idle synthesiser or across bands. One that
reference loss has cut is run again in full (R99). -/
def State.startSettle (s : State) (n : Nat) : State :=
  let l := s.lamp n
  let f := s.tuneOf n
  let again := l.st == .settle && l.settleLen = 60000
  let len := if again || l.centre = 0 || bandOf l.centre ≠ bandOf f then 60000 else 40000
  let s := s.setLamp n { l with
    settleLen := len, centre := f, locked := false, retuneWait := false, settleAt := s.clk, move := .settle, due := s.clk + len }
  s.lampTo n .settle

/-! ### Calibration -/

/-- Steps of calibration `i` (R100). -/
def calSteps (i : Nat) : Nat :=
  match i with
  | 0 => 30 | 1 => 8 | 2 => 6 | _ => 24

/-- The first calibration selected, in table order. -/
def calFirst (v : BitVec 4) : Option Nat := (List.range 4).find? fun i => v.getLsbD i

/-- Lamp `n` is in a calibration. -/
def Lamp.calibrating (l : Lamp) : Bool := l.calRun.isSome

/-- A foreground calibration closes (R103): code kept, interrupt raised. [DEDUCED, assumption 43] -/
def State.calClose (s : State) (n : Nat) (c : Code) : State :=
  (s.onLamp n fun l => { l with calRes := some c, calRun := none }).pulse (irqNo 3 (4 * n + 1))

/-- A foreground calibration of the selected ones starts in STANDBY or RX (R103). Without a reference it is cut at
once. [DEDUCED, assumption 43] -/
def State.startCal (s : State) (n : Nat) (sel : BitVec 4) : State :=
  match calFirst sel with
  | none => s
  | some i =>
    if !s.board.refOk then (s.onLamp n fun l => { l with calHeld := 0 }).calClose n .refused
    else
      let l := s.lamp n
      let s := s.setLamp n { l with
        calRun := some { fore := true, sel := sel, cur := i, done := 0, former := l.st }
        calRes := some .inSteps
        calHeld := 0
        reqWait := if l.move == .rxSettle || l.move == .waitRef then some 2 else l.reqWait
        move := .calStep
        due := s.clk + 50000 }
      s.lampTo n .cal

/-- Every calibration of lamp `n` is valid. -/
def State.calOk (s : State) (n : Nat) : Bool := (s.lamp n).calValid == 0xF

/-! ### Requests -/

/-- A request for RX is refused (R94): a calibration invalid, the tuning out of range, a fence. -/
def State.rxRefused (s : State) (n : Nat) : Bool :=
  let f := s.rf (LAMP_TUNE (s.lensOf n)) 21 0
  (s.members n).any (fun m => !s.calOk m || !s.inService m) ||
    decide (f < 150000) || decide ((if s.span && s.paired n then 2636000 else 2700000) < f)

/-- A request goes into REQ of lamp `n`. -/
def State.setReq (s : State) (n req : Nat) : State := s.setRf (LAMP_STATE_CTL n) 1 0 req

/-- REQ_REFUSED of lamp `n` is set. -/
def State.refuseReq (s : State) (n : Nat) : State := s.setRb (LAMP_STATUS n) 14 true

/-- The ontime of a transmission that ends now is counted (R114). -/
def State.onTime (s : State) (n : Nat) : State :=
  match (s.lamp n).run with
  | none => s
  | some r =>
    let d := s.clk - r.first + (s.lamp n).onFrac
    let s := s.onLamp n fun l => { l with onFrac := d % 1000 }
    (s.bump (LAMP_TX_ONTIME n) (d / 1000)).event (32 * n + 24) (d / 1000)

/-- The diversity partner of a transmitting lamp. -/
def State.partnerOf (s : State) (n : Nat) : Option Nat :=
  if s.paired n && s.pair.diversity then some (if n = s.pair.lower then n + 1 else s.pair.lower) else none

/-- The diversity partner is blanked, or released, with lamp `n` (R119). -/
def State.setPartner (s : State) (n : Nat) (b : Bool) : State :=
  match s.partnerOf n with
  | some m =>
    let l := s.lamp m
    let s := if b then s.setLamp m { l with partnerTx := true, blankFrom := some (l.blankFrom.getD s.clk) }
      else
        let s := s.setLamp m { l with partnerTx := false, blankFrom := none }
        match l.blankFrom with
        | some t => s.eventFrac (32 * m + 29) 1000 (s.clk - t)
        | none => s
    s.markBlank m
  | none => s

/-- The Lens of lamp `n` loses what it holds of the stream: RX begins anew (R144). -/
def State.lensClear (s : State) (n : Nat) : State := { s with lens := tabDel s.lens n }

/-- The lamp goes to OFF: its synthesiser is unlocked and idle. -/
def State.lampOff (s : State) (n : Nat) : State :=
  ((s.lensClear n).onLamp n fun l => { l with
    locked := false, centre := 0, move := .idle, retuneWait := false, run := none, goal := .rx }).lampTo n .off

/-- The lamp goes to STANDBY; its synthesiser stays as it is. -/
def State.lampStandby (s : State) (n : Nat) : State :=
  ((s.lensClear n).onLamp n fun l => { l with move := .idle, run := none, goal := .rx }).lampTo n .standby

/-- A transmission that has begun RX_TO_TX is stopped early (R462): counted, its command ended with `c` or without a
code, and TX_TO_RX begins at the stop. An acknowledgement so stopped is counted in CNT_ACK_DROP too. [DEDUCED, assumption
153] -/
def State.stopTx (s : State) (n : Nat) (c : Option Code) : State :=
  match (s.lamp n).run with
  | none => s
  | some r =>
    if (s.lamp n).st == .rxToTx || (s.lamp n).st == .tx then
      let s := s.bump (LAMP_CNT_TX_ABORT n)
      let s := s.onTime n
      let s := match c with
        | some c => s.txFail n r.cmd c
        | none => s
      let s := s.onLamp n fun l => { l with run := none, early := true, move := .idle, due := s.clk + 20000, turnAt := s.clk }
      s.lampTo n .txToRx
    else s

/-- A request takes effect in lamp `n` now (R94); nothing else runs in it. -/
def State.applyReq (s : State) (n req : Nat) : State :=
  let l := s.lamp n
  match req with
  | 0 =>
    if l.st == .rxToTx || l.st == .tx then
      let s := (s.stopTx n (some .refused)).setPartner n false
      s.lampOff n
    else if l.st == .txToRx then s.onLamp n fun l => { l with goal := .off }
    else s.lampOff n
  | 1 =>
    if l.st == .off then (if l.move == .powerUp then s else s.lampMove n .powerUp s.clk)
    else if l.st == .rxToTx || l.st == .tx then
      let s := (s.stopTx n (some .refused)).setPartner n false
      s.lampStandby n
    else if l.st == .txToRx then s.onLamp n fun l => { l with goal := .standby }
    else s.lampStandby n
  | _ =>
    if l.st == .off then
      (if l.move == .powerUp then s else s.lampMove n .powerUp s.clk).onLamp n fun l => { l with reqWait := some 2 }
    else if l.st == .txToRx then s.onLamp n fun l => { l with goal := .rx }
    else if l.st == .standby then
      if l.locked && l.centre = s.tuneOf n then
        (if l.move == .rxSettle then s else s.lampMove n .rxSettle (s.clk + 5000))
      else if s.board.refOk then s.startSettle n
      else s.lampMove n .waitRef s.clk
    else s

/-- A request in lamp `n`: at once, or once a calibration or SETTLE has ended (R94). [DEDUCED, assumption 41] -/
def State.request (s : State) (n req : Nat) : State :=
  let l := s.lamp n
  if l.calibrating || l.st == .settle then s.onLamp n fun l => { l with
    reqWait := some (BitVec.ofNat 2 req), reqJudge := l.calibrating }
  else (s.onLamp n fun l => { l with reqWait := none }).applyReq n req

/-- A write of LAMPn_STATE_CTL (R94, R117): FCORR_EN, and the request in the low bits. -/
def State.stateWrite (s : State) (n : Nat) (v : Word) : State :=
  let req := fld v 1 0
  if s.isUpper n then (if req = 2 then s.refuseReq n else s)
  else
    let s := s.setRb (LAMP_STATE_CTL n) 8 (bit v 8)
    if req = 3 then s
    else
      let busy := (s.members n).any fun m => (s.lamp m).calibrating
      if req = 2 && !busy && s.rxRefused n then s.refuseReq n
      else
        let old := s.rf (LAMP_STATE_CTL n) 1 0
        let s := s.setReq n req
        (s.members n).foldl (fun s m => (s.onLamp m fun l =>
          { l with reqOld := if l.reqWait.isSome then l.reqOld else old }).request m req) s

/-- A stored request takes effect; one for RX that was made during a calibration is judged now (R94). -/
def State.takeReq (s : State) (n : Nat) : State :=
  match (s.lamp n).reqWait with
  | none => s
  | some r =>
    let judge := (s.lamp n).reqJudge
    let s := s.onLamp n fun l => { l with reqWait := none, reqJudge := false }
    if r.toNat = 2 && judge && s.rxRefused n then
      (s.setReq (s.lensOf n) (s.lamp n).reqOld).refuseReq n
    else s.applyReq n r.toNat

/-- Lamp `n` is in RX: a stored request, a retune or a held calibration goes on; late commands end (R94, R96, R103). -/
def State.enterRx (s : State) (n : Nat) : State :=
  let s := (s.onLamp n fun l => { l with move := .idle, goal := .rx, early := false }).lampTo n .rx
  let s := (s.takeReq n).expireTx n
  let l := s.lamp n
  if l.st != .rx then s
  else if l.retuneWait && s.board.refOk then s.startSettle n
  else if l.calHeld != 0 then s.startCal n l.calHeld
  else s

/-- TX_TO_RX of lamp `n` has ended: RX, or what was requested meanwhile. -/
def State.turnDone (s : State) (n : Nat) : State :=
  let s := s.setPartner n false
  let s := match s.partnerOf n with
    | some m => if (s.lamp m).st == LampSt.rx && (s.lamp m).retuneWait && s.board.refOk then s.startSettle m else s
    | none => s
  match (s.lamp n).goal with
  | .off => s.lampOff n
  | .standby => s.lampStandby n
  | _ => s.enterRx n

/-! ### Acceptance of transmit commands -/

/-- Bandwidth of a profile in Hz; none for a reserved code (R124). -/
def profBw (b : Word) : Option Nat :=
  match fld b 27 24 with
  | 0 => some 12500 | 1 => some 25000 | 2 => some 50000 | 3 => some 100000 | 4 => some 200000
  | 5 => some 400000 | 6 => some 800000 | _ => none

/-- A command listens before it transmits (R111, R112). -/
def TxCmd.listens (x : TxCmd) : Bool := bit x.profA 31 && !(x.ack && bit x.profA 30)

/-- LISTEN of a command in us. -/
def TxCmd.listenUs (x : TxCmd) : Nat := fld x.profA 15 0

/-- LISTEN < 2 / bandwidth + 5 us (R105). -/
def listenShort (us bw : Nat) : Bool := decide (us * bw < 2000000 + 5 * bw)

/-- The reservation of a command (R107). -/
def TxCmd.resFrom (x : TxCmd) : Int := x.s - 25000
def TxCmd.resTo (x : TxCmd) : Int := x.d + x.dur + 20000

/-- Two reservations overlap. -/
def TxCmd.clash (x y : TxCmd) : Bool := decide (x.resFrom < y.resTo) && decide (y.resFrom < x.resTo)

/-- The lamp of lamp `n`'s pair that sends on a channel `ofs` x 8 Hz from the (lower) centre (R118, R119). -/
def State.txLamp (s : State) (n : Nat) (ofs : Int) : Nat :=
  if !s.paired n then n
  else if s.pair.diversity then (if s.pair.txUpper then s.pair.lower + 1 else s.pair.lower)
  else if ofs * 8 ≤ 32000000 then s.pair.lower else s.pair.lower + 1

/-- SYMBOLS and duration in ns of a transmit image's frame (R177). [DEDUCED, assumption 46] -/
def imageDur (w0 : Word) : Nat := (64 + fld w0 20 0) * 1000000000 / clsRs (fld w0 29 27)

/-- Word 0 of a command's image as it reads now; none when it cannot be read (R105). -/
def State.imgWord (s : State) (x : TxCmd) : Option Word :=
  match x.own with
  | some img => some (imageWord img 0)
  | none => (s.load x.img 16).map fun bs => imageWord bs 0

/-- The first `n` bytes of a command's image, where they can be read now (R149). -/
def State.imgBytes (s : State) (x : TxCmd) (n : Nat) : Option (List Byte) :=
  match x.own with
  | some img => some img
  | none => s.load x.img n

/-- `n` bytes of a command's image can be read now. -/
def State.imgReads (s : State) (x : TxCmd) (n : Nat) : Bool := (s.imgBytes x n).isSome

/-- The frequency levels of the transmission in progress (R157, R158), and the stream it gives the DAC (R149). -/
def TxRun.levels (r : TxRun) : List Int := frameLevels r.img
def TxRun.stream (r : TxRun) : List Cx := dacStream r.coefs r.img (8 * r.cmd.ofs)

/-- The lamp takes commands: RX, or a state from which it returns to RX (R106). -/
def Lamp.taking (l : Lamp) : Bool :=
  match l.st with
  | .rx | .settle | .rxToTx | .tx | .txToRx => true
  | .cal => (match l.calRun with
    | some r => r.former == .rx
    | none => true)
  | _ => false

/-- The duration of a command's image, or what R105 finds in the image. -/
def State.imageCheck (s : State) (x : TxCmd) : Except Code Nat :=
  match s.imgWord x with
  | none => .error (if inDram x.img && !s.rankIn ((x.img - 0x800000000) / 0x100000000) then .fenced else .badArgument)
  | some w => .ok (imageDur w)

/-- What R105 finds in a command before reservations are looked at, in its table's order, with `image` for the rows of
the image; the command's duration. [DEDUCED, assumption 89] -/
def State.txJudge (s : State) (lam : Nat) (x : TxCmd) (image : Except Code Nat) : Except Code Nat :=
  let l := s.lamp lam
  if x.ack && x.listens && decide (16 < x.listenUs) then .error .deadlineMissed
  else if !s.inService lam then .error .fenced
  else if 16 ≤ l.queue.length then .error .noBuffer
  else if x.chan < s.centreOf lam - 32000000 || s.centreOf lam + 32000000 < x.chan then .error .badArgument
  else if x.d < x.s then .error .badArgument
  else
    match profBw x.profB with
    | none => .error .badArgument
    | some bw =>
      if x.listens && listenShort x.listenUs bw then .error .badArgument
      else
        match image with
        | .error c => .error c
        | .ok dur => if !l.taking || l.refLost || !s.board.refOk then .error .refused else .ok dur

/-- R105 for a command with its image. [DEDUCED, assumption 44] -/
def State.txCheck (s : State) (lam : Nat) (x : TxCmd) : Except Code Nat := s.txJudge lam x (s.imageCheck x)

/-- A command queued behind those accepted; an acknowledgement shortens the gap offers it falls into (R284). -/
def State.txQueue (s : State) (lam : Nat) (x : TxCmd) : State :=
  s.onLamp lam fun l => { l with
    queue := l.queue ++ [{ x with lbtFrom := x.s - 25000 - x.listenUs * 1000 }]
    gaps := if x.ack then l.gaps.map fun (g : Gap) =>
        if g.s < x.resTo && x.resFrom < g.usable then { g with usable := max g.s x.resFrom } else g
      else l.gaps }

/-- R18: of two acknowledgements the one whose uplink ended first is sent; at equal t0 the lower bin. -/
def TxCmd.beats (x y : TxCmd) : Bool := decide (x.t0 < y.t0) || (x.t0 == y.t0 && decide (x.bin < y.bin))

/-- A command meets the reservations of lamp `lam` (R107, R18): accepted, or not. -/
def State.txPlace (s : State) (lam : Nat) (x : TxCmd) : State × Code :=
  let l := s.lamp lam
  let running := match l.run with
    | some r => r.cmd.clash x
    | none => false
  let hits := l.queue.filter x.clash
  if running then (s, .refused)
  else if !x.ack then (if hits.isEmpty then (s.txQueue lam x, .ok) else (s, .refused))
  else if hits.any fun y => y.ack && !x.beats y then (s, .refused)
  else ((s.failQueued lam x.clash .refused).txQueue lam x, .ok)

/-- A transmit command offered to lamp `lam` (R105, R107): the code, OK when it is accepted. -/
def State.txAccept (s : State) (lam : Nat) (x : TxCmd) : State × Code :=
  match s.txCheck lam x with
  | .error c => (s, c)
  | .ok dur => s.txPlace lam { x with dur := dur }

/-! ### Fences, reference loss, pairs -/

/-- Every command and gap offer that lamp `n` holds ends with `c`. -/
def State.endAllTx (s : State) (n : Nat) (c : Code) : State :=
  let s := s.failQueued n (fun _ => true) c
  let g := (s.lamp n).gaps
  g.foldl (fun s (x : Gap) => s.giveCode x.owner c) (s.onLamp n fun l => { l with gaps := [] })

/-- A pair dissolves (R120): contexts, commands and a calibration end with FENCED and its lamps go to STANDBY.
[DEDUCED, assumption 154] -/
def State.dissolve (s : State) : State :=
  if !s.pair.formed then s
  else
    let a := s.pair.lower
    let s := s.lensFenced a
    let s := [a, a + 1].foldl (fun s n =>
      let s := (s.stopTx n (some .fenced)).setPartner n false
      let s := s.endAllTx n .fenced
      let s := match (s.lamp n).calRun with
        | some r => if r.fore then s.calClose n .fenced else s.onLamp n fun l => { l with calRun := none }
        | none => s
      let s := s.onLamp n fun l => { l with reqWait := none, retuneWait := false, calHeld := 0 }
      if (s.lamp n).st == .off then s.applyReq n 1 else s.lampStandby n) s
    { s with pair := { s.pair with formed := false, aligning := none, seamDue := none } }

/-- The two Lanterns of a lamp that leaves service halt (R220). -/
def State.lampLanterns (s : State) (n : Nat) : State :=
  [64 + 2 * n, 65 + 2 * n].foldl (fun s k => s.setCore k (s.core k).halt) s

/-- Lamp `n` is fenced (R25, R461): transmission, contexts, commands and calibration end with FENCED; its pair
dissolves and LAMP_PAIR_CTL.PAIR reads 0; its Lanterns halt; it goes to OFF. [DEDUCED, assumption 154] -/
def State.lampFence (s : State) (n : Nat) : State :=
  let was := s.paired n
  let s := if was then (s.dissolve.setRb LAMP_PAIR_STATUS 2 true).setRf LAMP_PAIR_CTL 1 0 0 else s
  let s := if s.pair.aligning.isSome && (n == s.pair.lower || n == s.pair.lower + 1) then
      { s with pair := { s.pair with aligning := none } }.setRf LAMP_PAIR_CTL 1 0 0
    else s
  let s := s.stopTx n (some .fenced)
  let s := s.endAllTx n .fenced
  let s := s.lensFenced n
  let s := match (s.lamp n).calRun with
    | some r => if r.fore then s.calClose n .fenced else s.onLamp n fun l => { l with calRun := none }
    | none => s
  let s := s.onLamp n fun l => { l with reqWait := none, calHeld := 0 }
  (s.lampLanterns n).lampOff n

/-- A transmission whose image lies in part in rank `r` stops when the rank is fenced (R105, R462). [DEDUCED, assumption
46] -/
def State.imageFence (s : State) (r : Nat) : State :=
  (List.range 3).foldl (fun s n =>
    match (s.lamp n).run with
    | some x =>
      let lo := 0x800000000 + r * 0x100000000
      if x.cmd.own.isNone && decide (x.cmd.img < lo + 0x100000000) && decide (lo < x.cmd.img + x.len) then
        s.stopTx n (some .fenced)
      else s
    | none => s) s

/-- Reference loss in lamp `n` (R49, R99, R103): a cut calibration closes, and what was requested during it takes effect. -/
def State.lampRefLoss (s : State) (n : Nat) : State :=
  let s := (s.stopTx n (some .refused))
  let s := s.failQueued n (fun _ => true) .refused
  let l := s.lamp n
  let s := match l.calRun with
    | some r =>
      let s := if r.fore then s.calClose n .refused else s.onLamp n fun l => { l with calRun := none }
      let s := (s.onLamp n fun l => { l with move := .idle, locked := false }).lampTo n
        (if r.former == LampSt.rx then LampSt.rx else LampSt.standby)
      s.takeReq n
    | none => s
  let l := s.lamp n
  match l.st with
  | .off => s
  | .standby =>
    s.setLamp n { l with locked := false, refLost := true, move := if l.move == LampMove.rxSettle then LampMove.waitRef else l.move }
  | .settle => s.setLamp n { l with locked := false, refLost := true, move := .waitRef }
  | _ => s.setLamp n { l with locked := false, refLost := true, retuneWait := true }

/-- The reference is back (R50, R99): the retune, or the RX request that waited. -/
def State.lampRefBack (s : State) (n : Nat) : State :=
  let l := s.lamp n
  match l.st with
  | .rx => if l.retuneWait then s.startSettle n else s
  | .settle => s.startSettle n
  | .standby => if l.move == .waitRef then s.startSettle n else s
  | _ => s

/-- The level of output LAMPn_CTL[k] now (R109). -/
def State.ctlPin (s : State) (n k : Nat) : Bool :=
  let l := s.lamp n
  let m := s.reg (LAMP_EXT_MAP n)
  let rx := bit m (6 + k)
  let tx := bit m (9 + k)
  let rt := fld (s.reg (LAMP_EXT_DLY n)) (5 * k + 4) (5 * k) * 1000
  let tr := fld (s.reg (LAMP_EXT_DLY n)) (5 * k + 19) (5 * k + 15) * 1000
  match l.st with
  | .off | .standby => bit m k
  | .cal => bit m (3 + k)
  | .settle => rx
  | .rx => if l.partnerTx then tx else rx
  | .rxToTx => if l.turnAt + rt ≤ s.clk then tx else rx
  | .tx => tx
  | .txToRx => if l.early || decide (l.turnAt + tr ≤ s.clk) then rx else tx

/-- The read-only views of the LAMP registers. -/
def State.lampView (s : State) (a : Nat) : Option Word :=
  let n := (a - 0x43000000) / 0x100000
  if a < 0x43000000 || 3 ≤ n then none
  else
    let l := s.lamp n
    if a = LAMP_STATUS n then
      some (BitVec.ofNat 32 (s.rf a 15 14 * 2 ^ 14 + (!s.rb (SYS_UNIT_MGMT n) 0 || !s.rb (SYS_UNIT_DP n) 0
          || s.rb (SYS_UNIT_DP n) 1).toNat * 2 ^ 13
        + (s.paired n).toNat * 2 ^ 12 + l.locked.toNat * 2 ^ 8 + l.st.val))
    else if a = LAMP_CAL_STATUS n then
      let busy := match l.calRun with
        | some r => 2 ^ r.cur
        | none => 0
      some (BitVec.ofNat 32 (s.rf a 24 24 * 2 ^ 24 + busy * 2 ^ 16 + l.calDue.toNat * 2 ^ 8 + l.calValid.toNat))
    else if a = LAMP_TEMP n then some (BitVec.ofNat 32 (wrap 16 l.temp))
    else if a = LAMP_PAIR_STATUS then some (BitVec.ofNat 32 (s.rf a 2 1 * 2 + s.pair.formed.toNat))
    else none

end Sys2Proof.Machine
end

