-- ==== Sys2Proof/Machine/Dram.lean ====
section
/-! DEFINITION. The DRAM controller: transactions, ECC, scrubbing, refresh, training, parity recovery and rank fencing
(R344 to R363). -/
namespace Sys2Proof.Machine

/-- The rank of an address in the DRAM window (R345). -/
def rankOf (a : Nat) : Nat := (a - 0x800000000) / 0x100000000

/-- Bank group of an address (R345). -/
def bankGroupOf (a : Nat) : Nat := Nat.xor (a / 2 ^ 6 % 4) (a / 2 ^ 17 % 4)
/-- Bank of an address (R345). -/
def bankOf (a : Nat) : Nat := Nat.xor (a / 2 ^ 15 % 4) (a / 2 ^ 19 % 4)
/-- Row of an address (R345). -/
def rowOf (a : Nat) : Nat := a / 2 ^ 17 % 2 ^ 15
/-- Column [9:3] of an address (R345). -/
def colOf (a : Nat) : Nat := a / 2 ^ 8 % 2 ^ 7

/-- The bank key of `Dmc.openRow`. -/
def bankKey (a : Nat) : Nat := rankOf a * 16 + bankGroupOf a * 4 + bankOf a

/-- The port of the DRAM controller that an initiator's accesses come to (R23). -/
def iniPort : DramIni → Nat
  | .controlCores => 0
  | .host => 1
  | .lensWickDma => 2
  | .mantle => 3
  | .cipher => 4
  | .lanterns => 5
  | .router => 6
  | .background => 7

/-- TARGET, RESERVE and MAX_URG of a port. -/
def State.portTarget (s : State) (p : Nat) : Nat := s.rf (DMC_PORT_CFG p) 15 0
def State.portReserve (s : State) (p : Nat) : Nat := s.rf (DMC_PORT_CFG p) 23 16
def State.portMaxUrg (s : State) (p : Nat) : Nat := s.rf (DMC_PORT_CFG p) 31 30

/-- Urgency of a transaction (R347). -/
def urgency (target maxUrg age : Nat) : Nat :=
  min maxUrg (if 2 * age < target then 0 else if age < target then 1 else if age < 2 * target then 2 else 3)

/-- Urgency of a held transaction now. -/
def State.urgencyOf (s : State) (x : DmcTx) : Nat :=
  urgency (s.portTarget x.port) (s.portMaxUrg x.port) (s.clk - x.arrived)

/-- Transactions that port `p` holds. -/
def Dmc.heldBy (d : Dmc) (p : Nat) : Nat := (d.queue.filter fun x => x.port = p).length

/-- Shared places taken: what every port holds beyond its reservation (R346). -/
def State.sharedUsed (s : State) : Nat :=
  ((List.range 8).map fun p => s.dmc.heldBy p - s.portReserve p).foldl (· + ·) 0

/-- A place is free for port `p` (R346); while SR is 1 accesses wait at their ports (R361). -/
def State.placeFree (s : State) (p : Nat) : Bool :=
  !s.rb DMC_CTL 1 && !s.dmc.selfRefresh && (s.dmc.heldBy p < s.portReserve p ||
    decide (s.sharedUsed + ((List.range 8).map s.portReserve).foldl (· + ·) 0 < 128))

/-- The granule of an address. -/
def granule (a : Nat) : Nat := a / 64

/-- Byte `a` as the write `x` gives it. -/
def DmcTx.byteAt (x : DmcTx) (a : Nat) : Option Byte :=
  match x.wr with
  | some bs => if x.addr ≤ a then (bs[a - x.addr]?).getD none else none
  | none => none

/-- The newest queued data for byte `a` among writes, oldest first (R349). -/
def newestByte (ws : List DmcTx) (a : Nat) : Option Byte :=
  ws.foldl (fun r x => (x.byteAt a).orElse fun _ => r) none

/-- Queued writes ahead of position `i` to the granule of a read (R349). -/
def writesBefore (q : List DmcTx) (i : Nat) (g : Nat) : List DmcTx :=
  (q.take i).filter fun x => x.wr.isSome && granule x.addr == g

/-- Transaction `i` of the queue may be performed on the devices: nothing earlier to its granule conflicts (R349). -/
def mayGo (q : List DmcTx) (i : Nat) (x : DmcTx) : Bool :=
  (q.take i).all fun y => granule y.addr != granule x.addr || (y.wr.isNone && x.wr.isNone)

/-- The candidate of higher rank: level, then row hit, then instant of arrival (R347); earlier queue positions win
ties. -/
def better (a b : Nat × Nat × Nat) : Bool :=
  a.1 > b.1 || (a.1 == b.1 && (a.2.1 > b.2.1 || (a.2.1 == b.2.1 && a.2.2 < b.2.2)))

/-- A row hit: the bank's open row is the transaction's. -/
def State.rowHit (s : State) (a : Nat) : Bool :=
  tabGet 0 s.dmc.openRow (bankKey a) == rowOf a + 1

/-- A ZQ calibration blocks rank `r` for 80 ns (R356). -/
def State.zqBlocks (s : State) (r : Nat) : Bool :=
  match s.dmc.zqAt.lookup r with
  | some z => decide (s.clk < z + 80)
  | none => false

/-- The queue position the scheduler takes next (R347). [DEDUCED, assumption 70] -/
def State.choose (s : State) : Option Nat :=
  let q := s.dmc.queue
  let cand := (List.range q.length).filterMap fun i =>
    match q[i]? with
    | some x =>
      if mayGo q i x && !s.zqBlocks (rankOf x.addr) then
        some (i, (s.urgencyOf x, (s.rowHit x.addr).toNat, x.arrived))
      else none
    | none => none
  (cand.foldl (fun best c => match best with
    | none => some c
    | some b => if better c.2 b.2 then some c else some b) none).map (·.1)

/-- An error recorded in DMC_ECC_LOG (R352). -/
def State.eccLog (s : State) (a port beat syn : Nat) (ue scrub : Bool) : State :=
  let v := s.reg DMC_ECC_LOG
  if bit v 31 && !(ue && !bit v 30) then s.setRb DMC_ECC_LOG 29 true
  else
    let w := 2 ^ 31 + ue.toNat * 2 ^ 30 + (bit v 29).toNat * 2 ^ 29 + scrub.toNat * 2 ^ 28
      + port * 2 ^ 16 + beat * 2 ^ 8 + syn
    let s := { s with dmc := { s.dmc with eccAt := some (fabCycle s.clk) } }
    ((s.setReg DMC_ECC_LOG (BitVec.ofNat 32 w)).setReg DMC_ECC_ADDR_LO
      (BitVec.ofNat 32 (a / 64 * 64))).setReg DMC_ECC_ADDR_HI (BitVec.ofNat 32 (a / 2 ^ 32 % 16))

/-- DMC_ECC_LOG written (R352): VALID and OVF are W1C, but an error logged in this fabric cycle keeps VALID. -/
def State.eccClear (s : State) (v : Word) : State :=
  let v := if s.dmc.eccAt = some (fabCycle s.clk) then v &&& 0x20000000 else v &&& 0xA0000000
  s.setReg DMC_ECC_LOG (s.reg DMC_ECC_LOG &&& ~~~v)

/-- What a read of a granule finds: a granule in error stays in error (R351). -/
def State.eccOf (s : State) (a : Nat) (e : Ecc) : Ecc :=
  if s.dmc.poison.contains (granule a) then
    match e with
    | .uncorrectable b y => .uncorrectable b y
    | _ => .uncorrectable 0 0
  else e

/-- R351: the effects of an ECC error; the Bool says that data are returned. `fixed` says that scrubbing writes the
correction back. -/
def State.eccError (s : State) (a port : Nat) (e : Ecc) (scrub fixed : Bool) : State × Bool :=
  match s.eccOf a e with
  | .clean => (s, true)
  | .correctable b y =>
    let s := ((s.bump DMC_CNT_CE).event (32 * 8 + 21)).eccLog a port b.val y.toNat false scrub
    (if fixed then s.bump DMC_CNT_SCRUB_CE else s, true)
  | .uncorrectable b y =>
    let s := ((s.bump DMC_CNT_UE).pulse (irqNo 10 0)).eccLog a port b.val y.toNat true scrub
    ({ s with dmc := { s.dmc with
        poison := granule a :: s.dmc.poison.filter fun g => g != granule a } }, false)

/-- The bytes of a write performed on memory. -/
def writeEnabled (m : List Host.Cell) (a : Nat) : List (Option Byte) → List Host.Cell
  | [] => m
  | none :: bs => writeEnabled m (a + 1) bs
  | some b :: bs => writeEnabled (cellSet memZero m a b) (a + 1) bs

/-- The enabled bytes cover whole 8-byte words (R350). -/
def wholeWords (a : Nat) (bs : List (Option Byte)) : Bool :=
  a % 8 == 0 && bs.length % 8 == 0 && (List.range (bs.length / 8)).all fun w =>
    let g := (bs.drop (8 * w)).take 8
    g.all (·.isSome) || g.all (·.isNone)

/-- The transaction `x` performed on the devices or refused for its rank. [DEDUCED, assumption 67] -/
def State.perform (s : State) (x : DmcTx) (e : Ecc) : State :=
  let lvl := s.urgencyOf x
  let s := s.event (32 * 8 + x.port)
  let s := if lvl = 3 then (s.bump (DMC_PORT_LATE x.port)).event (32 * 8 + 8 + x.port) else s
  let hit := s.rowHit x.addr
  let s := s.event (32 * 8 + (if hit then 16 else 17))
  let s := { s with dmc := { s.dmc with openRow := tabSet s.dmc.openRow (bankKey x.addr) (rowOf x.addr + 1) } }
  match x.wr with
  | some bs =>
    let part := !wholeWords x.addr bs
    let s := if part then s.bump DMC_CNT_RMW else s
    let full := x.addr % 64 == 0 && bs.length == 64 && bs.all (·.isSome)
    let s := { s with
      mem := writeEnabled s.mem x.addr bs
      dmc := { s.dmc with
        poison := if full then s.dmc.poison.filter fun g => g != granule x.addr else s.dmc.poison } }
    { s with dmc := { s.dmc with served := some (x.id, some []) } }
  | none =>
    let r := s.eccError x.addr x.port e false false
    let data := if r.2 then some (cellsRead memZero r.1.mem x.addr x.len) else none
    { r.1 with dmc := { r.1.dmc with served := some (x.id, data) } }

/-- A read at queue position `i` whose bytes the earlier queued writes give in full is served from the queue; one they
give in part is counted and waits (R349). The Bool says that something was served. -/
def State.forward (s : State) : State × Bool :=
  let q := s.dmc.queue
  let go : Option (DmcTx × List Byte) := (List.range q.length).findSome? fun i =>
    match q[i]? with
    | some x =>
      if x.wr.isSome then none
      else
        let ws := writesBefore q i (granule x.addr)
        if ws.isEmpty then none
        else
          let bs := (List.range x.len).map fun k => newestByte ws (x.addr + k)
          if bs.all (·.isSome) then some (x, bs.map fun b => b.getD 0) else none
    | none => none
  match go with
  | some (x, bs) =>
    let s := ((s.bump DMC_CNT_FWD).event (32 * 8 + 19)).event (32 * 8 + x.port)
    ({ s with dmc := { s.dmc with
        queue := s.dmc.queue.filter fun (y : DmcTx) => y.id != x.id
        served := some (x.id, some bs) } }, true)
  | none => (s, false)

/-- Reads that wait for a partial overlap are counted once each (R349). -/
def State.countWaits (s : State) : State :=
  let q := s.dmc.queue
  let waits := (List.range q.length).filterMap fun i =>
    match q[i]? with
    | some x =>
      if x.wr.isNone && !x.waited && !(writesBefore q i (granule x.addr)).isEmpty then some x.id else none
    | none => none
  let s := { s with dmc := { s.dmc with
    queue := q.map fun (x : DmcTx) => if waits.contains x.id then { x with waited := true } else x } }
  (s.bump DMC_CNT_RAW_WAIT waits.length).event (32 * 8 + 20) waits.length

/-- A transaction behind those that came before it; of a read and a write to one granule that arrive in one fabric cycle
the one of the lower port counts as earlier (R349). -/
def queueIn (x : DmcTx) : List DmcTx → List DmcTx
  | [] => [x]
  | y :: ys =>
    if fabCycle y.arrived == fabCycle x.arrived && granule y.addr == granule x.addr && y.wr.isSome != x.wr.isSome
        && decide (x.port < y.port) then x :: y :: ys
    else y :: queueIn x ys

/-- A transaction enters the DMC, or is held at the fabric for want of a place or behind an earlier one of its port (R20);
one to a rank out of service ends in a bus error (R22, R346, R360). -/
def State.arrive (s : State) (x : DmcTx) : State :=
  if !(inDram x.addr && s.rankIn (rankOf x.addr)) then
    { s with dmc := { s.dmc with served := some (x.id, none) } }
  else if s.placeFree x.port && !s.dmc.outside.any (fun y => y.port == x.port) then
    { s with dmc := { s.dmc with queue := queueIn x s.dmc.queue } }
  else { s with dmc := { s.dmc with outside := s.dmc.outside ++ [x] } }

/-- Transactions held at the fabric enter as places come free, oldest first for each port. -/
def State.admitOutside (s : State) : State :=
  s.dmc.outside.foldl (fun s x =>
    if s.placeFree x.port && !(s.dmc.outside.takeWhile (fun y => y.id != x.id)).any (fun y => y.port == x.port) then
      { s with dmc := { s.dmc with
          queue := queueIn x s.dmc.queue
          outside := s.dmc.outside.filter fun y => y.id != x.id } }
    else s) s

/-- The scheduler serves one transaction. [DEDUCED, assumption 70] -/
def State.serveOne (s : State) (e : Ecc) : State :=
  if s.dmc.selfRefresh then s
  else
    let s := s.countWaits
    let f := s.forward
    if f.2 then f.1.admitOutside
    else
      match s.choose.bind fun i => s.dmc.queue[i]? with
      | none => s
      | some x =>
        let s := { s with dmc := { s.dmc with queue := s.dmc.queue.filter fun y => y.id != x.id } }
        (s.perform x e).admitOutside

/-- DRAM_TRANSACTION (R346 to R351). -/
def execDramTransaction (t : Nat) (op : DramOp) (s : State) : Out :=
  s.when t 22 fun s =>
    match op with
    | .readArrives p a n =>
      let s := s.arrive ⟨s.dmc.nextId, iniPort p, a, n, none, s.clk, false⟩
      { s with dmc := { s.dmc with nextId := s.dmc.nextId + 1 } }
    | .writeArrives p a bs =>
      let s := s.arrive ⟨s.dmc.nextId, iniPort p, a, bs.length, some bs, s.clk, false⟩
      { s with dmc := { s.dmc with nextId := s.dmc.nextId + 1 } }
    | .serve e => s.serveOne e

/-- The contents of a rank are lost (R27, R41). -/
def dropRank (m : List Host.Cell) (r : Nat) : List Host.Cell :=
  m.filter fun c => !(inDram c.1 && rankOf c.1 == r)

/-- The soft-store contents of the slots that lie in rank `r` are lost with it (R27): the entries stay, without
codewords. [DEDUCED, assumption 150] -/
def State.dropStore (s : State) (r : Nat) : State :=
  let base := s.rf MANT_STORE_HI 3 0 * 2 ^ 32 + (s.reg MANT_STORE_LO).toNat
  let lost := fun (k : Nat) => inDram (base + k * 0x4000) && rankOf (base + k * 0x4000) == r
  { s with mant := { s.mant with
      store := s.mant.store.map fun (e : Nat × SoftEntry) => (e.1, if lost e.1 then { e.2 with cws := [] } else e.2) } }

/-- The device-side effects of fencing rank `r`: queued transactions end in bus errors, the contents are lost, TRAINED
clears (R360). -/
def State.fenceRankHw (s : State) (r : Nat) : State :=
  let hit := fun (x : DmcTx) => rankOf x.addr == r
  let last := (s.dmc.queue ++ s.dmc.outside).filter hit
  let s := s.dropStore r
  (State.admitOutside { s.setRb DMC_RANK_CTL r true with
    mem := dropRank s.mem r
    dmc := { s.dmc with
      trained0 := s.dmc.trained0 && r != 0
      trained1 := s.dmc.trained1 && r != 1
      queue := s.dmc.queue.filter fun x => !hit x
      outside := s.dmc.outside.filter fun x => !hit x
      poison := s.dmc.poison.filter fun g => rankOf (g * 64) != r
      served := match last.getLast? with
        | some x => some (x.id, none)
        | none => s.dmc.served
      postponed := tabSet s.dmc.postponed r 0 } }).imageFence r

/-- The DMC fences a rank itself: records follow as a hardware change with CAUSE 1, and the interrupt pulses (R358,
R359, R447). -/
def State.dmcFences (s : State) (r : Nat) : State :=
  ((s.fenceRankHw r).hwChange (0x38 + r) 1 false).pulse (irqNo 10 1)

/-- PATROL_SCRUB (R353): one granule read within the budget; `ecc` is what it finds, `written` says that a port wrote
the granule before the correcting write. -/
def execPatrolScrub (t : Nat) (ecc : Ecc) (written : Bool) (s : State) : Out :=
  s.when t 22 fun s =>
    let ms := s.clk / 1000000
    let n := if s.dmc.scrubMs = ms then s.dmc.scrubN else 0
    let rate := s.rf DMC_SCRUB_CTL 11 0
    if !s.rb DMC_SCRUB_CTL 31 || rate ≤ n || s.dmc.selfRefresh || !(s.rankIn 0 || s.rankIn 1) then s
    else
      let per := 0x4000000
      let pos := s.dmc.scrubPos
      let r := pos / per
      let pos := if s.rankIn r then pos else (1 - r) * per
      let wrapped := !s.rankIn r && r == 1
      let a := 0x800000000 + pos * 64
      let s := { s with dmc := { s.dmc with scrubMs := ms, scrubN := n + 1 } }
      let s := (s.eccError a 7 ecc true (!written)).1
      let next := (pos + 1) % (2 * per)
      let skip := !s.rankIn (next / per)
      let next' := if skip then (next / per + 1) % 2 * per else next
      let done := wrapped || next == 0 || (skip && next / per == 1)
      let s := { s with dmc := { s.dmc with scrubPos := next' } }
      if done then s.bump DMC_CNT_SCRUB_PASS else s

/-- A level-3 transaction waits for rank `r` (R355). -/
def State.level3Waits (s : State) (r : Nat) : Bool :=
  s.dmc.queue.any fun x => rankOf x.addr == r && s.urgencyOf x == 3

/-- REFRESH (R354, R355): the interval of rank `r` expires. -/
def execRefresh (t : Nat) (r : Fin 2) (s : State) : Out :=
  s.when t 22 fun s =>
    if !s.rankIn r.val || s.dmc.selfRefresh then s
    else
      let owed := tabGet 0 s.dmc.postponed r.val
      if s.level3Waits r.val then
        if owed < 8 then { s with dmc := { s.dmc with postponed := tabSet s.dmc.postponed r.val (owed + 1) } }
        else (s.bump DMC_CNT_REF_FORCED).event (32 * 8 + 18)
      else
        { s with dmc := { s.dmc with postponed := tabSet s.dmc.postponed r.val 0 } }.event (32 * 8 + 18) (owed + 1)

/-- The refresh rate a lid temperature in 1/16 degree asks for (R354). -/
def refreshFor (temp : Int) : Nat := if 105 * 16 < temp then 2 else if 85 * 16 < temp then 1 else 0

/-- REFRESH_RATE_CHANGE (R354). -/
def execRefreshRateChange (t : Nat) (s : State) : Out :=
  s.when t 22 fun s =>
    let want := refreshFor s.lid
    if s.dmc.rate < want then { s with dmc := { s.dmc with rate := want, coolAt := none } }
    else
      match s.dmc.coolAt with
      | some c =>
        if 1000000000 ≤ s.clk - c then
          { s with dmc := { s.dmc with rate := s.dmc.rate - 1, coolAt := none } }.trackCool
        else s
      | none => s

/-- ZQ_CALIBRATION (R356): the rank is blocked for 80 ns from this instant. -/
def execZqCalibration (t : Nat) (r : Fin 2) (s : State) : Out :=
  s.when t 22 fun s =>
    if !s.rankIn r.val || s.dmc.selfRefresh then s
    else { s with dmc := { s.dmc with zqAt := tabSet s.dmc.zqAt r.val s.clk } }

/-- The first selected rank at or after `r`. -/
def nextRank (ranks : BitVec 2) (r : Nat) : Nat := if r = 0 && ranks.getLsbD 0 then 0 else 1

/-- DMC_TRAIN_CMD written with `v` (R357). -/
def State.trainCmd (s : State) (by_ : Ini) (v : Word) : State :=
  let ranks := BitVec.ofNat 2 (fld v 1 0)
  if fld v 31 28 ≠ 1 || ranks = 0 then s.result by_ DMC_TRAIN_RES .badArgument
  else if s.dmc.training.isSome then s.result by_ DMC_TRAIN_RES .refused
  else
    { s.result by_ DMC_TRAIN_RES .inSteps with dmc := { s.dmc with
        training := some { ranks := ranks, cur := nextRank ranks 0, steps := 0, owner := iniIdx by_ } } }

/-- DRAM_TRAINING (R357). -/
def execDramTraining (t : Nat) (by_ : Ini) (v : Word) (s : State) : Out :=
  s.access t DMC_TRAIN_CMD by_ (fun _ => false) fun s => s.trainCmd by_ v

/-- A result register's copy of the initiator with index `i` closes. -/
def State.resultIdx (s : State) (i a : Nat) (c : Code) : State :=
  { s with latches := tabSet s.latches (i * 0x10000000000 + a) (BitVec.ofNat 32 c.val) }

/-- Rank `r` has passed its training: TRAINED, and records as R447 sets. -/
def State.rankPasses (s : State) (r : Nat) (set : Option Nat) : State :=
  let s := { s with dmc := { s.dmc with
    trained0 := s.dmc.trained0 || r == 0
    trained1 := s.dmc.trained1 || r == 1 } }
  match set with
  | some e => s.setDp (0x38 + r) e 0 false true
  | none =>
    let fenced := s.rb DMC_RANK_CTL r
    s.asSet (0x38 + r) (!fenced) (!fenced)

/-- Rank `r` has failed its training (R358, R446, R447). -/
def State.rankFails (s : State) (r : Nat) (set : Option Nat) : State :=
  match set with
  | some e => ((s.fenceRankHw r).setFailed (0x38 + r) e 1).pulse (irqNo 10 1)
  | none => s.dmcFences r

/-- Bytes 0 to 8,191 of a trained rank hold open values (R358). [DESIGN CHOICE, assumption 68] -/
def State.trainScribble (s : State) (r : Nat) : State :=
  let d := s.drawBytes 8192
  { d.2 with mem := cellsWrite memZero d.2.mem (0x800000000 + r * 0x100000000) d.1 }

/-- A training closes (R357): code, interrupt, and a unit SET's close. [DEDUCED, assumption 69] -/
def State.trainCloses (s : State) (g : Training) : State :=
  let c := if g.failed = 0 then Code.ok else Code.fenced
  let s := { s with dmc := { s.dmc with training := none } }.pulse (irqNo 10 2)
  match g.set with
  | some _ =>
    let e := s.nextEpoch (0x38 + g.cur)
    let v := BitVec.ofNat 32 (e * 65536 + c.val)
    let s := if g.owner < 256 then { s with latches := tabSet s.latches (g.owner * 0x10000000000 + SYS_UNIT_RES) v }
      else s.mbxClose (g.owner - 256) c [BitVec.ofNat 32 e]
    s.pulse (irqNo 0 7)
  | none => s.resultIdx g.owner DMC_TRAIN_RES c

/-- Rank `r` is fenced from outside while a training that still has to train it runs: the training ends with FENCED
(R440). [DEDUCED, assumption 69] -/
def State.trainFenced (s : State) (r : Nat) : State :=
  match s.dmc.training with
  | some g =>
    if r < g.cur || !g.ranks.getLsbD r then s
    else
      let s := match g.set with
        | some e => s.setFailed (0x38 + r) e 1
        | none => s
      s.trainCloses { g with failed := g.failed ||| (1#2 <<< r) }
  | none => s

/-- One step of a training (R357, R358). `alert` says that the command bus raised an alert during it, and `bad` that
the step failed. -/
def State.trainStep (s : State) (alert bad : Bool) : State :=
  match s.dmc.training with
  | none => s
  | some g =>
    if alert && !g.repeated && !bad then
      { s.bump DMC_CNT_CA_ALERT with dmc := { s.dmc with training := some { g with repeated := true } } }
    else
      let s := if alert then s.bump DMC_CNT_CA_ALERT else s
      let fail := bad || alert
      let last := fail || g.steps + 1 = 96
      let s := if g.steps = 0 then s.trainScribble g.cur else s
      if !last then
        { s with dmc := { s.dmc with training := some { g with
            steps := g.steps + 1, repeated := false, total := g.total + 1 } } }
      else
        let s := if fail then s.rankFails g.cur g.set else s.rankPasses g.cur g.set
        let g := { g with
          failed := if fail then g.failed ||| (1#2 <<< g.cur) else g.failed
          total := g.total + 1 }
        if g.cur = 0 && g.ranks.getLsbD 1 then
          { s with dmc := { s.dmc with training := some { g with cur := 1, steps := 0, repeated := false } } }
        else s.trainCloses g

/-- CA_PARITY_ALERT (R359): `again` says that the alert falls within the replay of a recovery under way. -/
def execCaParityAlert (t : Nat) (r : Fin 2) (again : Bool) (s : State) : Out :=
  s.when t 22 fun s =>
    if !s.rankIn r.val then s
    else
      let n := if again then tabGet 0 s.dmc.alerts r.val + 1 else 1
      let s := (s.bump DMC_CNT_CA_ALERT).event (32 * 8 + 22)
      if 4 ≤ n then
        ({ s with dmc := { s.dmc with alerts := tabSet s.dmc.alerts r.val 0 } }.trainFenced r.val).dmcFences r.val
      else { s with dmc := { s.dmc with alerts := tabSet s.dmc.alerts r.val n } }

/-- One rank's FENCE bit written (R360, R447). -/
def State.fenceBit (s : State) (r : Nat) (f : Bool) : State :=
  if s.rb DMC_RANK_CTL r = f then s
  else
    let s := if f then (s.trainFenced r).fenceRankHw r else s.setRb DMC_RANK_CTL r false
    s.asSet (0x38 + r) (!f) (!f && s.unitReady (0x38 + r))

/-- RANK_FENCE_WRITE (R360, R447): `v` is written to DMC_RANK_CTL. -/
def execRankFenceWrite (t : Nat) (by_ : Ini) (v : Word) (s : State) : Out :=
  s.access t DMC_RANK_CTL by_ (fun _ => false) fun s => (s.fenceBit 0 (bit v 0)).fenceBit 1 (bit v 1)

/-- DMC_CTL written (R361): SR back to 0 leaves self-refresh, and the accesses that waited go on. -/
def State.dmcCtl (s : State) (v : Word) : State :=
  let s := s.setReg DMC_CTL (v &&& 6)
  if bit v 1 then s else { s with dmc := { s.dmc with selfRefresh := false } }.admitOutside

/-- SELF_REFRESH_REQUEST (R361). -/
def execSelfRefreshRequest (t : Nat) (by_ : Ini) (v : Word) (s : State) : Out :=
  s.access t DMC_CTL by_ (fun _ => false) fun s => s.dmcCtl v

/-- SELF_REFRESH_ENTRY (R361): no transaction is queued any more and SR is 1. -/
def execSelfRefreshEntry (t : Nat) (s : State) : Out :=
  s.when t 22 fun s =>
    if s.rb DMC_CTL 1 && s.dmc.queue.isEmpty then { s with dmc := { s.dmc with selfRefresh := true } } else s

/-- DMC_PORTp_CFG written (R346, R363): TARGET below 100 and RESERVE above 128 are stored at the limit. -/
def State.portCfg (s : State) (p : Nat) (v : Word) : State :=
  let res := min 128 (fld v 23 16)
  let others := (((List.range 8).filter fun q => q != p).map s.portReserve).foldl (· + ·) 0
  if 128 < others + res then s.setRb DMC_STATUS 6 true
  else
    (s.setReg (DMC_PORT_CFG p)
      (BitVec.ofNat 32 (fld v 31 30 * 2 ^ 30 + res * 2 ^ 16 + max 100 (fld v 15 0)))).admitOutside

/-- PORT_CFG_WRITE (R346). -/
def execPortCfgWrite (t : Nat) (by_ : Ini) (p : Fin 8) (v : Word) (s : State) : Out :=
  s.access t (DMC_PORT_CFG p.val) by_ (fun _ => false) fun s => s.portCfg p.val v

/-- The read-only views of the DMC registers. -/
def State.dmcView (s : State) (a : Nat) : Option Word :=
  if a = DMC_STATUS then
    some (BitVec.ofNat 32 ((s.reg DMC_STATUS).toNat + s.dmc.selfRefresh.toNat * 32
      + s.dmc.training.isSome.toNat * 16 + (!s.rankIn 1).toNat * 8 + (!s.rankIn 0).toNat * 4
      + s.dmc.trained1.toNat * 2 + s.dmc.trained0.toNat))
  else if a = DMC_TRAIN_PROG then some (BitVec.ofNat 32 ((s.dmc.training.map (·.total)).getD 0))
  else if a = DMC_REFRESH then
    some (BitVec.ofNat 32 (tabGet 0 s.dmc.postponed 1 * 256 + tabGet 0 s.dmc.postponed 0 * 16 + s.dmc.rate))
  else if a = DMC_SCRUB_POS then some (BitVec.ofNat 32 s.dmc.scrubPos)
  else none

end Sys2Proof.Machine
end

