-- ==== Sys2Proof/Machine/Gates.lean ====
section
/-! DEFINITION. Gate control lists (R404 to R408). -/
namespace Sys2Proof.Machine

/-- The gate list of port `p`. -/
def State.gclOf (s : State) (p : Nat) : Gcl := tabGet {} s.tmgr.gcl p

/-- The state with the gate list of port `p` replaced. -/
def State.setGcl (s : State) (p : Nat) (g : Gcl) : State :=
  { s with tmgr := { s.tmgr with gcl := tabSet s.tmgr.gcl p g } }

/-- The first `n` entries of bank `b`: GATES and INTERVAL. -/
def State.gclEntries (s : State) (p b n : Nat) : List (Nat × Nat) :=
  (List.range n).map fun e => (s.rf (TMGR_GCL_GATES p b e) 7 0, (s.reg (TMGR_GCL_INTERVAL p b e)).toNat)

/-- The entries that run in a cycle of `room` ns, with the time each lasts (R404): the last lasts until the cycle ends,
and what lies beyond the end does not run. -/
def gclSpans : Nat → List (Nat × Nat) → List (Nat × Nat)
  | _, [] => []
  | room, (g, iv) :: r =>
    if room ≤ iv || r.isEmpty then [(g, room)] else (g, iv) :: gclSpans (room - iv) r

/-- The operating list's spans. -/
def State.gclRunning (s : State) (p : Nat) : List (Nat × Nat) :=
  let g := s.gclOf p
  gclSpans g.cycle (s.gclEntries p g.bank g.len)

/-- The spans from `phase` on: the entry's index, and the list with its first span cut to what is left. -/
def spansFrom : Nat → Nat → List (Nat × Nat) → Nat × List (Nat × Nat)
  | _, i, [] => (i, [])
  | ph, i, (g, d) :: r => if ph < d then (i, (g, d - ph) :: r) else spansFrom (ph - d) (i + 1) r

/-- Gate `q` is open in GATES `g`. -/
def gateBit (g q : Nat) : Bool := g / 2 ^ q % 2 == 1

/-- How long gate `q` stays open from the start of a list of spans. -/
def openRun (q : Nat) : List (Nat × Nat) → Nat
  | [] => 0
  | (g, d) :: r => if gateBit g q then d + openRun q r else 0

/-- The longest open run that starts at the head of a suffix of `l`, each suffix followed by `tail`. -/
def longestRun (q : Nat) (tail : List (Nat × Nat)) : List (Nat × Nat) → Nat
  | [] => 0
  | x :: r => max (openRun q (x :: r ++ tail)) (longestRun q tail r)

/-- MAXOPEN[q] of a list (R406): spans across the cycle end count as continuous. -/
def maxOpen (q : Nat) (spans : List (Nat × Nat)) : Nat :=
  if spans.all fun e => gateBit e.1 q then 0xFFFFFFFF else longestRun q spans spans

/-- The list enters the entry that contains the present network time (R404, R408). -/
def State.gclEnter (s : State) (p : Nat) : State :=
  let g := s.gclOf p
  let ph := ((s.now - g.base) % (g.cycle : Int)).toNat
  let r := spansFrom ph 0 (s.gclRunning p)
  let left := match r.2 with | [] => 1 | (_, d) :: _ => d
  s.setGcl p { g with entry := r.1, endAt := s.now + left, rawEnd := none }

/-- The raw instant that ends the entry running at a SET or STEP has passed. -/
def State.gclRawDone (s : State) (p : Nat) : Bool :=
  match (s.gclOf p).rawEnd with
  | none => true
  | some r => decide (r ≤ s.raw)

/-- A pending switch-over takes place now (R407): the banks exchange, the new list starts, MAXOPEN is computed and the
commit closes. -/
def State.gclSwitch (s : State) (p : Nat) (w : GclPend) : State :=
  let g := s.gclOf p
  let g : Gcl := { g with
    running := true
    bank := 1 - g.bank
    base := w.at_
    cycle := w.cycle
    len := w.len
    rawEnd := none
    pend := none }
  let s := (s.setGcl p g).gclEnter p
  let s := (List.range 8).foldl (fun s q =>
    s.setReg (TMGR_MAXOPEN p q) (BitVec.ofNat 32 (maxOpen q (s.gclRunning p)))) s
  (s.result w.by_ (TMGR_GCL_RES p) .ok).pulse (irqNo 12 p)

/-- A switch-over whose instant has come takes place; one that a forward step has skipped waits for the boundary. -/
def State.gclSwitchDue (s : State) (p : Nat) : State :=
  match (s.gclOf p).pend with
  | none => s
  | some w => if w.at_ ≤ s.now && (!w.skipped || s.gclRawDone p) then s.gclSwitch p w else s

/-- The running entry ends where its end has come. -/
def State.gclAdvance (s : State) (p : Nat) : State :=
  let g := s.gclOf p
  let ended := match g.rawEnd with
    | none => decide (g.endAt ≤ s.now)
    | some r => decide (r ≤ s.raw)
  if g.running && ended then s.gclEnter p else s

/-- The list of port `p` brought to the present instant. -/
def State.gclRun (s : State) (p : Nat) : State := (s.gclSwitchDue p).gclAdvance p

/-- A SET or STEP is about to move network time from now to `b` (R408): the running entry's remaining time is fixed on
the raw counter; a switch-over inside the interval is skipped, one that lies ahead again waits for its instant. -/
def State.gclHold (s : State) (b : Int) : State :=
  (List.range 4).foldl (fun s p =>
    let s := s.gclRun p
    let g := s.gclOf p
    let raw := match g.rawEnd with
      | some r => r
      | none => s.raw + (g.endAt - s.now).toNat
    s.setGcl p { g with
      rawEnd := if g.running then some raw else none
      pend := g.pend.map fun (w : GclPend) =>
        { w with skipped := decide (w.at_ < b) && g.running } }) s

/-- Gate states in force at port `p` while the list runs (R404). -/
def State.gclGates (s : State) (p : Nat) : Nat :=
  let g := s.gclOf p
  match (s.gclRunning p)[g.entry]? with
  | some e => e.1
  | none => 0xFF

/-- What is left of the running entry, ns. -/
def State.gclLeft (s : State) (p : Nat) : Nat :=
  let g := s.gclOf p
  match g.rawEnd with
  | some r => r - s.raw
  | none => (g.endAt - s.now).toNat

/-- Spans of the operating list from now on, far enough to find a closed gate: the running entry, then the list as
network time will place it. -/
def State.gclAhead (s : State) (p : Nat) : List (Nat × Nat) :=
  let g := s.gclOf p
  let l := s.gclRunning p
  let left := s.gclLeft p
  let ph := ((s.now + left - g.base) % (g.cycle : Int)).toNat
  (s.gclGates p, left) :: (spansFrom ph 0 l).2 ++ l

/-- Gate `q` of port `p` counts as open now (R404). -/
def State.gateOpen (s : State) (p q : Nat) : Bool :=
  !s.rb (TMGR_GCL_CTL p) 31 || !(s.gclOf p).running || gateBit (s.gclGates p) q

/-- Gate `q` stays open for `w10` tenths of a ns from now on, across later entries and a switch-over (R405). [DEDUCED,
assumption 110] -/
def State.staysOpen (s : State) (p q w10 : Nat) : Bool :=
  if !s.rb (TMGR_GCL_CTL p) 31 then true
  else
    let g := s.gclOf p
    let old (need : Nat) : Bool :=
      !g.running || (s.gclAhead p).all (fun e => gateBit e.1 q) || decide (need ≤ openRun q (s.gclAhead p) * 10)
    match g.pend with
    | none => old w10
    | some w =>
      let d := if w.skipped then s.gclLeft p else max (w.at_ - s.now).toNat 0
      if w10 ≤ d * 10 then old w10
      else
        let l := gclSpans w.cycle (s.gclEntries p (1 - g.bank) w.len)
        let l := if w.skipped then
          (spansFrom ((s.now + d - w.at_) % (w.cycle : Int)).toNat 0 l).2 ++ l else l ++ l
        old (d * 10) && (l.all (fun e => gateBit e.1 q) || decide (w10 - d * 10 ≤ openRun q l * 10))

/-! ### Commands -/

/-- ADMIN_BASE in network ns. -/
def State.adminBase (s : State) (p : Nat) : Int :=
  ((s.rf (TMGR_ADMIN_BASE_SEC_HI p) 15 0 * 2 ^ 32 + (s.reg (TMGR_ADMIN_BASE_SEC_LO p)).toNat) * 1000000000
    + (s.reg (TMGR_ADMIN_BASE_NS p)).toNat : Nat)

/-- The first BASE + n x CYCLE that lies at least 1 us ahead (R407). [DEDUCED, assumption 111] -/
def switchAt (base : Int) (cycle : Nat) (now : Int) : Int :=
  let least := now + 1000
  if least ≤ base then base else base + (least - base + cycle - 1) / cycle * cycle

/-- GCL_CMD COMMIT (R407). [DEDUCED, assumption 111] -/
def State.gclCommit (s : State) (by_ : Ini) (p : Nat) : State :=
  let s := s.gclRun p
  let g := s.gclOf p
  let len := s.rf (TMGR_GCL_CTL p) 8 0
  let cycle := (s.reg (TMGR_ADMIN_CYCLE p)).toNat
  let l := s.gclEntries p (1 - g.bank) len
  if len = 0 || 256 < len || cycle < 1000 || 1000000000 < cycle || l.any (fun e => e.2 == 0) then
    s.result by_ (TMGR_GCL_RES p) .badArgument
  else if g.pend.isSome then s.result by_ (TMGR_GCL_RES p) .refused
  else
    let base := s.adminBase p
    (s.setGcl p { g with pend := some { at_ := switchAt base cycle s.now, cycle, len, by_ } }).result by_
      (TMGR_GCL_RES p) .inSteps

/-- GCL_CMD ABORT (R407, R309). The closing code of a commit that another initiator withdraws is a free value. -/
def State.gclAbort (s : State) (by_ : Ini) (p : Nat) : State :=
  let s := s.gclRun p
  let g := s.gclOf p
  match g.pend with
  | none => s.result by_ (TMGR_GCL_RES p) .tooLate
  | some w =>
    let s := s.setGcl p { g with pend := none }
    let s :=
      if w.by_ == by_ then s
      else
        let r := s.draw 11
        r.2.setLatch w.by_ (TMGR_GCL_RES p) (BitVec.ofNat 32 (closing r.1))
    (s.result by_ (TMGR_GCL_RES p) .ok).pulse (irqNo 12 p)

/-- GATE_ENTRY_BOUNDARY (R404, R408). -/
def execGateEntryBoundary (t : Nat) (p : Fin 4) (s : State) : Out := s.when t 17 fun s => s.gclRun p.val

/-- GCL_SWITCH_OVER (R406, R407). -/
def execGclSwitchOver (t : Nat) (p : Fin 4) (s : State) : Out := s.when t 17 fun s => s.gclSwitchDue p.val

/-- COMMIT_GCL (R407). -/
def execCommitGcl (t : Nat) (by_ : Ini) (p : Fin 4) (s : State) : Out :=
  s.access t (TMGR_GCL_CMD p.val) by_ (fun _ => false) fun s => s.gclCommit by_ p.val

/-- ABORT_GCL (R407). -/
def execAbortGcl (t : Nat) (by_ : Ini) (p : Fin 4) (s : State) : Out :=
  s.access t (TMGR_GCL_CMD p.val) by_ (fun _ => false) fun s => s.gclAbort by_ p.val

end Sys2Proof.Machine
end

