-- ==== Sys2Proof/Machine/Sha.lean ====
section
/-! DEFINITION. SHA-256 (FIPS 180-4), CRC-32 (IEEE 802.3) and ECDSA over P-256 (FIPS 186-5) (R324, R334 to R336). -/
namespace Sys2Proof.Machine

/-- Round constants of SHA-256, constant 0 most significant. -/
def shaK : Nat := 0x428a2f9871374491b5c0fbcfe9b5dba53956c25b59f111f1923f82a4ab1c5ed5d807aa9812835b01243185be550c7dc372be5d7480deb1fe9bdc06a7c19bf174e49b69c1efbe47860fc19dc6240ca1cc2de92c6f4a7484aa5cb0a9dc76f988da983e5152a831c66db00327c8bf597fc7c6e00bf3d5a7914706ca63511429296727b70a852e1b21384d2c6dfc53380d13650a7354766a0abb81c2c92e92722c85a2bfe8a1a81a664bc24b8b70c76c51a3d192e819d6990624f40e3585106aa07019a4c1161e376c082748774c34b0bcb5391c0cb34ed8aa4a5b9cca4f682e6ff3748f82ee78a5636f84c878148cc7020890befffaa4506cebbef9a3f7c67178f2
/-- The initial hash value. -/
def shaInit : List Nat := [0x6a09e667, 0xbb67ae85, 0x3c6ef372, 0xa54ff53a, 0x510e527f, 0x9b05688c, 0x1f83d9ab, 0x5be0cd19]

/-- Rotation of a 32-bit word. -/
def ror32 (n x : Nat) : Nat := (x >>> n ||| x <<< (32 - n)) % 2 ^ 32

/-- The message schedule, latest word first: `n` more words. -/
def shaSched : Nat → List Nat → List Nat
  | 0, w => w
  | n + 1, w =>
    let g := fun (i : Nat) => w[i]?.getD 0
    let s0 := ror32 7 (g 14) ^^^ ror32 18 (g 14) ^^^ (g 14 >>> 3)
    let s1 := ror32 17 (g 1) ^^^ ror32 19 (g 1) ^^^ (g 1 >>> 10)
    shaSched n ((g 15 + s0 + g 6 + s1) % 2 ^ 32 :: w)

/-- One round. -/
def shaRound (h : List Nat) (kw : Nat) : List Nat :=
  match h with
  | [a, b, c, d, e, f, g, hh] =>
    let t1 := hh + (ror32 6 e ^^^ ror32 11 e ^^^ ror32 25 e) + ((e &&& f) ^^^ ((2 ^ 32 - 1 - e) &&& g)) + kw
    let t2 := (ror32 2 a ^^^ ror32 13 a ^^^ ror32 22 a) + ((a &&& b) ^^^ (a &&& c) ^^^ (b &&& c))
    [(t1 + t2) % 2 ^ 32, a, b, c, (d + t1) % 2 ^ 32, e, f, g]
  | _ => h

/-- One 64-byte block. -/
def shaBlock (h blk : List Nat) : List Nat :=
  let w := (shaSched 48 ((pieces 4 16 blk).map beVal).reverse).reverse
  let ks := (List.range 64).map fun i => (shaK >>> (32 * (63 - i))) % 2 ^ 32
  let r := (List.zipWith (fun k x => k + x) ks w).foldl shaRound h
  List.zipWith (fun x y => (x + y) % 2 ^ 32) h r

/-- SHA-256 of a byte string, 32 bytes. [DEDUCED, assumption 138] -/
def sha256 (m : List Nat) : List Nat :=
  let n := m.length
  let msg := m ++ [0x80] ++ List.replicate ((119 - n % 64) % 64) 0 ++ beList 8 (8 * n)
  ((pieces 64 (msg.length) msg).foldl shaBlock shaInit).flatMap (beList 4)

/-! ### CRC-32 -/

/-- One bit of the reflected CRC-32. -/
def crcBit (c : Nat) : Nat := if c % 2 = 1 then c / 2 ^^^ 0xEDB88320 else c / 2

/-- One byte. -/
def crcByte (c b : Nat) : Nat := (List.range 8).foldl (fun x _ => crcBit x) (c ^^^ b)

/-- CRC-32 of a byte string. [DEDUCED, assumption 138] -/
def crc32 (m : List Nat) : Nat := m.foldl crcByte 0xFFFFFFFF ^^^ 0xFFFFFFFF

/-! ### ECDSA over P-256 -/

def p256P : Nat := 0xffffffff00000001000000000000000000000000ffffffffffffffffffffffff
def p256N : Nat := 0xffffffff00000000ffffffffffffffffbce6faada7179e84f3b9cac2fc632551
def p256B : Nat := 0x5ac635d8aa3a93e7b3ebbd55769886bc651d06b0cc53b0f63bce3c3e27d2604b
def p256Gx : Nat := 0x6b17d1f2e12c4247f8bce6e563a440f277037d812deb33a0f4a13945d898c296
def p256Gy : Nat := 0x4fe342e2fe1a7f9b8ee7eb4a7c0f9e162bce33576b315ececbb6406837bf51f5

/-- `b` to the power `e` mod `m`; `f` bits of the exponent. -/
def powMod (m : Nat) : Nat → Nat → Nat → Nat
  | 0, _, _ => 1 % m
  | f + 1, b, e =>
    let r := powMod m f (b * b % m) (e / 2)
    if e % 2 = 1 then r * b % m else r

/-- The inverse mod a prime. -/
def invMod (m a : Nat) : Nat := powMod m 256 (a % m) (m - 2)

/-- The sum of two points; none is the point at infinity. -/
def ecAdd : Option (Nat × Nat) → Option (Nat × Nat) → Option (Nat × Nat)
  | none, q => q
  | p, none => p
  | some (x1, y1), some (x2, y2) =>
    let m := p256P
    if x1 = x2 && (y1 + y2) % m = 0 then none
    else
      let l := if x1 = x2 && y1 = y2 then (3 * x1 * x1 + (m - 3)) * invMod m (2 * y1) % m
        else (y2 + (m - y1)) * invMod m (x2 + (m - x1)) % m
      let x3 := (l * l + (m - x1) + (m - x2)) % m
      some (x3, (l * (x1 + (m - x3)) + (m - y1)) % m)

/-- `k` times a point; `f` bits of `k`. -/
def ecMul : Nat → Nat → Option (Nat × Nat) → Option (Nat × Nat)
  | 0, _, _ => none
  | f + 1, k, p =>
    let r := ecMul f (k / 2) (ecAdd p p)
    if k % 2 = 1 then ecAdd r p else r

/-- A public key is a point of the curve. -/
def ecOn (x y : Nat) : Bool :=
  decide (x < p256P) && decide (y < p256P) &&
    y * y % p256P == (x * x * x + (p256P - 3) * x + p256B) % p256P

/-- ECDSA verification of a digest (FIPS 186-5). [DEDUCED, assumption 138] -/
def ecdsaVerify (qx qy r s : Nat) (digest : List Nat) : Bool :=
  let n := p256N
  if !(decide (0 < r) && decide (r < n) && decide (0 < s) && decide (s < n) && ecOn qx qy) then false
  else
    let w := invMod n s
    match ecAdd (ecMul 256 (beVal digest * w % n) (some (p256Gx, p256Gy))) (ecMul 256 (r * w % n) (some (qx, qy))) with
    | some (x, _) => x % n == r
    | none => false

/-- An ECDSA signature of a digest under the private key `d` with the random value `k`: r and s. [DEDUCED, assumption
138] -/
def ecdsaSign (d k : Nat) (digest : List Nat) : Nat × Nat :=
  let n := p256N
  match ecMul 256 k (some (p256Gx, p256Gy)) with
  | some (x, _) => (x % n, invMod n k * (beVal digest + x % n * d) % n)
  | none => (0, 0)

end Sys2Proof.Machine
end

