-- ==== Sys2Proof/Machine/Wake.lean ====
section
/-! DEFINITION. Wake events (R415, R418). -/
namespace Sys2Proof.Machine

/-- Bit `b` of PWR_WAKE_EN enables its event; TAMPER always is. -/
def State.wakeEnabled (s : State) (b : Nat) : Bool := b == 10 || s.rb PWR_WAKE_EN b

/-- An entry into Ember is in progress, or the module is in Ember. -/
def State.emberish (s : State) : Bool := s.pwr.ember || s.pwr.op == some .ember

/-- The last agreement of an entry fell in this fabric cycle: a wake event that meets it wins (R415). -/
def State.justAgreed (s : State) : Bool := s.pwr.committed && fabCycle s.pwr.askedAt == fabCycle s.clk

/-- A wake event of source `b` (R415, R418): its cause bit is set; an enabled one is latched where there is an entry to end or
a sleep to leave, asserts WAKE_N until HIF is on, and in Ember starts the Lamplighter; one that meets the last agreement
of an entry takes it back, so that the next answer rolls the entry back. -/
def State.wake (s : State) (b : Nat) : State :=
  let s := s.setRb PWR_WAKE_CAUSE b true
  if !s.wakeEnabled b then s
  else { s with pwr := { s.pwr with
    wakePending := s.pwr.wakePending || s.emberish
    committed := s.pwr.committed && (s.pwr.ember || !s.justAgreed)
    wakeAt := some s.clk
    wakeN := s.pwr.wakeN || (s.rb PWR_WAKE_EN 1 && s.emberish)
    waking := if s.pwr.ember && s.pwr.waking.isNone then some 1 else s.pwr.waking
    stepAt := if s.pwr.ember && s.pwr.waking.isNone then s.clk else s.pwr.stepAt } }

end Sys2Proof.Machine
end

