-- ==== Sys2Proof/Machine/Timers.lean ====
section
/-! DEFINITION. The compare/capture channels on the local time base (R80 to R83). -/
namespace Sys2Proof.Machine

/-- Channel `n`. -/
def State.tch (s : State) (n : Nat) : TmrCh := tabGet {} s.tmr n

/-- The state with channel `n` replaced. -/
def State.setTch (s : State) (n : Nat) (c : TmrCh) : State := { s with tmr := tabSet s.tmr n c }

/-- MODE of channel `n`. -/
def State.tmode (s : State) (n : Nat) : Nat := s.rf (TMR_CH_CTL n) 1 0

/-- The read window of channel `n` closes: a waiting capture moves in (R82). -/
def State.capClose (s : State) (n : Nat) : State :=
  let c := s.tch n
  match c.shadow with
  | some v => (s.setTch n { c with cap := v, shadow := none, window := none }).setRb (TMR_CH_STATUS n) 1 true
  | none => s.setTch n { c with window := none }

/-- The window of channel `n` closes by itself once its microsecond is over (R82). -/
def State.capExpire (s : State) (n : Nat) : State :=
  match (s.tch n).window with
  | some w => if w ≤ s.raw then s.capClose n else s
  | none => s

/-- A capture of channel `n` at local time `v` (R82). -/
def State.capTake (s : State) (n : Nat) (v : BitVec 64) : State :=
  let s := s.capExpire n
  let c := s.tch n
  if c.window.isSome then
    if c.shadow.isSome then s.setRb (TMR_CH_STATUS n) 2 true
    else s.setTch n { c with shadow := some v }
  else
    let old := s.rf (TMR_CH_STATUS n) 2 1
    let s := if s.rb (TMR_CH_STATUS n) 1 then s.setRb (TMR_CH_STATUS n) 2 true else s
    (s.setTch n { c with cap := v, before := some (s.raw, c.cap, old) }).setRb (TMR_CH_STATUS n) 1 true

/-- Captures of channel `n` in the fabric cycle of a CAP_LO read count as arriving during the read (R82): the older value
returns to the registers and the latest capture goes to the shadow. -/
def State.capSame (s : State) (n : Nat) : State :=
  let c := s.tch n
  match c.before with
  | some (at_, v, st) =>
    if at_ = s.raw && c.window.isNone then
      (s.setTch n { c with cap := v, shadow := some c.cap, before := none }).setRf (TMR_CH_STATUS n) 2 1 st
    else s
  | none => s

/-- EDGE selects a rising or falling edge (R91). -/
def edgeSel (e : Nat) (rising : Bool) : Bool := e = 2 || (if e = 1 then !rising else rising)

/-- An edge of capture source `src` at local time `v` reaches every capture channel that selects it (R82, R83). -/
def State.capEdgeAt (s : State) (src : Nat) (rising : Bool) (v : Nat) : State :=
  (List.range 32).foldl (fun s n =>
    if s.tmode n = 3 && s.rf (TMR_CH_CTL n) 12 8 = src && edgeSel (s.rf (TMR_CH_CTL n) 5 4) rising then
      s.capTake n (BitVec.ofNat 64 v)
    else s) s

/-- An edge of capture source `src` now; one at CAP_IN may wake the module (R417). -/
def State.capEdge (s : State) (src : Nat) (rising : Bool) : State :=
  (if src < 4 && rising then s.wake (2 + src) else s).capEdgeAt src rising s.raw

/-- CHAIN of channel `n` acts on its target at fire time `f` (R81). -/
def State.chain (s : State) (n f : Nat) : State :=
  let g := s.rf (TMR_CH_CTL n) 28 24
  if !s.rb (TMR_CH_CTL n) 23 || g = n then s
  else if s.tmode g = 1 || s.tmode g = 2 then
    (s.setReg (TMR_CH_CMP g) (BitVec.ofNat 32 f + s.reg (TMR_CH_PERIOD g))).setTch g { s.tch g with armed := true }
  else if s.tmode g = 3 && s.rf (TMR_CH_CTL g) 12 8 = 0x10 then s.capTake g (BitVec.ofNat 64 f)
  else s

/-- Channel `n` is armed and its value is reached (R80). -/
def State.fires (s : State) (n : Nat) : Bool :=
  (s.tmode n = 1 || s.tmode n = 2) && (s.tch n).armed &&
    decide ((BitVec.ofNat 32 s.raw - s.reg (TMR_CH_CMP n)).toNat < 2 ^ 31)

/-- A fire of channel `n` (R81). [DESIGN CHOICE, assumption 40] -/
def State.fire (s : State) (n : Nat) : State :=
  let f := s.raw
  let per := s.reg (TMR_CH_PERIOD n)
  let again := s.tmode n = 2 && per ≠ 0
  let s := s.setRb (TMR_CH_STATUS n) 0 true
  let s := if n = s.rf PWR_WAKE_EN 20 16 then s.wake 0 else s
  let s := if again then s.setReg (TMR_CH_CMP n) (s.reg (TMR_CH_CMP n) + per) else s
  (s.setTch n { s.tch n with armed := again }).chain n f

/-- TMR_CHn_CMP written (R80). A fire that is due fires with the old value first (R81's meeting rule). -/
def State.cmpWrite (s : State) (n : Nat) (v : Word) : State :=
  let s := if s.fires n then s.fire n else s
  let s := s.setReg (TMR_CH_CMP n) v
  if s.tmode n = 1 || s.tmode n = 2 then s.setTch n { s.tch n with armed := true } else s

/-- COMPARE_ARM (R80). -/
def execCompareArm (t : Nat) (by_ : Ini) (n : Fin 32) (v : Word) (s : State) : Out :=
  s.access t (TMR_CH_CMP n.val) by_ (fun _ => false) fun s => s.cmpWrite n.val v

/-- COMPARE_FIRE (R81). -/
def execCompareFire (t : Nat) (n : Fin 32) (s : State) : Out :=
  s.when t 0 fun s => if s.fires n.val then s.fire n.val else s

/-- A second of network time begins at this tick (R83): the tick shows a later second than the one before, or its
first nanosecond. [PRESUMED, assumption 144] -/
def State.secondBegins (s : State) : Bool :=
  s.now % 1000000000 = 0 ||
    (decide (s.ntim.base < s.raw) && decide (s.netAt (s.raw - 1) / 1000000000 < s.now / 1000000000))

/-- CAPTURE (R82): an edge at CAP_IN[0] to CAP_IN[3], or a network-time second boundary (source 0x11); the other
sources are captured in the steps that make them. -/
def execCapture (t : Nat) (src : Fin 32) (rising : Bool) (s : State) : Out :=
  s.when t 0 fun s =>
    if src.val < 4 || (src.val = 0x11 && s.secondBegins) then s.capEdge src.val rising else s

/-- A read of TMR_CHn_CAP_LO opens the window (R82); the value read. A second read inside an open window starts its
microsecond anew. [DESIGN CHOICE, assumption 145] -/
def State.capLo (s : State) (n : Nat) : State × Word :=
  let s := (s.capExpire n).capSame n
  let c := s.tch n
  (s.setTch n { c with window := some (s.raw + 1000) }, c.cap.setWidth 32)

/-- CAP_LO_READ (R82). -/
def execCapLoRead (t : Nat) (by_ : Ini) (n : Fin 32) (s : State) : Out :=
  s.reads t (TMR_CH_CAP_LO n.val) by_ fun s => s.capLo n.val

/-- A read of TMR_CHn_CAP_HI closes the window (R82); the value read. -/
def State.capHi (s : State) (n : Nat) : State × Word :=
  let s := s.capExpire n
  (s.capClose n, (s.tch n).cap.extractLsb' 32 32)

/-- CAP_WINDOW_CLOSE (R82): by a read of CAP_HI, or by itself 1 us after the CAP_LO read. -/
def execCapWindowClose (t : Nat) (n : Fin 32) (reader : Option Ini) (s : State) : Out :=
  match reader with
  | some by_ => s.reads t (TMR_CH_CAP_HI n.val) by_ fun s => s.capHi n.val
  | none => s.when t 0 fun s => s.capExpire n.val

/-- The read-only views of the TMR registers. -/
def State.tmrView (s : State) (a : Nat) : Option Word :=
  let n := (a - 0x42001100) / 0x20
  if a < 0x42001100 || 32 ≤ n then none
  else if a = TMR_CH_CAP_LO n then some ((s.tch n).cap.setWidth 32)
  else if a = TMR_CH_CAP_HI n then some ((s.tch n).cap.extractLsb' 32 32)
  else if a = TMR_CH_STATUS n then
    some (BitVec.ofNat 32 ((s.tch n).shadow.isSome.toNat * 8 + s.rf a 2 0))
  else none

end Sys2Proof.Machine
end

