-- ==== Sys2Proof/Machine/Emac.lean ====
section
/-! DEFINITION. Ethernet ports: enables, links, rings, statistics, pauses and MDIO (R364 to R379). -/
namespace Sys2Proof.Machine

/-- Port `p`. -/
def State.emacOf (s : State) (p : Nat) : Emac := tabGet {} s.emac p

/-- The state with port `p` changed. -/
def State.onEmac (s : State) (p : Nat) (f : Emac → Emac) : State :=
  { s with emac := tabSet s.emac p (f (s.emacOf p)) }

/-- Unit number of port `p` (R458). [DEDUCED, assumption 137] -/
def portUnit (p : Nat) : Nat := 0x30 + p

/-- Port `p` is enabled and in service. -/
def State.portUp (s : State) (p : Nat) : Bool := s.rb (EMAC_CTL p) 0 && s.inService (portUnit p)

/-- EMACp_MACk as a number. -/
def State.macAddr (s : State) (p k : Nat) : Nat :=
  s.rf (EMAC_MAC_HI p k) 15 0 * 2 ^ 32 + (s.reg (EMAC_MAC_LO p k)).toNat

/-- Tenths of a nanosecond that one bit takes at the speed in force. -/
def State.bitTenths (s : State) (p : Nat) : Nat :=
  match s.rf (EMAC_STATUS p) 5 4 with
  | 3 => 1 | 2 => 10 | 1 => 100 | _ => 1000

/-- The first performance event of port `p` (R457). -/
def emacEvent (p : Nat) : Nat := if p < 4 then 288 + 8 * p else 320

/-- MAX_LEN of port `p`. -/
def State.maxLen (s : State) (p : Nat) : Nat := s.rf (EMAC_CTL p) 29 16

/-! ### Statistics -/

/-- Counter `i` of port `p` advances; it wraps, and passing the half range sets its bit (R378, R379). -/
def State.stat (s : State) (p i : Nat) : State :=
  let v := s.reg (EMAC_CNT p i) + 1
  let s := s.setReg (EMAC_CNT p i) v
  if v = 0x80000000 then s.setRb (EMAC_STAT_HALF p) i true else s

/-- The size bin of a frame of `n` bytes. -/
def sizeBin (n : Nat) : Nat :=
  if n ≤ 64 then 0 else if n ≤ 127 then 1 else if n ≤ 255 then 2 else if n ≤ 511 then 3 else if n ≤ 1023 then 4
  else if n ≤ 1518 then 5 else 6

/-- A byte of a frame; 0 beyond its end. -/
def fByte (f : List Byte) (i : Nat) : Nat := (f.getD i 0).toNat

/-- The 16-bit big-endian field at `i` of a frame. -/
def fHalf (f : List Byte) (i : Nat) : Nat := fByte f i * 256 + fByte f (i + 1)

/-- A frame carries an IEEE 802.1Q tag. -/
def fTagged (f : List Byte) : Bool := fHalf f 12 == 0x8100

/-- The EtherType behind the tag. -/
def fType (f : List Byte) : Nat := if fTagged f then fHalf f 16 else fHalf f 12

/-- Type counters: `base` is 14 to receive, 19 to send; pause frames and tagged frames count as such too. [DEDUCED,
assumption 95] -/
def State.statTypes (s : State) (p base : Nat) (f : List Byte) : State :=
  let da := f.take 6
  let s :=
    if da == List.replicate 6 (0xFF : Byte) then s.stat p (base + 2)
    else if fByte f 0 % 2 = 1 then s.stat p (base + 1)
    else s.stat p base
  let s := if fType f = 0x8808 && fHalf f (if fTagged f then 18 else 14) = 1 then s.stat p (base + 3) else s
  if fTagged f then s.stat p (base + 4) else s

/-- FCS of a frame. -/
def fcs (f : List Byte) : List Byte := leBytes 4 (crc32 (natsOf f))

/-! ### Rings -/

/-- Base address of the ring whose BASE_LO register is `a`. -/
def State.descBase (s : State) (a : Nat) : Nat := s.rf (a + 4) 3 0 * 2 ^ 32 + (s.reg a).toNat
/-- Descriptors of the ring. -/
def State.ringSize (s : State) (a : Nat) : Nat := 2 ^ s.rf (a + 8) 3 0
/-- HEAD, modulo the ring's size. -/
def State.ringHead (s : State) (a : Nat) : Nat := s.rf (a + 12) 27 16 % s.ringSize a
/-- Descriptors HEAD to TAIL - 1 (R371). -/
def State.ringAvail (s : State) (a : Nat) : Nat :=
  if s.rb (a + 8) 31 then
    (s.rf (a + 12) 11 0 % s.ringSize a + s.ringSize a - s.ringHead a) % s.ringSize a
  else 0

/-- The state with HEAD advanced by `n`. -/
def State.ringAdvance (s : State) (a n : Nat) : State := s.setRf (a + 12) 27 16 ((s.ringHead a + n) % s.ringSize a)

/-- Descriptor `i` from HEAD. -/
def State.ringDesc (s : State) (a i : Nat) : Nat := s.descBase a + 32 * ((s.ringHead a + i) % s.ringSize a)

/-- A little-endian word read over the fabric; a bus error reads as 0. -/
def State.word32 (s : State) (a : Nat) : Nat := (s.loadNat a 4).getD 0

/-- What a receive descriptor reports beside its buffer (R372): bits [27:16] of word 0x08, the TCI, and the stamp's
three words. -/
structure RxMeta where
  bits : Nat
  tci : Nat
  ns : Nat
  lo : Nat
  hi : Nat

/-- Stamp words of a network time. -/
def stampMeta (bits tci : Nat) (net : Int) : RxMeta :=
  let sec := (net / 1000000000 % 2 ^ 48).toNat
  { bits, tci, ns := (net % 1000000000).toNat, lo := sec % 2 ^ 32, hi := sec / 2 ^ 32 }

/-- Buffer bytes of the ring at `a`. -/
def State.ringBuf (s : State) (a : Nat) : Nat := s.rf (a + 8) 23 16 * 64

/-- One receive descriptor filled: `i` from HEAD, the piece, first, last, discarded. FRAME_LEN is a free value where EOP
is 0. -/
def State.fillDesc (s : State) (a i : Nat) (m : RxMeta) (len : Nat) (piece : List Byte) (last disc : Bool) : State :=
  let d := s.ringDesc a i
  let buf := (s.word32 d) / 64 * 64 + (s.word32 (d + 4)) % 16 * 2 ^ 32
  let s := s.storeDrop buf piece
  let r := if last then (len, s) else s.draw 65536
  let w8 := 2 ^ 31 + (i == 0).toNat * 2 ^ 30 + last.toNat * 2 ^ 29 + disc.toNat * 2 ^ 28 + m.bits * 2 ^ 16 + piece.length
  r.2.storeDrop (d + 8) (leBytes 4 w8 ++ leBytes 4 (r.1 * 65536 + m.tci) ++ leBytes 4 m.ns ++ leBytes 4 m.lo
    ++ leBytes 4 m.hi ++ leBytes 4 0)

/-- Descriptors a frame of `n` bytes takes. -/
def State.ringNeed (s : State) (a n : Nat) : Nat :=
  let b := s.ringBuf a
  if b = 0 then 1 else max 1 ((n + b - 1) / b)

/-- A frame written to the receive ring at `a` (R371 to R373): the state, and whether the whole frame was taken. A ring
that runs dry mid-frame returns what it filled with DISCARD. -/
def State.ringWrite (s : State) (a : Nat) (m : RxMeta) (f : List Byte) : Bool × State :=
  let have_ := s.ringAvail a
  let need := s.ringNeed a f.length
  let b := s.ringBuf a
  if have_ = 0 then (false, s)
  else
    let n := min have_ need
    let ok := decide (need ≤ have_)
    let s' := (List.range n).foldl (fun s i =>
      s.fillDesc a i m f.length ((f.drop (i * b)).take b) (ok && i + 1 == n) (!ok)) s
    (ok, s'.ringAdvance a n)

/-! ### Transmit rings (R374, R375) -/

/-- BASE_LO of transmit ring `q` of port `p`. -/
def txRing (p q : Nat) : Nat := EMAC_TX_BASE_LO p q

/-- Frames of ring `q` of port `p` not yet returned. -/
def State.txPend (s : State) (p q : Nat) : List TxPend := tabGet [] (s.emacOf p).rings q

/-- The state with them replaced. -/
def State.setTxPend (s : State) (p q : Nat) (l : List TxPend) : State :=
  s.onEmac p fun e => { e with rings := tabSet e.rings q l }

/-- HEAD advances over the frames that have completed (R371); each such advance pulses the ring interrupt. -/
def State.txReturn (s : State) (p q : Nat) : State :=
  let l := s.txPend p q
  let gone := l.takeWhile TxPend.done
  if gone.isEmpty then s
  else
    ((s.setTxPend p q (l.dropWhile TxPend.done)).ringAdvance (txRing p q) (gone.foldl (fun n x => n + x.descs) 0)).pulse
      (irqNo 11 p)

/-- A ring frame completes with a code in its EOP descriptor. -/
def State.txDone (s : State) (p q id : Nat) (c : Code) : State :=
  let l := s.txPend p q
  match l.find? fun x => x.id == id with
  | none => s
  | some x =>
    let s := s.storeDrop (x.eop + 0x10) (leBytes 4 (2 ^ 31 + c.val))
    (s.setTxPend p q (l.map fun (y : TxPend) => if y.id == id then { y with done := true } else y)).txReturn p q

/-- A frame leaves without being sent, or has been sent: its source is told (R375). -/
def State.frameDone (s : State) (f : TxFrame) (c : Code) : State :=
  match f.src with
  | .ring q id => s.txDone f.port q id c
  | _ => s

/-- The egress VID of a frame (R397). -/
def State.egressVid (s : State) (p : Nat) (data : List Byte) : Nat :=
  if fTagged data then fHalf data 14 % 4096 else s.rf (EMAC_VLAN p) 11 0

/-- L of a frame (R396). -/
def TxFrame.len (f : TxFrame) : Nat := f.data.length + 4

/-- A frame padded with zeros to 60 bytes (R375). [DEDUCED, assumption 92] -/
def padFrame (f : List Byte) : List Byte := f ++ List.replicate (60 - f.length) 0

/-- A tag inserted after the source address. [DEDUCED, assumption 92] -/
def tagFrame (tci : Nat) (f : List Byte) : List Byte := f.take 12 ++ [0x81, 0x00] ++ beBytes 2 tci ++ f.drop 12

/-! ### Pauses (R376, R377) -/

/-- The pause in force at port `p` holds its transmitter now. [DEDUCED, assumption 96] -/
def State.paused (s : State) (p : Nat) : Bool :=
  match (s.emacOf p).pause with
  | some (n, some st) => decide (s.clk * 10 < st * 10 + n * 512 * s.bitTenths p)
  | _ => false

/-- A pause of `n` quanta received (R376): it starts now, or at the boundary that ends the frame in transmission.
[DEDUCED, assumption 96] -/
def State.pauseIn (s : State) (p n : Nat) : State :=
  s.onEmac p fun e =>
    { e with pause := if n = 0 then none else some (n, if e.wire.isSome then none else some s.clk) }

/-- The pause frame of `n` quanta that port `p` sends. -/
def State.pauseFrame (s : State) (p n : Nat) : List Byte :=
  padFrame (beBytes 6 0x0180C2000001 ++ beBytes 6 (s.macAddr p 0) ++ beBytes 2 0x8808 ++ beBytes 2 1 ++ beBytes 2 n)

/-- A pause frame waits for the next frame boundary. [DESIGN CHOICE, assumption 97] -/
def State.pauseOut (s : State) (p n : Nat) : State := s.onEmac p fun e => { e with sends := e.sends ++ [n] }

/-- PAUSE_END (R376). -/
def execPauseEnd (t : Nat) (p : Fin 5) (s : State) : Out :=
  s.when t 17 fun s =>
    match (s.emacOf p.val).pause with
    | some (_, some _) => if s.paused p.val then s else s.onEmac p.val fun e => { e with pause := none }
    | _ => s

/-- PAUSE_XOFF (R377): the receive FIFO holds `fill` bytes. -/
def execPauseXoff (t : Nat) (p : Fin 5) (fill : Nat) (s : State) : Out :=
  s.when t 17 fun s =>
    if s.portUp p.val && s.rb (EMAC_CTL p.val) 9 && (s.emacOf p.val).xoff.isNone &&
        s.rf (EMAC_PAUSE_CTL p.val) 15 8 * 1024 ≤ fill then
      (s.pauseOut p.val (s.rf (EMAC_PAUSE_CTL p.val) 31 16)).onEmac p.val fun e => { e with xoff := some s.clk }
    else s

/-- PAUSE_REPEAT (R377). -/
def execPauseRepeat (t : Nat) (p : Fin 5) (fill : Nat) (s : State) : Out :=
  s.when t 17 fun s =>
    let q := s.rf (EMAC_PAUSE_CTL p.val) 31 16
    match (s.emacOf p.val).xoff with
    | some at_ =>
      if s.portUp p.val && s.rb (EMAC_CTL p.val) 9 && s.rf (EMAC_PAUSE_CTL p.val) 7 0 * 1024 ≤ fill &&
          at_ * 20 + q * 512 * s.bitTenths p.val ≤ s.clk * 20 then
        (s.pauseOut p.val q).onEmac p.val fun e => { e with xoff := some s.clk }
      else s
    | none => s

/-- PAUSE_XON (R377). -/
def execPauseXon (t : Nat) (p : Fin 5) (fill : Nat) (s : State) : Out :=
  s.when t 17 fun s =>
    if (s.emacOf p.val).xoff.isSome && decide (fill < s.rf (EMAC_PAUSE_CTL p.val) 7 0 * 1024) then
      let s := s.onEmac p.val fun e => { e with xoff := none }
      if s.rb (EMAC_CTL p.val) 9 && s.portUp p.val then s.pauseOut p.val 0 else s
    else s

/-- EMACp_PAUSE_SEND written (R377). -/
def State.pauseSend (s : State) (p : Nat) (v : Word) : State := if bit v 16 then s.pauseOut p (fld v 15 0) else s

/-- PAUSE_SEND (R377): a write of EMACp_PAUSE_SEND. -/
def execPauseSend (t : Nat) (by_ : Ini) (p : Fin 5) (v : Word) (s : State) : Out :=
  s.access t (EMAC_PAUSE_SEND p.val) by_ (fun s => !s.inService (0x30 + p.val)) fun s => s.pauseSend p.val v

/-! ### Enables and links -/

/-- LINK of port `p` becomes `up`; a change is recorded (R394) and may wake (R380). -/
def State.setLink (s : State) (p : Nat) (up : Bool) : State :=
  if s.rb (EMAC_STATUS p) 0 == up then s
  else
    let s := (s.setRb (EMAC_STATUS p) 0 up).setRb (EMAC_STATUS p) 1 true
    let hit := (List.range 8).any fun f =>
      s.rb (EMAC_WAKE_CTL f) 31 && s.rb (EMAC_WAKE_CTL f) 29 && s.rb (EMAC_WAKE_CTL f) (16 + p)
    if hit then
      let s := s.setRb EMAC_WAKE_STATUS (13 + p) true
      if s.rb PWR_WAKE_EN (11 + p) then s.wake 6 else s
    else s

/-- The speed a port runs at when its link comes up without a PHY's word (R364, R365). [DEDUCED, assumption 100] -/
def portSpeed (p : Nat) (e : Emac) : Nat :=
  if p = 4 then e.speed else if e.mode = 0 then 3 else 2

/-- EMACp_CTL written (R365, R394). [DEDUCED, assumption 100] -/
def State.emacCtl (s : State) (p : Nat) (v : Word) : State :=
  let old := s.reg (EMAC_CTL p)
  let v := setFld v 29 16 (max 1518 (min 9216 (fld v 29 16)))
  let v := if p < 4 && fld v 3 2 = 3 then setFld v 3 2 (fld old 3 2) else v
  let v := if fld v 5 4 = 3 then setFld v 5 4 2 else v
  let s := s.setReg (EMAC_CTL p) (v &&& 0x3FFF03FF)
  if bit v 0 && !bit old 0 then
    let s := s.onEmac p fun e => { e with mode := fld v 3 2, speed := fld v 5 4 }
    s.setRf (EMAC_STATUS p) 5 4 (portSpeed p (s.emacOf p))
  else if !bit v 0 && bit old 0 then s.setLink p false
  else s

/-- PORT_ENABLE (R365): a write of EMACp_CTL. -/
def execPortEnable (t : Nat) (by_ : Ini) (p : Fin 5) (v : Word) (s : State) : Out :=
  s.access t (EMAC_CTL p.val) by_ (fun s => !s.inService (0x30 + p.val)) fun s => s.emacCtl p.val v

/-- Pause directions that Annex 28B resolves from both sides' abilities: transmit, receive. [PRESUMED, assumption 98]
-/
def pauseResolve (sym asym lpSym lpAsym : Bool) : Bool × Bool :=
  if sym && lpSym then (true, true)
  else if !sym && asym && lpSym && lpAsym then (true, false)
  else if sym && asym && !lpSym && lpAsym then (false, true)
  else (false, false)

/-- What a link reports when it changes: the SGMII speed and duplex, the partner's abilities and the 10GBASE-R faults. -/
def State.linkChange (s : State) (p : Nat) (up half : Bool) (sp : Nat) (lpSym lpAsym lf rf : Bool) : State :=
  if !s.portUp p then s
  else
    let e := s.emacOf p
    let sgmii := p < 4 && e.mode = 2
    let kx := p < 4 && e.mode = 1
    let an := s.rb (EMAC_CTL p) 1
    let tenG := p < 4 && e.mode = 0
    let up := up && !(sgmii && an && half) && !(tenG && lf)
    let s := s.setRf (EMAC_STATUS p) 5 4 (if sgmii && an then min sp 2 else portSpeed p e)
    let s := s.setRb (EMAC_STATUS p) 2 (up && an && (sgmii || kx))
    let s := (s.setRb (EMAC_STATUS p) 8 (kx && an && lpSym)).setRb (EMAC_STATUS p) 9 (kx && an && lpAsym)
    let s := (s.setRb (EMAC_STATUS p) 6 (tenG && lf)).setRb (EMAC_STATUS p) 7 (tenG && rf)
    let r := pauseResolve (s.rb (EMAC_CTL p) 6) (s.rb (EMAC_CTL p) 7) lpSym lpAsym
    let s := s.onEmac p fun e =>
      { e with pauseTx := kx && an && up && r.1, pauseRx := kx && an && up && r.2 }
    s.setLink p up

/-- LINK_CHANGE (R364, R394). -/
def execLinkChange (t : Nat) (p : Fin 5) (up half : Bool) (sp : Fin 3) (lpSym lpAsym lf rf : Bool) (s : State) : Out :=
  let s := s.at t
  if s.board.held then .next s
  else if s.domOn 17 then .next (s.linkChange p.val up half sp.val lpSym lpAsym lf rf)
  else if s.pwr.ember && s.rb PWR_WAKE_EN (11 + p.val) then .next (s.setLink p.val up)
  else .next s

/-! ### MDIO (R365) -/

/-- EMAC_MDIO written by an initiator: with GO a frame starts, unless one is in progress. Bits [17:16], which no field
of R393 names, are stored and read back. [PRESUMED, assumption 99; DESIGN CHOICE, assumption 147] -/
def State.mdioWrite (s : State) (by_ : Ini) (v : Word) : State :=
  if s.mdio.isSome then (if bit v 31 then s.result by_ EMAC_MDIO_RES .refused else s)
  else
    let s := s.setReg EMAC_MDIO (v &&& 0x7FFFFFFF)
    if bit v 31 then
      { s with mdio := some { word := v &&& 0x7FFFFFFF, by_, due := s.clk + 25600 } }
    else s

/-- MDIO (R365): a write of EMAC_MDIO. -/
def execMdio (t : Nat) (by_ : Ini) (v : Word) (s : State) : Out :=
  s.access t EMAC_MDIO by_ (fun s => !s.inService 0x30) fun s => s.mdioWrite by_ v

/-- The OP of an MDIO frame reads. [PRESUMED, assumption 99] -/
def mdioReads (w : Word) : Bool := fld w 29 28 == 2 || (bit w 30 && fld w 29 28 == 3)

/-- MDIO_DONE (R365): the PHY has returned `d` to a read. -/
def execMdioDone (t : Nat) (d : BitVec 16) (s : State) : Out :=
  s.when t 17 fun s =>
    match s.mdio with
    | some m =>
      if m.due ≤ s.clk then
        let s := { s with mdio := none }
        let s := if mdioReads m.word then s.setRf EMAC_MDIO 15 0 d.toNat else s
        (s.result m.by_ EMAC_MDIO_RES .ok).pulse (irqNo 11 11)
      else s
    | none => s

/-! ### End of a transmission -/

/-- The UDP checksum `c` after the halves `old` became `new`. -/
def udpPatch (c : Nat) (old new : List Nat) : Nat :=
  let rec fold (n x : Nat) : Nat := match n with | 0 => x | n + 1 => fold n (x % 65536 + x / 65536)
  let x := 0xFFFF - c + old.foldl (fun a v => a + (0xFFFF - v)) 0 + new.foldl (· + ·) 0
  let r := 0xFFFF - fold 4 x
  if r = 0 then 0xFFFF else r

/-- The 16-bit halves of a byte string. -/
def halves (n : Nat) (f : List Byte) : List Nat := (List.range n).map fun i => fHalf f (2 * i)

/-- A frame with `bs` written at `i`. -/
def patch (f : List Byte) (i : Nat) (bs : List Byte) : List Byte :=
  (f.take i ++ (bs.take (f.length - i)) ++ f.drop (i + bs.length))

/-- originTimestamp written at transmission, and the UDP checksum corrected (R76), whatever message the frame marked
ONE_STEP carries. [DESIGN CHOICE, assumption 148] -/
def oneStep (f : TxFrame) (net : Int) : List Byte :=
  let a := f.ptpOfs + 34
  let ts := beBytes 6 (net / 1000000000 % 2 ^ 48).toNat ++ beBytes 4 (net % 1000000000).toNat
  let d := patch f.data a ts
  let sum := fHalf f.data (f.ptpOfs - 2)
  if fType f.data = 0x88F7 || sum = 0 then d
  else patch d (f.ptpOfs - 2) (beBytes 2 (udpPatch sum (halves 5 (f.data.drop a)) (halves 5 (d.drop a))))

/-- The two-step stamp of a sent frame enters the port's FIFO (R77); no register takes one out of it. [DESIGN CHOICE,
assumption 149] -/
def State.stampTx (s : State) (p : Nat) (f : TxFrame) (net : Int) : State :=
  if !f.tsReq then s
  else if 16 ≤ (s.emacOf p).stamps.length then s.onEmac p fun e => { e with stampDrops := e.stampDrops + 1 }
  else
    (s.onEmac p fun e => { e with stamps := e.stamps ++ [{
      msgType := fByte f.data f.ptpOfs % 16
      domain := fByte f.data (f.ptpOfs + 4)
      seqId := fHalf f.data (f.ptpOfs + 30)
      stamp := net }] }).pulse (irqNo 11 13)

/-- A PTP event stamp at port `p` at raw instant `raw` is a capture source (R83). [PRESUMED, assumption 144] -/
def State.ptpEdge (s : State) (p raw : Nat) : State := s.capEdgeAt (0x0B + p) true raw

/-- The frame in transmission at port `p` ends: counters, stamps, the descriptor's OK, and a pause that waits for the
boundary starts (R375 to R378). -/
def State.txEnd (s : State) (p : Nat) (w : TxWire) : State :=
  let raw := (w.start + 64 * s.bitTenths p / 10 - s.relAt) % 2 ^ 64
  let net := s.netWas raw
  let data := if w.frame.oneStep then oneStep w.frame net else w.frame.data
  let s := s.onEmac p fun e => { e with
    wire := none
    sent := data ++ fcs data
    pause := e.pause.map fun x => match x.2 with | some _ => x | none => (x.1, some s.clk) }
  let n := data.length + 4
  let s := (s.stat p (7 + sizeBin n)).statTypes p 19 data
  let s := (s.event (emacEvent p + 2)).eventFrac (emacEvent p + 3) 64 n
  let s := s.stampTx p w.frame net
  let s := if w.frame.tsReq || w.frame.oneStep then s.ptpEdge p raw else s
  let s :=
    if p < 4 && w.frame.src != .pause then
      (s.bump (TMGR_Q_CNT_TX (8 * p + w.frame.queue))).event (352 + 4 * p)
    else s
  s.frameDone w.frame .ok

/-- FRAME_TRANSMIT_COMPLETE (R375). -/
def execFrameTransmitComplete (t : Nat) (p : Fin 5) (s : State) : Out :=
  s.when t 17 fun s =>
    match (s.emacOf p.val).wire with
    | some w => if w.due ≤ s.clk then s.txEnd p.val w else s
    | none => s

/-- What the read-only registers of a port show. -/
def State.emacView (s : State) (a : Nat) : Option Word :=
  let p := a / 0x10000 % 16
  let e := s.emacOf p
  if a = EMAC_STATUS p then some (setBit (s.reg a) 3 (s.domOn 17 && !s.inService (portUnit p)))
  else if a = EMAC_PAUSE_STATUS p then
    match e.pause with
    | some (n, some st) =>
      if s.paused p then
        let q := 512 * s.bitTenths p
        some (BitVec.ofNat 32 (65536 + (st * 10 + n * q - s.clk * 10 + q - 1) / q))
      else some 0
    | _ => some 0
  else none

end Sys2Proof.Machine
end

