-- ==== Sys2Proof/Machine/Tmgr.lean ====
section
/-! DEFINITION. The traffic manager: policers, admission, shaped flows, selection (R396 to R403, R405, R406). -/
namespace Sys2Proof.Machine

/-- The current wheel slot. -/
def State.wheelNow (s : State) : Nat := s.raw / 64 % 2 ^ 32

/-- Slots from `a` to `b` mod 2^32. -/
def slotsFrom (a b : Nat) : Nat := (b + 2 ^ 32 - a) % 2 ^ 32

/-- Cells of a frame (R398). -/
def TxFrame.cells (f : TxFrame) : Nat := (f.len + 255) / 256

/-- Cells of a list of frames. -/
def cellsOf (l : List TxFrame) : Nat := l.foldl (fun n f => n + f.cells) 0

/-- Queue `i` = 8p + q; 32 is EMAC4's own. [DESIGN CHOICE, assumption 107] -/
def State.queueOf (s : State) (i : Nat) : List TxFrame := tabGet [] s.tmgr.queues i

/-- The state with a queue replaced. -/
def State.setQueue (s : State) (i : Nat) (l : List TxFrame) : State :=
  { s with tmgr := { s.tmgr with queues := tabSet s.tmgr.queues i l } }

/-- A frame at the tail of its queue. -/
def State.toQueue (s : State) (f : TxFrame) : State :=
  let i := if f.port < 4 then 8 * f.port + f.queue else 32
  s.setQueue i (s.queueOf i ++ [f])

/-- Flow `f`. -/
def State.flowOf (s : State) (f : Nat) : Flow := tabGet {} s.tmgr.flows f

/-- The state with a flow replaced. -/
def State.setFlow (s : State) (f : Nat) (x : Flow) : State :=
  { s with tmgr := { s.tmgr with flows := tabSet s.tmgr.flows f x } }

/-- Frames of queue `i` that wait in flows. -/
def State.inFlows (s : State) (i : Nat) : List TxFrame :=
  s.tmgr.flows.flatMap fun x => x.2.frames.filter fun f => 8 * f.port + f.queue == i

/-- Cells that queue `i` holds, flows included. -/
def State.queueCells (s : State) (i : Nat) : Nat := cellsOf (s.queueOf i) + cellsOf (s.inFlows i)

/-- TMGR_STATUS.FREE_CELLS: a frame in transmission still holds its cells. -/
def State.freeCells (s : State) : Nat :=
  let q := (List.range 32).foldl (fun n i => n + s.queueCells i) 0
  let w := (List.range 4).foldl (fun n p =>
    match (s.emacOf p).wire with
    | some x => if x.frame.src == .pause then n else n + x.frame.cells
    | none => n) 0
  16384 - (q + w)

/-- L' (R396): the length with the signed overhead of bits [29:24]. -/
def withOvh (v : Word) (len : Nat) : Nat := (max 1 ((len : Int) + sfld v 29 24)).toNat

/-- Tokens accrued in `n` slots at `kbps`, in 2^-16 byte, rounded down (R400, R403). [DEDUCED, assumption 112] -/
def accrued (n kbps : Nat) : Nat := n * kbps * 8 * 65536 / 1000000

/-! ### Shaped flows (R400 to R402) -/

/-- RATE of flow `f` in kbit/s. -/
def State.flowRate (s : State) (f : Nat) : Nat := s.rf (TMGR_FLOW_RATE f) 23 0

/-- Release of head frames while the flow is eligible: the flow's frames that leave, and the flow. [DEDUCED,
assumption 112] -/
def flowRelease (slot rate : Nat) (burst : Word) : List TxFrame → Flow → List TxFrame × Flow
  | [], x => ([], { x with frames := [] })
  | f :: r, x =>
    if x.t < 0 then ([], { x with frames := f :: r })
    else
      let t := x.t - (withOvh burst f.len * 65536 : Nat)
      let wait : Nat := if 0 ≤ t then 0 else ((-t).toNat * 125000 + rate * 65536 - 1) / (rate * 65536)
      let x := { x with t, next := (slot + wait) % 2 ^ 32 }
      let y := flowRelease slot rate burst r x
      (f :: y.1, y.2)

/-- The update and release of flow `f` now (R400). -/
def State.flowServe (s : State) (f : Nat) : State :=
  let x := s.flowOf f
  let b := s.reg (TMGR_FLOW_BURST f)
  let t := min (fld b 19 0 * 65536 : Int) (x.t + accrued (slotsFrom x.last s.wheelNow) (s.flowRate f))
  let r := flowRelease s.wheelNow (s.flowRate f) b x.frames { x with t, last := s.wheelNow }
  r.1.foldl State.toQueue (s.setFlow f r.2)

/-- The slot at which the wheel serves a flow (R401): NEXT, or the next turn where a service there released nothing. -/
def Flow.dueSlot (x : Flow) : Nat :=
  let past := slotsFrom x.next x.last
  if past < 2 ^ 31 then (x.next + (past / 4096 + 1) * 4096) % 2 ^ 32 else x.next

/-- The flow waits and its slot has come, at slot `sl`. -/
def Flow.isDue (x : Flow) (sl : Nat) : Bool := !x.frames.isEmpty && decide (slotsFrom x.dueSlot sl < 2 ^ 31)

/-- The due flow whose slot came first. -/
def dueFlow (sl : Nat) : Tab Flow → Option (Nat × Flow) → Option (Nat × Flow)
  | [], b => b
  | (f, x) :: r, b =>
    if x.isDue sl then
      match b with
      | some (g, y) => dueFlow sl r (if slotsFrom y.dueSlot sl < slotsFrom x.dueSlot sl then some (f, x) else some (g, y))
      | none => dueFlow sl r (some (f, x))
    else dueFlow sl r b

/-- FLOW_RELEASE (R400, R401): the wheel serves the due flow with the lowest NEXT, at most 32 in one slot. -/
def execFlowRelease (t : Nat) (s : State) : Out :=
  s.when t 17 fun s =>
    match dueFlow s.wheelNow s.tmgr.flows none with
    | none => s
    | some (f, x) =>
      let n := if s.tmgr.wheelSlot = s.wheelNow then s.tmgr.wheelN else 0
      if 32 ≤ n then s
      else
        let s := { s with tmgr := { s.tmgr with wheelSlot := s.wheelNow, wheelN := n + 1 } }
        let s := if x.dueSlot = s.wheelNow then s else (s.bump TMGR_CNT_WHEEL_LATE).event (352 + 18)
        s.flowServe f

/-- Frames of flow `f` move to their queues at once, in order (R402). -/
def State.flowDrain (s : State) (f : Nat) : State :=
  let x := s.flowOf f
  if x.frames.isEmpty then s else x.frames.foldl State.toQueue (s.setFlow f { x with frames := [] })

/-- Shaping is in force for flow `f` (R402, R409). -/
def State.flowOn (s : State) (f : Nat) : Bool := s.rb TMGR_CTL 0 && s.rb (TMGR_FLOW_RATE f) 31

/-- TMGR_FLOWf_RATE written (R402): a release of the same slot commits first, then the flow is reset and a waiting head
frame is released at the new rate. -/
def State.flowRateWrite (s : State) (f : Nat) (v : Word) : State :=
  let s := if (s.flowOf f).isDue s.wheelNow then s.flowServe f else s
  let v := setFld (v &&& 0x80FFFFFF) 23 0 (max 64 (min 10000000 (fld v 23 0)))
  let s := s.setReg (TMGR_FLOW_RATE f) v
  let s := s.setFlow f { s.flowOf f with t := 0, last := s.wheelNow, next := s.wheelNow }
  if s.flowOn f then (if (s.flowOf f).frames.isEmpty then s else s.flowServe f) else s.flowDrain f

/-- FLOW_RATE_WRITE (R402). -/
def execFlowRateWrite (t : Nat) (by_ : Ini) (f : Fin 512) (v : Word) (s : State) : Out :=
  s.access t (TMGR_FLOW_RATE f.val) by_ (fun _ => false) fun s => s.flowRateWrite f.val v

/-- TMGR_FLOWf_BURST written (R402). -/
def State.flowBurstWrite (s : State) (f : Nat) (v : Word) : State :=
  let v := setFld (v &&& 0x3F0FFFFF) 19 0 (max 64 (fld v 19 0))
  let s := s.setReg (TMGR_FLOW_BURST f) v
  let x := s.flowOf f
  let b : Int := (fld v 19 0 * 65536 : Nat)
  if b < x.t then s.setFlow f { x with t := b } else s

/-- FLOW_BURST_WRITE (R402). -/
def execFlowBurstWrite (t : Nat) (by_ : Ini) (f : Fin 512) (v : Word) (s : State) : Out :=
  s.access t (TMGR_FLOW_BURST f.val) by_ (fun _ => false) fun s => s.flowBurstWrite f.val v

/-- TMGR_CTL written: SHP_EN falling bypasses every flow (R402, R409). [DEDUCED, assumption 113] -/
def State.tmgrCtl (s : State) (v : Word) : State :=
  let s := s.setReg TMGR_CTL (v &&& 3)
  if bit v 0 then s else s.tmgr.flows.foldl (fun s x => s.flowDrain x.1) s

/-! ### Policers (R403) -/

/-- Policer `k`. -/
def State.policerOf (s : State) (k : Nat) : Policer := tabGet {} s.tmgr.policers k

/-- The state with a policer replaced. -/
def State.setPolicer (s : State) (k : Nat) (x : Policer) : State :=
  { s with tmgr := { s.tmgr with policers := tabSet s.tmgr.policers k x } }

/-- CBS of policer `k`, in 2^-16 byte. -/
def State.cbs (s : State) (k : Nat) : Nat := s.rf (TMGR_POL_CBS k) 19 0 * 65536

/-- The policer's bucket at the present slot. -/
def State.policerNow (s : State) (k : Nat) : Policer :=
  let x := s.policerOf k
  { tok := min (s.cbs k) (x.tok + accrued (slotsFrom x.last s.wheelNow) (s.rf (TMGR_POL_RATE k) 23 0)), last := s.wheelNow }

/-- A frame of length `len` is judged by policer `k`. -/
def State.police (s : State) (k len : Nat) : Bool × State :=
  let x := s.policerNow k
  let need := withOvh (s.reg (TMGR_POL_CBS k)) len * 65536
  if need ≤ x.tok then (true, s.setPolicer k { x with tok := x.tok - need })
  else (false, ((s.setPolicer k x).bump (TMGR_POL_DROP k)).event (352 + 17))

/-- TMGR_POLk_RATE or, with `cbs`, TMGR_POLk_CBS written (R403). -/
def State.policerWrite (s : State) (k : Nat) (cbs : Bool) (v : Word) : State :=
  let s := s.setPolicer k (s.policerNow k)
  if cbs then
    let v := setFld (v &&& 0x3F0FFFFF) 19 0 (max 64 (fld v 19 0))
    let s := s.setReg (TMGR_POL_CBS k) v
    let x := s.policerOf k
    s.setPolicer k { x with tok := min x.tok (s.cbs k) }
  else
    let was := s.rb (TMGR_POL_RATE k) 31
    let v := setFld (v &&& 0x80FFFFFF) 23 0 (max 64 (min 10000000 (fld v 23 0)))
    let s := s.setReg (TMGR_POL_RATE k) v
    if bit v 31 && !was then s.setPolicer k { tok := s.cbs k, last := s.wheelNow } else s

/-- POLICER_RATE_WRITE (R403). -/
def execPolicerRateWrite (t : Nat) (by_ : Ini) (k : Fin 1024) (cbs : Bool) (v : Word) (s : State) : Out :=
  s.access t (if cbs then TMGR_POL_CBS k.val else TMGR_POL_RATE k.val) by_ (fun _ => false) fun s => s.policerWrite k.val cbs v

/-! ### Admission (R398) -/

/-- A frame comes to the traffic manager: after the frames that came before it, and after those of lower ports that came
at the same instant (R403). EMAC4's frames bypass it. -/
def State.offer (s : State) (f : TxFrame) : State :=
  let f := { f with since := s.clk }
  if 4 ≤ f.port then s.toQueue f
  else
    let ahead (g : TxFrame) : Bool := g.since < f.since || g.port ≤ f.port
    let adm := s.tmgr.adm.takeWhile ahead ++ [f] ++ s.tmgr.adm.dropWhile ahead
    { s with tmgr := { s.tmgr with adm } }

/-- The frame fits its queue and the buffer. -/
def State.fits (s : State) (f : TxFrame) : Bool :=
  let i := 8 * f.port + f.queue
  decide (s.queueCells i + f.cells ≤ s.rf (TMGR_Q_CFG i) 13 0) && decide (f.cells ≤ s.freeCells)

/-- The frame's source waits when its queue is full: HOLD 1 for a ring frame or a datagram. -/
def State.holds (s : State) (f : TxFrame) : Bool :=
  s.rb (TMGR_Q_CFG (8 * f.port + f.queue)) 31 && f.src != .transit

/-- An admitted frame enters its flow or its queue (R397, R400). [DEDUCED, assumption 108] -/
def State.acceptFrame (s : State) (f : TxFrame) : State :=
  let v := s.reg (TMGR_VCLS f.vid)
  let fl := fld v 24 16
  if bit v 31 && s.flowOn fl then
    let x := s.flowOf fl
    let s := s.setFlow fl { x with frames := x.frames ++ [f] }
    if x.frames.isEmpty then s.flowServe fl else s
  else s.toQueue f

/-- A frame is judged: passed by its policer once, then admitted, dropped or kept by its source. `rest` is the admission
list without it, `keep` puts it back. -/
def State.judge (s : State) (f : TxFrame) (keep : TxFrame → List TxFrame) (rest : List TxFrame) : State :=
  let v := s.reg (TMGR_VCLS f.vid)
  let k := fld v 9 0
  let r :=
    if !f.policed && bit v 15 && s.rb TMGR_CTL 1 && s.rb (TMGR_POL_RATE k) 31 then s.police k f.len else (true, s)
  let s := r.2
  let drop (s : State) : State :=
    { s with tmgr := { s.tmgr with adm := rest } }.frameDone f .refused
  if !r.1 then drop s
  else if s.fits f then { s with tmgr := { s.tmgr with adm := rest } }.acceptFrame f
  else if s.holds f then { s with tmgr := { s.tmgr with adm := keep { f with policed := true } } }
  else drop ((s.bump (TMGR_Q_CNT_DROP (8 * f.port + f.queue))).event (352 + 16))

/-- The first frame that can be judged now: one not held, or a held one that fits. -/
def State.firstJudged (s : State) : List TxFrame → List TxFrame → Option (List TxFrame × TxFrame × List TxFrame)
  | _, [] => none
  | pre, f :: r =>
    if f.policed && s.holds f && !s.fits f then s.firstJudged (pre ++ [f]) r else some (pre, f, r)

/-- FRAME_ADMISSION (R397, R398, R403). -/
def execFrameAdmission (t : Nat) (s : State) : Out :=
  s.when t 17 fun s =>
    match s.firstJudged [] s.tmgr.adm with
    | some (pre, f, r) => s.judge f (fun g => pre ++ [g] ++ r) (pre ++ r)
    | none => s

/-! ### Fetching frames from transmit rings (R374, R375) -/

/-- Descriptors from index `i` on, at most `n`, up to the first EOP: their addresses. [DEDUCED, assumption 93] -/
def State.scanTx (s : State) (a i : Nat) : Nat → Option (List Nat)
  | 0 => none
  | n + 1 =>
    let d := s.ringDesc a i
    if bit (BitVec.ofNat 32 (s.word32 (d + 8))) 30 then some [d]
    else (s.scanTx a (i + 1) n).map (d :: ·)

/-- The bytes of the buffers of descriptors; none where a buffer cannot be read. [DEDUCED, assumption 93] -/
def State.gather (s : State) : List Nat → Option (List Byte)
  | [] => some []
  | d :: r =>
    let n := s.word32 (d + 8) % 16384
    let a := s.word32 d + s.word32 (d + 4) % 16 * 2 ^ 32
    let here := if n = 0 then some [] else s.load a n
    match here, s.gather r with
    | some x, some y => some (x ++ y)
    | _, _ => none

/-- The frame in descriptors `ds` of ring `q` of port `p`, identity `id`: offered to the traffic manager, or completed
unsent. -/
def State.takeFrame (s : State) (p q id : Nat) (ds : List Nat) : State :=
  let d0 := ds.headD 0
  let w8 := BitVec.ofNat 32 (s.word32 (d0 + 8))
  let wc := BitVec.ofNat 32 (s.word32 (d0 + 12))
  let total := ds.foldl (fun n d => n + s.word32 (d + 8) % 16384) 0
  let tag := bit w8 27
  let ofs := fld wc 15 0
  if s.maxLen p + 4 < max 60 total + 4 + 4 * tag.toNat || (bit w8 28 && (p == 4 || decide (total ≤ ofs))) then
    s.txDone p q id .badArgument
  else
    match s.gather ds with
    | none => s.txDone p q id .fenced
    | some raw =>
      let data := if tag then tagFrame (fld wc 31 16) (padFrame raw) else padFrame raw
      s.offer {
        src := .ring q id
        port := p
        queue := q
        data
        vid := s.egressVid p data
        tsReq := bit w8 29
        oneStep := bit w8 28
        ptpOfs := if tag && 12 ≤ ofs then ofs + 4 else ofs }

/-- TRANSMIT_FRAME_FETCH (R374, R375): the next whole frame of transmit ring `q`, unless a frame of that ring is held at
admission. -/
def execTransmitFrameFetch (t : Nat) (p : Fin 5) (q : Fin 8) (s : State) : Out :=
  s.when t 17 fun s =>
    let p := p.val
    let q := q.val
    let a := txRing p q
    let held := s.tmgr.adm.any fun f => f.port == p && (match f.src with | .ring q' _ => q' == q | _ => false)
    if !s.portUp p || held || (p == 4 && q != 0) then s
    else
      let used := (s.txPend p q).foldl (fun n x => n + x.descs) 0
      match s.scanTx a used (s.ringAvail a - used) with
      | none => s
      | some ds =>
        let id := (s.emacOf p).nextId
        let s := (s.setTxPend p q (s.txPend p q ++ [{ id, descs := ds.length, eop := ds.getLastD 0 }])).onEmac p
          fun e => { e with nextId := id + 1 }
        s.takeFrame p q id ds

/-! ### Selection (R399, R405, R406) -/

/-- Wire time of a frame of `n` bytes with FCS at port `p`, tenths of a ns. -/
def State.wireTenths (s : State) (p n : Nat) : Nat := (n + 20) * 8 * s.bitTenths p

/-- Head frames of queue `q` that can never be sent are dropped (R406). -/
def State.dropOversize (s : State) (p q : Nat) : Nat → State
  | 0 => s
  | n + 1 =>
    let i := 8 * p + q
    match s.queueOf i with
    | [] => s
    | f :: r =>
      if s.rb (TMGR_GCL_CTL p) 31 && decide ((s.reg (TMGR_MAXOPEN p q)).toNat ≠ 0xFFFFFFFF) &&
          decide ((s.reg (TMGR_MAXOPEN p q)).toNat * 10 < s.wireTenths p f.len) then
        let s := (((s.setQueue i r).bump (TMGR_CNT_OVERSIZE p)).event (352 + 4 * p + 2)).frameDone f .refused
        s.dropOversize p q n
      else s

/-- Queue `q` has a head frame that its gate lets go, at the present boundary. -/
def State.sendable (s : State) (p q : Nat) : Bool :=
  match s.queueOf (8 * p + q) with
  | [] => false
  | f :: _ => s.gateOpen p q && s.staysOpen p q (s.wireTenths p f.len)

/-- The guard band holds the head frame of queue `q`: it is counted once (R405). [DEDUCED, assumption 110] -/
def State.countHeld (s : State) (p q : Nat) : State :=
  let i := 8 * p + q
  match s.queueOf i with
  | f :: r =>
    if !f.held && s.gateOpen p q && !s.sendable p q then
      (((s.setQueue i ({ f with held := true } :: r)).bump (TMGR_CNT_HELD p)).event (352 + 4 * p + 1))
    else s
  | [] => s

/-- L of the head frame of queue `i`. -/
def State.headLen (s : State) (i : Nat) : Nat := match s.queueOf i with | f :: _ => f.len | [] => 0

/-- Deficit of queue `i`. -/
def State.deficitOf (s : State) (i : Nat) : Nat := tabGet 0 s.tmgr.deficit i

/-- The state with a deficit set. -/
def State.setDeficit (s : State) (i n : Nat) : State :=
  { s with tmgr := { s.tmgr with deficit := tabSet s.tmgr.deficit i n } }

/-- The first queue with DRR 1 and an eligible head, cyclically after queue `q`. [DEDUCED, assumption 109] -/
def State.nextDrr (s : State) (p q : Nat) : Option Nat :=
  ((List.range 8).map fun i => (q + 1 + i) % 8).find? fun i =>
    s.rb (TMGR_Q_CFG (8 * p + i)) 30 && s.sendable p i

/-- Deficit round robin: the queue that sends, with its deficit paid; each visit adds QUANTUM (R399). [DEDUCED,
assumption 109] -/
def State.drrPick (s : State) (p : Nat) : Nat → Option Nat × State
  | 0 => (none, s)
  | n + 1 =>
    let c := tabGet 8 s.tmgr.visit p
    let i := 8 * p + c
    if c < 8 && s.rb (TMGR_Q_CFG i) 30 && s.sendable p c && s.headLen i ≤ s.deficitOf i then
      (some c, s.setDeficit i (s.deficitOf i - s.headLen i))
    else
      match s.nextDrr p c with
      | none => (none, s)
      | some q =>
        let j := 8 * p + q
        let s := s.setDeficit j (s.deficitOf j + s.rf (TMGR_Q_CFG j) 29 16)
        { s with tmgr := { s.tmgr with visit := tabSet s.tmgr.visit p q } }.drrPick p n

/-- A frame starts on the wire. -/
def State.startFrame (s : State) (p : Nat) (f : TxFrame) : State :=
  s.onEmac p fun e => { e with
    wire := some { frame := f, start := s.clk, due := s.clk + (s.wireTenths p f.len + 9) / 10 } }

/-- The head frame of queue `i` of port `p` starts; a queue that empties has its deficit set to 0. [DEDUCED,
assumption 108] -/
def State.sendHead (s : State) (p i : Nat) : State :=
  match s.queueOf i with
  | [] => s
  | f :: r =>
    let s := s.setQueue i r
    let s := if r.isEmpty then s.setDeficit i 0 else s
    s.startFrame p f

/-- The choice of R399 at a frame boundary of EMAC0 to EMAC3. -/
def State.selectQueue (s : State) (p : Nat) : State :=
  let s := s.gclRun p
  let s := (List.range 8).foldl (fun s q => s.dropOversize p q (s.queueOf (8 * p + q)).length) s
  let s := (List.range 8).foldl (fun s q => s.countHeld p q) s
  match (List.range 8).reverse.find? fun q => !s.rb (TMGR_Q_CFG (8 * p + q)) 30 && s.sendable p q with
  | some q => s.sendHead p (8 * p + q)
  | none =>
    match s.drrPick p 1300 with
    | (some q, s) => s.sendHead p (8 * p + q)
    | (none, s) => s

/-- TRANSMIT_SELECTION (R399): a frame boundary of port `p`. -/
def execTransmitSelection (t : Nat) (p : Fin 5) (s : State) : Out :=
  s.when t 17 fun s =>
    let p := p.val
    let e := s.emacOf p
    if !s.portUp p || !s.rb (EMAC_STATUS p) 0 || e.wire.isSome then s
    else
      match e.sends with
      | n :: r =>
        (s.onEmac p fun e => { e with sends := r }).startFrame p
          { src := .pause, port := p, queue := 0, data := s.pauseFrame p n, vid := 0 }
      | [] =>
        if s.paused p then s
        else if p < 4 then s.selectQueue p
        else s.sendHead 4 32

/-! ### Fencing and views -/

/-- Port `p` is fenced (R375, R408): its link goes down and every frame it holds completes with FENCED. -/
def State.emacFence (s : State) (p : Nat) : State :=
  let s := s.setLink p false
  let qs := if p = 4 then [32] else (List.range 8).map fun q => 8 * p + q
  let mine (f : TxFrame) : Bool := f.port == p
  let gone := qs.flatMap s.queueOf
    ++ (s.tmgr.flows.flatMap fun x => x.2.frames.filter mine)
    ++ s.tmgr.adm.filter mine
    ++ (match (s.emacOf p).wire with | some w => [w.frame] | none => [])
  let s := qs.foldl (fun s i => s.setQueue i []) s
  let s := { s with tmgr := { s.tmgr with
    flows := s.tmgr.flows.map fun (x : Nat × Flow) => (x.1, { x.2 with frames := x.2.frames.filter fun f => !mine f })
    adm := s.tmgr.adm.filter fun f => !mine f } }
  let s := s.onEmac p fun e => { e with wire := none, pause := none, sends := [], xoff := none }
  gone.foldl (fun s f => s.frameDone f .fenced) s

/-- What the read-only registers of the traffic manager show. -/
def State.tmgrView (s : State) (a : Nat) : Option Word :=
  let o := a - 0x4C000000
  if a = TMGR_STATUS then some (setFld (s.reg a) 14 0 s.freeCells)
  else if a = TMGR_SLOT then some (BitVec.ofNat 32 s.wheelNow)
  else if 0x100 ≤ o ∧ o < 0x300 ∧ o % 16 = 4 then some (BitVec.ofNat 32 (s.queueCells ((o - 0x100) / 16)))
  else if 0x20000 ≤ o ∧ o < 0x24000 then
    let x := s.flowOf ((o - 0x20000) / 32)
    match o % 32 with
    | 8 => some (BitVec.ofInt 32 (x.t / 65536))
    | 12 => some (BitVec.ofNat 32 x.next)
    | 16 => some (BitVec.ofNat 32 (min 0xFFFF x.frames.length))
    | _ => none
  else if 0x30000 ≤ o ∧ o < 0x34000 ∧ o % 16 = 8 then
    some (BitVec.ofNat 32 ((s.policerOf ((o - 0x30000) / 16)).tok / 65536))
  else if 0x40000 ≤ o ∧ o < 0x48000 then
    let p := (o - 0x40000) / 0x2000
    let s := s.gclRun p
    let g := s.gclOf p
    if o % 0x2000 = 0x1C then
      some (BitVec.ofNat 32 (g.pend.isSome.toNat * 2 ^ 31 + (if g.running then
        2 ^ 30 + g.bank * 2 ^ 24 + g.entry * 65536 + s.gclGates p else 0)))
    else if o % 0x2000 = 0x20 then some (BitVec.ofNat 32 (if g.running then g.cycle else 0))
    else if o % 0x2000 = 0x18 then none
    else if 0x40 ≤ o % 0x2000 ∧ o % 0x2000 < 0x60 then some (s.reg a)
    else none
  else none

/-- A write to a gate list entry (R407): ignored, with CFG_REFUSED, for the operating bank and under a pending commit. -/
def State.gclWrite (s : State) (p b a : Nat) (v : Word) : State :=
  let s := s.gclRun p
  let g := s.gclOf p
  if g.bank = b || g.pend.isSome then s.setRb TMGR_STATUS 31 true else s.setReg a v

end Sys2Proof.Machine
end

