-- ==== Sys2Proof/Machine/Fwd.lean ====
section
/-! DEFINITION. The router: tables, lookups, punts, transit and the encapsulation of sensor records (R381 to R392). -/
namespace Sys2Proof.Machine

/-- Route entries (R381). -/
def routeCount : Nat := 8192
/-- Neighbour entries (R381). -/
def neighCount : Nat := 4096

/-- The state with the router changed. -/
def State.onFwd (s : State) (f : Fwd → Fwd) : State := { s with fwd := f s.fwd }

/-! ### Table commands (R381, R382) -/

/-- Words `w` to `w + 3` of the command buffer as a 128-bit number. -/
def State.bufAddr (s : State) (w : Nat) : Nat :=
  (List.range 4).foldl (fun n i => n * 2 ^ 32 + (s.reg (FWD_BUF (w + i))).toNat) 0

/-- The state with a 128-bit number in words `w` to `w + 3`. -/
def State.setBufAddr (s : State) (w v : Nat) : State :=
  (List.range 4).foldl (fun s i => s.setReg (FWD_BUF (w + i)) (BitVec.ofNat 32 (v / 2 ^ (32 * (3 - i))))) s

/-- An address field is well formed: an IPv4 address leaves words 0 to 2 zero. -/
def addrOk (v4 : Bool) (a : Nat) : Bool := !v4 || decide (a < 2 ^ 32)

/-- The route in the buffer; none is BAD_ARGUMENT. [DEDUCED, assumption 106] -/
def State.bufRoute (s : State) : Option Route :=
  let w := s.reg (FWD_BUF 8)
  let v4 := bit w 31
  let len := fld w 23 16
  let width := if v4 then 32 else 128
  let pfx := s.bufAddr 0
  let hop := s.bufAddr 4
  if fld w 28 24 = 0 && !bit w 15 && len ≤ width && addrOk v4 pfx && (bit w 30 || addrOk v4 hop)
      && pfx % 2 ^ (width - len) = 0 && fld w 14 12 ≤ 3 && 1 ≤ fld w 11 0 && fld w 11 0 ≤ 4094 then
    some { prefix_ := pfx, len, hop, v4, direct := bit w 30, black := bit w 29, port := fld w 14 12, vid := fld w 11 0 }
  else none

/-- The neighbour entry in the buffer; none is BAD_ARGUMENT. [DEDUCED, assumption 106] -/
def State.bufNeigh (s : State) : Option Neigh :=
  let w := s.reg (FWD_BUF 5)
  let v4 := bit w 15
  let addr := s.bufAddr 0
  if addrOk v4 addr && fld w 14 12 ≤ 3 && fld w 11 0 = 0 && fld (s.reg (FWD_BUF 6)) 30 0 = 0 then
    some { addr, mac := (s.reg (FWD_BUF 4)).toNat * 65536 + fld w 31 16, v4, port := fld w 14 12 }
  else none

/-- The lowest index that a table does not list, below `n`. -/
def lowestFree {α : Type} (t : Tab α) : Nat → Nat → Option Nat
  | _, 0 => none
  | i, n + 1 => if t.any fun e => e.1 == i then lowestFree t (i + 1) n else some i

/-- FWD_RES of an initiator. -/
def State.fwdRes (s : State) (by_ : Ini) (c : Code) (idx : Nat) : State :=
  s.setLatch by_ FWD_RES (BitVec.ofNat 32 (idx * 256 + c.val))

/-- A command other than a successful SET leaves INDEX of FWD_RES unstated: a free value. -/
def State.fwdCode (s : State) (by_ : Ini) (c : Code) : State :=
  let r := s.draw 8192
  r.2.fwdRes by_ c r.1

/-- ROUTE_SET. -/
def State.routeSet (s : State) (by_ : Ini) : State :=
  match s.bufRoute with
  | none => s.fwdCode by_ .badArgument
  | some r =>
    let same := s.fwd.routes.find? fun e => e.2.v4 == r.v4 && e.2.prefix_ == r.prefix_ && e.2.len == r.len
    match same.map (·.1) <|> lowestFree s.fwd.routes 0 routeCount with
    | none => s.fwdCode by_ .noBuffer
    | some i => (s.onFwd fun f => { f with routes := tabSet f.routes i r }).fwdRes by_ .ok i

/-- The route at an index. -/
def State.routeAt (s : State) (i : Nat) : Option Route := (s.fwd.routes.find? fun e => e.1 == i).map (·.2)

/-- The neighbour entry at an index. -/
def State.neighAt (s : State) (i : Nat) : Option Neigh := (s.fwd.neighs.find? fun e => e.1 == i).map (·.2)

/-- ROUTE_DEL. -/
def State.routeDel (s : State) (by_ : Ini) (i : Nat) : State :=
  if (s.routeAt i).isSome then (s.onFwd fun f => { f with routes := tabDel f.routes i }).fwdCode by_ .ok
  else s.fwdCode by_ .badArgument

/-- ROUTE_READ. -/
def State.routeRead (s : State) (by_ : Ini) (i : Nat) : State :=
  match s.routeAt i with
  | none => s.fwdCode by_ .badArgument
  | some r =>
    let s := (s.setBufAddr 0 r.prefix_).setBufAddr 4 r.hop
    let w := r.v4.toNat * 2 ^ 31 + r.direct.toNat * 2 ^ 30 + r.black.toNat * 2 ^ 29 + r.len * 65536 + r.port * 4096 + r.vid
    (s.setReg (FWD_BUF 8) (BitVec.ofNat 32 w)).fwdCode by_ .ok

/-- NEIGH_SET. -/
def State.neighSet (s : State) (by_ : Ini) : State :=
  match s.bufNeigh with
  | none => s.fwdCode by_ .badArgument
  | some r =>
    let same := s.fwd.neighs.find? fun e => e.2.v4 == r.v4 && e.2.addr == r.addr && e.2.port == r.port
    match same.map (·.1) <|> lowestFree s.fwd.neighs 0 neighCount with
    | none => s.fwdCode by_ .noBuffer
    | some i => (s.onFwd fun f => { f with neighs := tabSet f.neighs i r }).fwdRes by_ .ok i

/-- NEIGH_DEL. -/
def State.neighDel (s : State) (by_ : Ini) (i : Nat) : State :=
  if (s.neighAt i).isSome then (s.onFwd fun f => { f with neighs := tabDel f.neighs i }).fwdCode by_ .ok
  else s.fwdCode by_ .badArgument

/-- NEIGH_READ: the entry is copied, then its HIT is cleared. -/
def State.neighRead (s : State) (by_ : Ini) (i : Nat) : State :=
  match s.neighAt i with
  | none => s.fwdCode by_ .badArgument
  | some r =>
    let s := (s.setBufAddr 0 r.addr).setReg (FWD_BUF 4) (BitVec.ofNat 32 (r.mac / 65536))
    let s := s.setReg (FWD_BUF 5) (BitVec.ofNat 32 (r.mac % 65536 * 65536 + r.v4.toNat * 32768 + r.port * 4096))
    let s := s.setReg (FWD_BUF 6) (BitVec.ofNat 32 (r.hit.toNat * 2 ^ 31))
    (s.onFwd fun f => { f with neighs := tabSet f.neighs i { r with hit := false } }).fwdCode by_ .ok

/-- FWD_CMD written (R381). -/
def State.fwdCmd (s : State) (by_ : Ini) (op i : Nat) : State :=
  match op with
  | 1 => s.routeSet by_
  | 2 => s.routeDel by_ i
  | 3 => s.routeRead by_ i
  | 4 => s.neighSet by_
  | 5 => s.neighDel by_ i
  | 6 => s.neighRead by_ i
  | _ => s.fwdCode by_ .badArgument

/-- ROUTE_SET (R381). -/
def execRouteSet (t : Nat) (by_ : Ini) (s : State) : Out := s.access t FWD_CMD by_ (fun _ => false) fun s => s.fwdCmd by_ 1 0
/-- ROUTE_DEL (R381). -/
def execRouteDel (t : Nat) (by_ : Ini) (i : BitVec 13) (s : State) : Out :=
  s.access t FWD_CMD by_ (fun _ => false) fun s => s.fwdCmd by_ 2 i.toNat
/-- ROUTE_READ (R381). -/
def execRouteRead (t : Nat) (by_ : Ini) (i : BitVec 13) (s : State) : Out :=
  s.access t FWD_CMD by_ (fun _ => false) fun s => s.fwdCmd by_ 3 i.toNat
/-- NEIGH_SET (R381). -/
def execNeighSet (t : Nat) (by_ : Ini) (s : State) : Out := s.access t FWD_CMD by_ (fun _ => false) fun s => s.fwdCmd by_ 4 0
/-- NEIGH_DEL (R381). -/
def execNeighDel (t : Nat) (by_ : Ini) (i : BitVec 13) (s : State) : Out :=
  s.access t FWD_CMD by_ (fun _ => false) fun s => s.fwdCmd by_ 5 i.toNat
/-- NEIGH_READ (R381). -/
def execNeighRead (t : Nat) (by_ : Ini) (i : BitVec 13) (s : State) : Out :=
  s.access t FWD_CMD by_ (fun _ => false) fun s => s.fwdCmd by_ 6 i.toNat

/-! ### Lookups (R383) -/

/-- A route's prefix covers an address. -/
def Route.covers (r : Route) (v4 : Bool) (dst : Nat) : Bool :=
  let width := if v4 then 32 else 128
  r.v4 == v4 && decide (dst / 2 ^ (width - r.len) = r.prefix_ / 2 ^ (width - r.len))

/-- The longest-prefix match among routes whose port is in service. -/
def State.routeFor (s : State) (v4 : Bool) (dst : Nat) : Option Route :=
  s.fwd.routes.foldl (fun (b : Option Route) e =>
    if e.2.covers v4 dst && s.inService (portUnit e.2.port) then
      match b with
      | some x => if x.len < e.2.len then some e.2 else b
      | none => some e.2
    else b) none

/-- Where a packet goes (R383, R387). -/
inductive Hop where
  /-- Punted with a reason. -/
  | punt (reason : Nat)
  /-- A BLACKHOLE match. -/
  | black
  /-- The VID does not list the egress port. -/
  | vlan
  | go (r : Route) (mac : Nat)
  deriving DecidableEq, Repr

/-- The Ethernet header of a packet that leaves by route `r` to `mac`, with its tag where one is sent; DEI is a free
value. -/
def State.egressHead (s : State) (r : Route) (mac pcp type_ : Nat) : List Byte × State :=
  let head := beBytes 6 mac ++ beBytes 6 (s.macAddr r.port 0)
  let v := s.reg (EMAC_VLAN r.port)
  if !bit v 31 || fld v 11 0 = r.vid then (head ++ beBytes 2 type_, s)
  else
    let d := s.draw 2
    (head ++ beBytes 2 0x8100 ++ beBytes 2 (pcp * 8192 + d.1 * 4096 + r.vid) ++ beBytes 2 type_, d.2)

/-- A lookup of an IP packet of `len` bytes (R383, R387): the neighbour entry used has its HIT set. -/
def State.lookup (s : State) (v4 : Bool) (dst len : Nat) : Hop × State :=
  let s := s.event (320 + 8)
  match s.routeFor v4 dst with
  | none => (.punt 1, s)
  | some r =>
    if r.black then (.black, s)
    else
      let nh := if r.direct then dst else r.hop
      match s.fwd.neighs.find? fun e => e.2.v4 == v4 && e.2.addr == nh && e.2.port == r.port with
      | none => (.punt 2, s)
      | some (i, n) =>
        let s := s.onFwd fun f => { f with neighs := tabSet f.neighs i { n with hit := true } }
        if !s.rb (FWD_VLAN r.vid) r.port then (.vlan, s)
        else if s.maxLen r.port < max 64 (14 + len + 4) then (.punt 4, s)
        else (.go r n.mac, s)

/-! ### Punts (R385 to R387) -/

/-- FWD_PUNT's ring. -/
abbrev puntRing : Nat := FWD_PUNT_BASE_LO

/-- A frame to the punt ring with a reason: whether the ring took it, and the state. A ring with too few descriptors is
full; nothing is written and nothing is counted. -/
def State.puntPut (s : State) (m : RxMeta) (f : List Byte) : Bool × State :=
  if s.ringAvail puntRing < s.ringNeed puntRing f.length then (false, s)
  else
    let r := s.ringWrite puntRing m f
    (true, (r.2.pulse (irqNo 11 10)).event (320 + 12))

/-- A received packet is punted: its descriptor reports `m` and the reason. -/
def State.puntPacket (s : State) (reason : Nat) (m : RxMeta) (f : List Byte) : State :=
  let s := s.bump (FWD_CNT_PUNT (reason - 1))
  let r := s.puntPut { m with bits := m.bits + reason * 16 } f
  if r.1 then r.2 else r.2.bump FWD_CNT_PUNT_DROP

/-- A descriptor's report for what no port received: the stamp words are free values. [DESIGN CHOICE, assumption 101]
-/
def State.freeMeta (s : State) (bits : Nat) : RxMeta × State :=
  let a := s.draw (2 ^ 32)
  let b := a.2.draw (2 ^ 32)
  let c := b.2.draw (2 ^ 16)
  ({ bits, tci := 0, ns := a.1, lo := b.1, hi := c.1 }, c.2)

/-! ### Transit (R384) -/

/-- Incremental update of an IPv4 header checksum for TTL `ttl`, protocol `pr`. -/
def ttlSum (sum ttl pr : Nat) : Nat :=
  let x := 0xFFFF - sum + (0xFFFF - (ttl * 256 + pr)) + ((ttl - 1) * 256 + pr)
  let x := x % 65536 + x / 65536
  let x := x % 65536 + x / 65536
  0xFFFF - x

/-- An IPv4 packet, or an IPv6 packet, with its TTL or hop limit decremented. -/
def ageIp (v4 : Bool) (ip : List Byte) : List Byte :=
  if v4 then
    let x := patch ip 8 (beBytes 1 (fByte ip 8 - 1))
    patch x 10 (beBytes 2 (ttlSum (fHalf ip 10) (fByte ip 8) (fByte ip 9)))
  else patch ip 7 (beBytes 1 (fByte ip 7 - 1))

/-- The destination of an IP packet. -/
def ipDst (v4 : Bool) (ip : List Byte) : Nat :=
  if v4 then beNat ((ip.drop 16).take 4) else beNat ((ip.drop 24).take 16)

/-- The queue that EMACp_PCP_MAP gives. -/
def State.pcpQueue (s : State) (p pcp : Nat) : Nat := s.rf (EMAC_PCP_MAP p) (3 * pcp + 2) (3 * pcp)

/-- A routed packet: `f` is the received frame without its tag and FCS, `m` its report, `pcp` its PCP (R384 to R387).
[DEDUCED, assumption 102] -/
def State.routePacket (s : State) (v4 : Bool) (pcp : Nat) (m : RxMeta) (f : List Byte) : State :=
  let ip := f.drop 14
  let opts := if v4 then 5 < fByte ip 0 % 16 else fByte ip 6 == 0
  let ttl := if v4 then fByte ip 8 else fByte ip 7
  if !s.rb FWD_CTL 30 then s.puntPacket 6 m f
  else if opts then s.puntPacket 5 m f
  else if ttl ≤ 1 then s.puntPacket 3 m f
  else
    match s.lookup v4 (ipDst v4 ip) ip.length with
    | (.punt r, s) => s.puntPacket r m f
    | (.black, s) => s.bump FWD_CNT_BLACKHOLE
    | (.vlan, s) => s.bump FWD_CNT_VLAN_DROP
    | (.go r mac, s) =>
      let h := s.egressHead r mac pcp (if v4 then 0x0800 else 0x86DD)
      let s := (h.2.bump FWD_CNT_TRANSIT).event (320 + 9)
      let data := padFrame (h.1 ++ ageIp v4 ip)
      s.offer {
        src := .transit
        port := r.port
        queue := s.pcpQueue r.port pcp
        data
        vid := s.egressVid r.port data }

/-! ### Encapsulation (R388 to R392) -/

/-- A record as a datagram holds it: header words most significant byte first, then the plaintext, padded to a
multiple of 4. [DEDUCED, assumption 105] -/
def wireRecord (r : List Byte) : List Byte :=
  let head := (List.range 8).flatMap fun i => ((r.drop (4 * i)).take 4).reverse
  let body := r.drop 32
  head ++ body ++ List.replicate ((4 - body.length % 4) % 4) 0

/-- Bytes of a list of records. -/
def recBytes (l : List (List Byte)) : Nat := l.foldl (fun n r => n + r.length) 0

/-- Sum of the 16-bit halves of an even-length byte string. -/
def halfSum : List Byte → Nat
  | a :: b :: r => a.toNat * 256 + b.toNat + halfSum r
  | [a] => a.toNat * 256
  | [] => 0

/-- The UDP checksum over IPv6: 0 is sent as 0xFFFF. [DEDUCED, assumption 103] -/
def udpSum (src dst udp : List Byte) : Nat :=
  let x := halfSum src + halfSum dst + udp.length + 17 + halfSum udp
  let rec fold (n x : Nat) : Nat := match n with | 0 => x | n + 1 => fold n (x % 65536 + x / 65536)
  let r := 0xFFFF - fold 5 x
  if r = 0 then 0xFFFF else r

/-- FWD_LOCALk as 16 bytes. -/
def State.localAddr (s : State) (k : Nat) : List Byte :=
  (List.range 4).flatMap fun w => beBytes 4 (s.reg (FWD_LOCAL k w)).toNat

/-- The IPv6 packet of a datagram that closes now (R388, R390). [DEDUCED, assumption 105] -/
def State.datagram (s : State) (recs : List (List Byte)) : List Byte :=
  let net := s.now
  let batch := [(1 : Byte)] ++ beBytes 1 recs.length ++ beBytes 2 (s.rf LANT_CTL 9 0)
    ++ beBytes 4 (s.reg FWD_ENC_BSEQ).toNat ++ beBytes 4 (net / 1000000000 % 2 ^ 32).toNat
    ++ beBytes 4 (net % 1000000000).toNat
  let payload := batch ++ recs.flatten
  let c := s.reg FWD_ENC_CTL
  let src := s.localAddr (fld c 27 24)
  let dst := (List.range 4).flatMap fun w => beBytes 4 (s.reg (FWD_ENC_DST w)).toNat
  let n := payload.length + 8
  let ports := beBytes 2 (s.rf FWD_ENC_PORTS 15 0) ++ beBytes 2 (s.rf FWD_ENC_PORTS 31 16)
  let sum := udpSum src dst (ports ++ beBytes 2 n ++ beBytes 2 0 ++ payload)
  beBytes 4 (6 * 2 ^ 28 + fld c 15 8 * 2 ^ 20) ++ beBytes 2 n ++ [(17 : Byte)] ++ beBytes 1 (fld c 23 16) ++ src ++ dst
    ++ ports ++ beBytes 2 n ++ beBytes 2 sum ++ payload

/-- The encapsulation waits behind a closed datagram: one that stalls at the punt ring, or is held at admission.
[DEDUCED, assumption 104] -/
def State.encWaits (s : State) : Bool :=
  s.fwd.stalled.isSome || s.tmgr.adm.any fun f => f.src == .dgram

/-- A datagram that cannot be resolved goes to the punt ring, or stalls until it finds room (R386, R390). PORT and the
stamp of its descriptor are free values. -/
def State.puntDatagram (s : State) (reason : Nat) (f : List Byte) : State :=
  let d := s.draw 16
  let m := d.2.freeMeta (reason * 16 + d.1)
  let r := m.2.puntPut m.1 f
  if r.1 then (r.2.bump (FWD_CNT_PUNT (reason - 1))).onFwd fun x => { x with stalled := none }
  else s.onFwd fun x => { x with stalled := some (f, reason) }

/-- A stalled datagram tries the punt ring again. [DEDUCED, assumption 104] -/
def State.retryPunt (s : State) : State :=
  match s.fwd.stalled with
  | some (f, r) => s.puntDatagram r f
  | none => s

/-- The open datagram closes and is sent (R389, R390). -/
def State.closeDatagram (s : State) : State :=
  let recs := s.fwd.openRecs
  let ip := s.datagram recs
  let c := s.reg FWD_ENC_CTL
  let pcp := fld c 30 28
  let s := (s.onFwd fun f => { f with openRecs := [] }).setReg FWD_ENC_BSEQ (s.reg FWD_ENC_BSEQ + 1)
  match s.lookup false (ipDst false ip) ip.length with
  | (.punt r, s) =>
    let m := s.drawBytes 12
    m.2.puntDatagram r (m.1 ++ beBytes 2 0x86DD ++ ip)
  | (.black, s) => s.bump FWD_CNT_BLACKHOLE
  | (.vlan, s) => s.bump FWD_CNT_VLAN_DROP
  | (.go r mac, s) =>
    let h := s.egressHead r mac pcp 0x86DD
    let data := padFrame (h.1 ++ ip)
    let s := (h.2.bump FWD_CNT_DGRAM).event (320 + 11)
    s.offer {
      src := .dgram
      port := r.port
      queue := s.pcpQueue r.port pcp
      data
      vid := s.egressVid r.port data }

/-- FLUSH_US have passed since the open datagram's first record. -/
def State.aged (s : State) : Bool :=
  !s.fwd.openRecs.isEmpty && decide (s.fwd.openAt + s.rf FWD_ENC_LIM 31 18 * 1000 ≤ s.clk)

/-- The record at the head of the Lanterns' records enters the open datagram, closing it on size or count. -/
def State.takeRecord (s : State) (raw : List Byte) (rest : List (List Byte)) : State :=
  let r := wireRecord raw
  let most := s.rf FWD_ENC_LIM 13 0
  let pop (s : State) : State := { s with lant := { s.lant with records := rest } }
  if most < 16 + r.length then
    let m := s.freeMeta (2 ^ 10 + 7 * 16 + 15)
    let x := m.2.puntPut m.1 raw
    if x.1 then pop (x.2.bump (FWD_CNT_PUNT 6)) else s
  else
    let s := if most < 16 + recBytes s.fwd.openRecs + r.length then s.closeDatagram else s
    if s.encWaits then s
    else
      let s := ((pop s).bump FWD_CNT_REC).event (320 + 10)
      let s := s.onFwd fun f =>
        { f with openRecs := f.openRecs ++ [r], openAt := if f.openRecs.isEmpty then s.clk else f.openAt }
      if s.fwd.openRecs.length = 255 then s.closeDatagram else s

/-- RECORD_ARRIVAL (R388, R389, R391, R392). -/
def execRecordArrival (t : Nat) (s : State) : Out :=
  s.when t 17 fun s =>
    let s := s.retryPunt
    if !s.rb FWD_ENC_CTL 31 || s.encWaits then s
    else
      let s := if s.aged then s.closeDatagram else s
      if s.encWaits then s
      else
        match s.lant.records with
        | r :: rest => s.takeRecord r rest
        | [] => s

/-- DATAGRAM_FLUSH (R389). -/
def execDatagramFlush (t : Nat) (s : State) : Out :=
  s.when t 17 fun s =>
    let s := s.retryPunt
    if s.aged && !s.encWaits then s.closeDatagram else s

/-- FWD_ENC_CTL written (R392). -/
def State.encCtl (s : State) (v : Word) : State :=
  if bit v 31 && (s.rf FWD_ENC_PORTS 31 16 == 0 || !s.rb FWD_LOCAL_EN (fld v 27 24)) then s
  else s.setReg FWD_ENC_CTL (v &&& 0xFFFFFF00)

/-- ENCAPSULATION_ENABLE (R392): a write of FWD_ENC_CTL. -/
def execEncapsulationEnable (t : Nat) (by_ : Ini) (v : Word) (s : State) : Out :=
  s.access t FWD_ENC_CTL by_ (fun _ => false) fun s => s.encCtl v

/-- FWD_OCC. -/
def State.fwdView (s : State) (a : Nat) : Option Word :=
  if a = FWD_OCC then some (BitVec.ofNat 32 (s.fwd.routes.length * 65536 + s.fwd.neighs.length)) else none

/-! ### Reception (R366 to R370, R380) -/

/-- The group hash bin of a destination address (R367). [PRESUMED, assumption 94] -/
def hashBin (da : List Byte) : Nat := crc32 (natsOf da) / 2 ^ 26

/-- How a port accepts a destination (R367): not, by an own address, or otherwise. -/
inductive Accept where
  | no
  | own
  | other
  deriving DecidableEq, Repr

/-- R367. -/
def State.accepts (s : State) (p : Nat) (f : List Byte) : Accept :=
  let da := f.take 6
  let flt := s.reg (EMAC_FILT p)
  let h := hashBin da
  let own := (List.range 4).any fun k => s.rb (EMAC_MAC_HI p k) 31 && s.macAddr p k == beNat da
  let bcast := da == List.replicate 6 (0xFF : Byte)
  let group := fByte f 0 % 2 == 1
  if own then .own
  else if bcast && bit flt 2 then .other
  else if group && (bit flt 1 || (if h < 32 then s.rb (EMAC_HASH_LO p) h else s.rb (EMAC_HASH_HI p) (h - 32))) then .other
  else if bit flt 0 then .other
  else .no

/-- Pattern byte `j` of wake filter `f`. -/
def State.wakePat (s : State) (f j : Nat) : Nat := s.rf (EMAC_WAKE_PAT f (j / 4)) (8 * (j % 4) + 7) (8 * (j % 4))

/-- A frame holds six 0xFF bytes followed by 16 copies of `mac`. -/
def magicIn (mac : List Byte) (f : List Byte) : Bool :=
  let pat := List.replicate 6 (0xFF : Byte) ++ (List.replicate 16 mac).flatten
  (List.range f.length).any fun i => (f.drop i).take 102 == pat

/-- The wake filters look at an accepted frame without its FCS (R380). -/
def State.wakeFilters (s : State) (p : Nat) (f : List Byte) : State :=
  let watch (i : Nat) : Bool := s.rb (EMAC_WAKE_CTL i) 31 && s.rb (EMAC_WAKE_CTL i) (16 + p)
  let hit (i : Nat) : Bool := watch i && (List.range 32).all fun j =>
    let o := s.rf (EMAC_WAKE_CTL i) 9 0 + j
    !s.rb (EMAC_WAKE_MASK i) j || (decide (o < f.length) && fByte f o == s.wakePat i j)
  let magic := (List.range 8).any (fun i => watch i && s.rb (EMAC_WAKE_CTL i) 30) && magicIn (beBytes 6 (s.macAddr p 0)) f
  let hits := (List.range 8).filter hit
  if hits.isEmpty && !magic then s
  else
    let s := hits.foldl (fun s i => s.setRb EMAC_WAKE_STATUS i true) s
    let s := if magic then s.setRb EMAC_WAKE_STATUS (8 + p) true else s
    if s.rb PWR_WAKE_EN (11 + p) then s.wake 6 else s

/-- The statistics counter of a frame that breaks R366, without FCS and with it: runt 26, jabber 27, FCS 24, length 25. -/
def State.rxFault (s : State) (p : Nat) (f : List Byte) : Option Nat :=
  let n := f.length
  let body := f.take (n - 4)
  let t := fType f
  let room := n - 18 - (fTagged f).toNat * 4
  if n < 64 then some 26
  else if s.maxLen p + (fTagged f).toNat * 4 < n then some 27
  else if f.drop (n - 4) != fcs body then some 24
  else if t ≤ 1500 && t != room && !(n == 64 && decide (t < room)) then some 25
  else none

/-- The kinds of packet that R369 tells apart. -/
structure IpInfo where
  v4 : Bool
  dst : Nat
  /-- The destination is a local address. -/
  local_ : Bool
  /-- UDP destination port, where the packet is a first fragment of UDP. -/
  udp : Option Nat

/-- An address as FWD_LOCALk writes it: 16 bytes as a number. -/
def mapped (v4 : Bool) (a : Nat) : Nat := if v4 then 0xFFFF * 2 ^ 32 + a else a

/-- `a` is a local address (R395). -/
def State.isLocal (s : State) (v4 : Bool) (a : Nat) : Bool :=
  (List.range 16).any fun k => s.rb FWD_LOCAL_EN k && beNat (s.localAddr k) == mapped v4 a

/-- What an untagged frame's packet is, if it is IPv4 or IPv6. -/
def State.ipInfo (s : State) (f : List Byte) : Option IpInfo :=
  let ip := f.drop 14
  let t := fHalf f 12
  if t = 0x0800 ∧ 20 ≤ ip.length ∧ fByte ip 0 / 16 = 4 then
    let dst := ipDst true ip
    let ihl := fByte ip 0 % 16 * 4
    some { v4 := true, dst, local_ := s.isLocal true dst,
           udp := if fByte ip 9 = 17 ∧ fHalf ip 6 % 8192 = 0 then some (fHalf ip (ihl + 2)) else none }
  else if t = 0x86DD ∧ 40 ≤ ip.length ∧ fByte ip 0 / 16 = 6 then
    let dst := ipDst false ip
    some { v4 := false, dst, local_ := s.isLocal false dst,
           udp := if fByte ip 6 = 17 then some (fHalf ip 42) else none }
  else none

/-- The receive ring of a frame that is not routed (R369). -/
def State.rxRingOf (s : State) (f : List Byte) (i : Option IpInfo) : Nat :=
  let udp := match i with | some x => if x.local_ then x.udp else none | none => none
  let port := s.rf FWD_CTL 15 0
  if fHalf f 12 = 0x88F7 || udp == some 319 || udp == some 320 then 1
  else if port ≠ 0 && udp == some port then 2
  else 0

/-- The frame carries a PTP event message (R83): messageType 0 to 7 behind EtherType 0x88F7, or UDP port 319.
[PRESUMED, assumption 144] -/
def State.ptpEvent (s : State) (body : List Byte) : Bool :=
  let f := if fTagged body then body.take 12 ++ body.drop 16 else body
  (fHalf f 12 == 0x88F7 && decide (fByte f 14 % 16 < 8)) || ((s.ipInfo f).bind (·.udp)) == some 319

/-- A whole frame for a port ring (R373). -/
def State.toRing (s : State) (p r : Nat) (m : RxMeta) (f : List Byte) : State :=
  let a := EMAC_RX_BASE_LO p r
  let had := s.ringAvail a
  let w := s.ringWrite a m f
  let s := if had = 0 then w.2 else w.2.pulse (irqNo 11 p)
  if w.1 then s else (s.stat p 28).event (emacEvent p + 4)

/-- An accepted frame past the filters: VLAN rules and classification (R369, R370). `own`: by an own address. -/
def State.classify (s : State) (p : Nat) (own : Bool) (net : Int) (f : List Byte) : State :=
  let tagged := fTagged f
  let tci := if tagged then fHalf f 14 else 0
  let pvid := s.rf (EMAC_VLAN p) 11 0
  let vid := if tci % 4096 = 0 then pvid else tci % 4096
  if (!s.rb (EMAC_VLAN p) 31 && vid ≠ pvid) || !s.rb (FWD_VLAN vid) p then s.bump FWD_CNT_VLAN_DROP
  else
    let f := if tagged then f.take 12 ++ f.drop 16 else f
    let m := stampMeta (tagged.toNat * 2 ^ 11 + p) tci net
    let i := s.ipInfo f
    match i with
    | some x =>
      if own && s.rb FWD_CTL 31 && !x.local_ then s.routePacket x.v4 (tci / 8192) m f
      else s.toRing p (s.rxRingOf f i) m f
    | none => s.toRing p (s.rxRingOf f i) m f

/-- A frame with a good FCS and a permitted length: counters, filter, pause, wake, FIFO room, classification. `fill` is
what the receive FIFO holds; `net` the stamp. -/
def State.goodFrame (s : State) (p : Nat) (f : List Byte) (fill : Nat) (net : Int) : State :=
  let body := f.take (f.length - 4)
  let s := (s.stat p (sizeBin f.length)).statTypes p 14 body
  let s := (s.event (emacEvent p)).eventFrac (emacEvent p + 1) 64 f.length
  let ctl := fType f == 0x8808
  let opPos := if fTagged f then 18 else 14
  let acc := s.accepts p f
  let s := if acc == .no then s else s.wakeFilters p body
  if ctl then
    if fHalf f opPos = 1 then
      let s := s.event (emacEvent p + 5)
      if s.rb (EMAC_CTL p) 8 then s.pauseIn p (fHalf f (opPos + 2)) else s
    else s
  else if acc == .no then s
  else if 65536 < fill + f.length then (s.stat p 28).event (emacEvent p + 4)
  else s.classify p (acc == .own) net body

/-- FRAME_RECEIVE (R366 to R373, R380): a whole frame `f`, FCS included, whose first bit after the start delimiter came at
`sfd`; the receive FIFO holds `fill` bytes. In Ember only the wake filters of a port in PORTS look at it. -/
def execFrameReceive (t : Nat) (p : Fin 5) (f : List Byte) (fill sfd : Nat) (s : State) : Out :=
  let s := s.at t
  let p := p.val
  if s.board.held then .next s
  else if s.domOn 17 then
    if s.portUp p && s.rb (EMAC_STATUS p) 0 then
      match s.rxFault p f with
      | some c => .next (s.stat p c)
      | none =>
        let raw := (sfd - s.relAt) % 2 ^ 64
        let s := if s.ptpEvent (f.take (f.length - 4)) then s.ptpEdge p raw else s
        .next (s.goodFrame p f fill (s.netWas raw))
    else .next s
  else if s.pwr.ember && s.rb PWR_WAKE_EN (11 + p) then
    match s.rxFault p f with
    | some _ => .next s
    | none => .next (if s.accepts p f == .no then s else s.wakeFilters p (f.take (f.length - 4)))
  else .next s

end Sys2Proof.Machine
end

