-- ==== Sys2Proof/Machine/Lens.lean ====
section
/-! DEFINITION. The commands and events of the Lenses (ch. 05): declarations, allocation, activation, blocks, context
commands, limits and the spectral-mask check. -/
namespace Sys2Proof.Machine

/-- The usable grid of lens `n`: first and last bin (R128). -/
def State.gridLo (_s : State) : Int := -1706
def State.gridHi (s : State) (n : Nat) : Int := if s.span && n == s.pair.lower then 5119 else 1706

/-- Centre of the group of `g` bins from `b`, Hz from the grid centre. -/
def groupCentre (b : Int) (g : Nat) : Int := (2 * b + g - 1) * 9375

/-- Sub-channels of a position (R129). -/
def subCount (c : Nat) : Nat :=
  match c with
  | 0 => 16 | 1 => 8 | 2 => 4 | _ => 1

/-- Centre of a position or of its sub-channel `k`, in Hz from the grid centre (R129). -/
def posCentreOf (c : Nat) (b : Int) (k : Nat) : Int :=
  groupCentre b (clsG c) + (if subCount c = 1 then 0 else (2 * (k : Int) - (subCount c - 1)) * clsRs c)

/-- `c` symbols of class `cls` have passed between two raw instants. -/
def symbolsPassed (cls from_ upto n : Nat) : Bool := decide (n * 1000000000 ≤ (upto - from_) * clsRs cls)

/-- An evaluation passes the thresholds of R132; p of a sub-channel, whose filter is 4 Rs wide, and the floor `n` of the
position are compared at one bandwidth. -/
def evalPasses (c : Nat) (e : Eval) (n corr energy : Nat) : Bool :=
  let band := 18750 * clsG c
  let wide := if subCount c = 1 then band else 4 * clsRs c
  decide (corr * 65536 ≤ e.m) && decide ((n * wide) ^ 40 * 10 ^ energy ≤ (e.p * band) ^ 40)

/-- LQI from p and n (R145): the largest k for which x^160 reaches 10^(2k-65), where x is Es/N0 as a ratio. -/
def lqiOf (cls p n : Nat) : Nat :=
  if p ≤ n then 0
  else
    let num := (p - n) * (18750 * clsG cls)
    let den := n * clsRs cls
    let ok := fun (k : Nat) =>
      if 65 ≤ 2 * k then decide (10 ^ (2 * k - 65) * den ^ 160 ≤ num ^ 160)
      else decide (den ^ 160 ≤ num ^ 160 * 10 ^ (65 - 2 * k))
    [128, 64, 32, 16, 8, 4, 2, 1].foldl (fun a b => if ok (a + b) then a + b else a) 0

/-- The pending detections of lens `n`. -/
def State.pend (s : State) (n : Nat) : List Det := tabGet [] s.dets n

/-- The state with them replaced. -/
def State.setPend (s : State) (n : Nat) (ds : List Det) : State := { s with dets := tabSet s.dets n ds }

/-- Centre of a context's group, in Hz from the grid centre. -/
def LensCtx.centre (c : LensCtx) : Int :=
  groupCentre c.firstBin (if c.centred then c.g + 1 else c.g)

/-- Frequency ranges of two groups of `g` bins overlap, by more than half when `half` (R133, R134). -/
def overlaps (half : Bool) (g : Nat) (a b : Int) : Bool :=
  decide ((a - b).natAbs < (if half then 9375 else 18750) * g)

/-- The lamp has delivered samples long enough for a declaration at class `c` (R135). -/
def State.quiet (s : State) (n c consec : Nat) : Bool :=
  (s.lamp n).blank.all fun (e : Nat × Option Nat) => match e.2 with
    | some b => symbolsPassed c (b + 40000) s.raw (15 + consec)
    | none => false

/-! ### The stream of a lamp (R126, R128, R144) -/

/-- The Lens input of lamp `n`. -/
def State.lensIn (s : State) (n : Nat) : LensIn := tabGet {} s.lens n

/-- One ADC sample of lamp `n` through the four corrections of R126. [DESIGN CHOICE, assumption 157] -/
def State.correct (s : State) (n : Nat) (li : LensIn) (x : Cx) : LensIn × Cx :=
  let l := s.lamp n
  let g := s.rf (LAMP_RX_GAIN n) 4 0
  let g0 := li.gain.getD g
  let r := dcLoop li.dc (csub x (Config.dcOffset n (tabGet 0 l.calAt 1) g))
  let y := cscale (Config.iqCorrect n (tabGet 0 l.calAt 3) r.2) (gainRatio ((g : Int) - g0)) (2 ^ 30)
  let y := if s.span && n == s.pair.lower + 1 then rotate y (-((li.count : Int) * 6250 * 2 ^ 32 / 76800000)) else y
  ({ li with count := li.count + 1, gain := some g0, dc := r.1 }, y)

/-- Bin `k` of a Lens takes samples. -/
def LensIn.binTake (li : LensIn) (k : Int) (xs : List Cx) : LensIn :=
  if k < -2048 || 2047 < k then li
  else
    let i := (k + 2048).toNat
    { li with bins := tabSet li.bins i (xs.foldl BinIn.take (tabGet {} li.bins i)) }

/-- What lamp `n` delivers is taken, while it delivers (R135): otherwise the floors stay frozen. [DESIGN CHOICE,
assumption 157] -/
def State.feedLens (s : State) (n : Nat) (f : Feed) : State :=
  if !s.delivers n then s
  else
    let r := f.adc.foldl (fun (a : LensIn × List Cx) x =>
      let c := s.correct n a.1 x
      (c.1, c.2 :: a.2)) (s.lensIn n, [])
    let li := { r.1 with out := r.2.reverse }
    { s with lens := tabSet s.lens n (f.bins.foldl (fun li (b : Int × List Cx) => li.binTake b.1 b.2) li) }

/-- floor[k] of bin `k` of lamp `n`. -/
def State.floorAt (s : State) (n : Nat) (k : Int) : Nat := (tabGet {} (s.lensIn n).bins (k + 2048).toNat).level

/-- The floor of grid bin `m` as lamp `n` (or, in a span pair, the lamp that has the bin) knows it. -/
def State.gridFloor (s : State) (n : Nat) (m : Int) : Nat :=
  if s.span && s.paired n then
    (if m ≤ 1706 then s.floorAt s.pair.lower m else s.floorAt (s.pair.lower + 1) (m - 3413))
  else s.floorAt n m

/-- The floor of a group: the sum over its bins, of which the outermost two of a CENTRED group count half (R130, R131). -/
def State.groupFloor (s : State) (n : Nat) (first : Int) (g : Nat) (centred : Bool) : Nat :=
  let f := fun (i : Nat) => s.gridFloor n (first + i)
  if centred then (f 0 + f g) / 2 + ((List.range (g - 1)).map fun i => f (i + 1)).sum
  else ((List.range g).map f).sum

/-! ### Detections -/

/-- Detection `e` stands for the same preamble as `d`: one class, overlapping positions, within four symbols (R133).
[DEDUCED, assumption 49] -/
def Det.same (d e : Det) : Bool :=
  e.cls == d.cls && !symbolsPassed d.cls (min e.tDecl d.tDecl) (max e.tDecl d.tDecl) 4 &&
    overlaps false (clsG d.cls) (groupCentre e.posBin (clsG d.cls)) (groupCentre d.posBin (clsG d.cls))

/-- Of two declarations of one preamble the one that stands: the larger m, at equal m the lower first bin (R133). -/
def Det.betterThan (d e : Det) : Bool := decide (e.m < d.m) || (e.m == d.m && decide (d.posBin < e.posBin))

/-- Every detection of `es` but the first replaced, none kept after it. [DEDUCED, assumption 49] -/
def mergeInto (same : Det → Bool) (w : Det) : List Det → List Det
  | [] => []
  | e :: r => if same e then w :: r.filter fun x => !same x else e :: mergeInto same w r

/-- A new detection appended, or merged with those of the queue that stand for the same preamble (R133); a context
held for one that gives way is free again. [DEDUCED, assumption 49] -/
def State.detect (s : State) (n : Nat) (d : Det) : State :=
  let q := s.pend n
  let dup := q.filter d.same
  let openNear := (s.ctxOf n).any fun e => e.2.st == .live && e.2.cls == d.cls &&
    !symbolsPassed d.cls (min e.2.declLt d.tDecl) (max e.2.declLt d.tDecl) 4 &&
    overlaps false (clsG d.cls) e.2.centre (groupCentre d.posBin (clsG d.cls))
  match dup with
  | e0 :: _ =>
    let best := dup.foldl (fun (b : Det) e => if e.betterThan b then e else b) e0
    let w := if d.betterThan best then { d with tDecl := e0.tDecl } else best
    let s := dup.foldl (fun s (e : Det) => match e.ctx with
      | some i => if w.ctx == some i then s else s.setCtx i { s.ctx i with st := .free }
      | none => s) s
    s.setPend n (mergeInto d.same w q)
  | [] =>
    if openNear then s
    else
      let s := (s.bump (LENS_CNT_DECL n)).event (32 * n + d.cls)
      if 64 ≤ q.length then s.dropDet n (LENS_CNT_DROP_QFULL n) 16 else s.setPend n (q ++ [d])

/-- The last CONSEC evaluations of a position, newest first (R131, R132): each the largest over four timing phases and its
sub-channel streams. -/
def evalsOf (c consec : Nat) (xs : List (List Cx)) : List Eval :=
  let ps := xs.map prep
  (List.range consec).map fun e => evalPos (clsFs c) (clsRs c) e ps

/-- What lamp `n`, and with it the other lamp of its pair, have delivered (R126, R128). -/
def State.feedPair (s : State) (n : Nat) (own other : Feed) : State :=
  let s := s.feedLens n own
  if s.paired n then s.feedLens (2 * s.pair.lower + 1 - n) other else s

/-- PREAMBLE_DECLARATION (R131, R132): lamp `n` has delivered `adc` and `bins`, the other lamp of its pair `partner`, and
the position from grid bin `pos` at class `cls` has the streams `xs`, one per sub-channel, newest sample last. -/
def execPreambleDeclaration (t : Nat) (n : Fin 3) (adc : List (Int × Int)) (bins : List (Int × List (Int × Int)))
    (partner : Feed) (cls : Fin 8) (pos : Int) (xs : List (List (Int × Int))) (s : State) : Out :=
  s.when t 4 fun s =>
    let s := s.feedPair n.val { adc, bins } partner
    let ln := s.lensOf n.val
    let c := cls.val
    let g := clsG c
    let r := s.reg (LENS_SRCH ln c)
    let consec := fld r 27 24
    let seam := s.span && s.paired n.val && decide (pos ≤ 1706) && decide (1706 < pos + g - 1)
    let src := if s.span && s.paired n.val then
        (if pos + g - 1 ≤ 1706 then s.pair.lower else s.pair.lower + 1) else n.val
    let feeds := if seam then [s.pair.lower, s.pair.lower + 1] else [src]
    let valid := decide (s.gridLo ≤ pos) && decide (pos + g - 1 ≤ s.gridHi ln)
      && decide ((pos + 1706) % ((g / 2 : Nat) : Int) = 0) && xs.length == subCount c
      && xs.all fun x => longEnough (clsFs c) (clsRs c) consec x.length
    let evs := evalsOf c consec xs
    let nz := s.groupFloor n.val pos g false
    if !s.rb (LENS_CTL ln) 0 || !bit r 31 || !valid || (seam && s.pair.seamDue.isSome)
        || !(feeds.all fun m => s.delivers m && s.quiet m c consec)
        || !(evs.all fun e => evalPasses c e nz (fld r 15 0) (fld r 23 16)) then s
    else
      let s := s.capEdge (8 + n.val) true
      let e := evs.headD {}
      let pc := groupCentre pos g
      if (s.ctxOf ln).any fun x => x.2.st == .live && x.2.cls == c && overlaps true g x.2.centre pc
          && symbolsPassed c x.2.declLt s.raw 4 then
        (s.bump (LENS_CNT_SUPPRESSED ln)).event (32 * ln + 22)
      else
        let sc := posCentreOf c pos e.sub
        s.detect ln {
          cls := c, posBin := pos, posCentre := sc, est := sc * 1000 + e.fMean, m := e.m, p := e.p, n := nz
          tDecl := s.raw, div := s.paired n.val && s.pair.diversity }

/-- The head of lens `n` is older than HOLD (R138). -/
def State.holdOver (s : State) (n : Nat) (d : Det) : Bool :=
  decide (s.rf (LENS_HOLD n) 12 0 * 1000 < s.raw - d.tDecl)

/-- The head of lens `n`'s queue is dropped for age (R138). -/
def State.dropHead (s : State) (n : Nat) (d : Det) : State :=
  let s := s.setPend n ((s.pend n).drop 1)
  match d.ctx with
  | none => s.dropDet n (LENS_CNT_DROP_NOCTX n) 17
  | some i => (s.setCtx i { s.ctx i with st := .free }).dropDet n (LENS_CNT_DROP_CHND n) 18

/-- Lens works the queue of lens `n` now: on a tick, unless the work of that tick has come to a stop (R138). -/
def State.worksQueue (s : State) (n : Nat) : Bool := s.raw % 1000 == 0 && (s.lensIn n).stop != some s.raw

/-- The work of this tick stops. -/
def State.stopQueue (s : State) (n : Nat) : State :=
  { s with lens := tabSet s.lens n { s.lensIn n with stop := some s.raw } }

/-- The head of lens `n`'s queue at a tick (R138): dropped when its hold is over, else what `k` does with it. -/
def State.workHead (s : State) (n : Nat) (k : Det → List Det → State → State) : State :=
  if !s.worksQueue n then s
  else
    match s.pend n with
    | [] => s
    | d :: ds => if s.holdOver n d then s.dropHead n d else k d ds s

/-- HOLD_EXPIRY (R138, R465). -/
def execHoldExpiry (t : Nat) (n : Fin 3) (s : State) : Out :=
  s.when t 4 fun s => s.workHead n.val fun _ _ s => s

/-- Raster step of a code in mHz (R130). -/
def rasterStep (c : Nat) : Option Int :=
  match c with
  | 1 => some 12500000 | 2 => some 20000000 | 3 => some 25000000 | 4 => some 50000000
  | 5 => some 100000000 | 6 => some 200000000 | 7 => some 400000000 | 8 => some 800000000 | _ => none

/-- The channel centre in mHz, and whether it is off the raster (R130). -/
def channelOf (code : Nat) (org tol est : Int) : Int × Bool :=
  match rasterStep code with
  | none => (est, true)
  | some r =>
    let u := est - org
    let p := org + (2 * u + r - 1) / (2 * r) * r
    if (p - est).natAbs ≤ tol.natAbs then (p, false) else (est, true)

/-- The group for a channel centre in mHz: its centre as a multiple of 9.375 kHz (R130). -/
def groupFor (chan lo hi : Int) (g : Nat) : Int :=
  clampI (2 * lo + g - 1) (2 * hi - g + 1) ((2 * chan + 9374999) / 18750000)

/-- The lowest free area for a context of lens `n` (R137). -/
def State.freeArea (s : State) (n : Nat) : Option Nat :=
  let look := fun a => (List.range 1024).find? fun i => !(s.ctx (a * 1024 + i)).inUse
  match look n with
  | some i => some (n * 1024 + i)
  | none => if s.span && n == s.pair.lower then (look (n + 1)).map ((n + 1) * 1024 + ·) else none

/-- The samples of 24 symbols and the one before them, the newest last; a shorter stream is taken to follow silence. -/
def lookback (c : Nat) (x : List Cx) : List Cx :=
  let len := 24 * clsFs c / clsRs c + 1
  List.replicate (len - x.length) (0, 0) ++ x.drop (x.length - len)

/-- What Lens measures over the lookback of a context's own group (R139, R145, R148): f[j], p, n and the RMS magnitude. -/
structure Quality where
  f : List Int
  p : Nat
  n : Nat
  rms : Nat

/-- The quality of branch streams `xs` with the group floors `ns`. -/
def qualityOf (c : Nat) (ns : List Nat) (xs : List (List Cx)) : Quality :=
  let r := combine ns (xs.map (lookback c))
  let p := prep r.1
  let pos4 := 4 * clsRs c * r.1.length
  let pow := symPower (clsFs c) (clsRs c) pos4 p
  ⟨symFreqs (clsFs c) (clsRs c) pos4 p, if xs.length = 1 then pow else pow / 2 ^ 48, r.2, rmsOf r.1⟩

/-- The lamps whose floors weigh the branches of a context of lens `n`. -/
def State.branches (s : State) (n : Nat) : List Nat :=
  if s.paired n && s.pair.diversity then [s.pair.lower, s.pair.lower + 1] else [n]

/-- A context for a detection (R130, R138, R139, R140, R145): held until Chandler accepts its task; `look` holds the
streams of its own group up to the antenna instant of the declaration. [DESIGN CHOICE, assumption 51] -/
def State.allocCtx (s : State) (n i : Nat) (look : List (List Cx)) (d : Det) : State :=
  let g := clsG d.cls
  let ctl := s.reg (LENS_CTL n)
  let ch := channelOf (fld ctl 11 8) ((s.reg (LENS_RASTER_ORG n)).toInt * 1000) (fld ctl 23 16 * 100000) d.est
  let j := groupFor ch.1 s.gridLo (s.gridHi n) g
  let centred := j % 2 == 0
  let first := if centred then (j - g) / 2 else (j - g + 1) / 2
  let last := if centred then first + g else first + g - 1
  let fs := clsFs d.cls
  let want : Nat := d.tDecl - 40000 - 24 * 1000000000 / clsRs d.cls
  let step := 1000000000 / fs
  let r := s.draw step
  let bs := s.branches n
  let q := qualityOf d.cls (bs.map fun m => s.groupFloor m first g centred) (look.take bs.length)
  let cfo := clampI (-32768) 32767 (roundDiv (meanFreq q.f + j * 9375000 - ch.1) 8000)
  r.2.setCtx i {
    st := .held, gen := (s.ctx i).gen + 1, cls := d.cls, lamp := n, centred := centred, g := g, firstBin := first
    nco := ch.1 - j * 9375000, capLt := want + r.1 - step / 2, declLt := d.tDecl, cfo := cfo
    lqi := lqiOf d.cls q.p q.n, devMeas := meanDev q.f, chan := ch.1, rms := q.rms, offRaster := ch.2
    seam := s.span && n == s.pair.lower && decide (first ≤ 1706) && decide (1706 < last), div := d.div }

/-- CONTEXT_ALLOCATE (R138): the head detection gets a context if the limits allow; else the queue stops. -/
def execContextAllocate (t : Nat) (q : Lookback) (s : State) : Out :=
  let n := q.lens
  s.when t 4 fun s =>
    s.workHead n.val fun d ds s =>
      if d.ctx.isSome then s
      else if !s.rb (LENS_CTL n.val) 0 || decide (s.ctxLimit n.val ≤ s.ctxOpen n.val)
          || decide (s.unitCap n.val < s.unitsUsed n.val + clsCost d.cls) then s.stopQueue n.val
      else
        match s.freeArea n.val with
        | none => s.stopQueue n.val
        | some i => (s.allocCtx n.val i q.streams d).setPend n.val ({ d with ctx := some i } :: ds)

/-- ACTIVATION (R138, R304, R305): Chandler is offered the head's task; when it refuses, the queue stops. -/
def execActivation (t : Nat) (n : Fin 3) (s : State) : Out :=
  s.when t 4 fun s =>
    s.workHead n.val fun d ds s =>
      match d.ctx with
      | none => s
      | some i =>
        if !s.rb (LENS_CTL n.val) 0 then s.stopQueue n.val
        else
          let c := s.ctx i
          let r := s.activate (i / 1024) n.val i c.gen.toNat c.cls
          match r.2 with
          | none => r.1.stopQueue n.val
          | some k =>
            let s := r.1.setPend n.val ds
            ((s.setCtx i { c with st := .live, task := k }).event (32 * n.val + 8 + c.cls)).putRecord i

/-- LENSn_CTL written (R139, R153, R460). -/
def State.lensCtl (s : State) (n : Nat) (v : Word) : State :=
  if s.isUpper n then s
  else
    let lamps := if s.span && s.paired n then [n, n + 1] else [n]
    let ok := lamps.all fun m => s.areaIn (s.ringBase m) 0x2000000
    let en := bit v 0 && (ok || s.rb (LENS_CTL n) 0)
    let ras := if 8 < fld v 11 8 then 0 else fld v 11 8
    s.setReg (LENS_CTL n) (BitVec.ofNat 32 (fld v 23 16 * 65536 + ras * 256 + en.toNat))

/-- SEARCH_ENABLE (R139, R465): LENSn_CTL is written. -/
def execSearchEnable (t : Nat) (by_ : Ini) (n : Fin 3) (v : Word) (s : State) : Out :=
  s.access t (LENS_CTL n.val) by_ (fun _ => false) fun s => s.lensCtl n.val v

/-! ### Blocks -/

/-- Antenna instant of sample `k` of a context, raw ns. -/
def LensCtx.sampleAt (c : LensCtx) (k : Nat) : Nat := c.capLt + k * 1000000000 / clsFs c.cls

/-- The lamps whose samples a context takes. -/
def State.ctxLamps (s : State) (c : LensCtx) : List Nat :=
  if s.paired c.lamp then
    (if s.pair.diversity || c.seam then [s.pair.lower, s.pair.lower + 1]
     else if c.firstBin ≤ 1706 then [s.pair.lower] else [s.pair.lower + 1])
  else [c.lamp]

/-- Sample `k` of a context was lost (R141): every branch of a diversity pair, any lamp of another context. -/
def State.sampleLost (s : State) (c : LensCtx) (k : Nat) : Bool :=
  let bs := (s.ctxLamps c).map fun m => (s.lamp m).blankAt (c.sampleAt k)
  if s.paired c.lamp && s.pair.diversity then bs.all id else bs.any id

/-- A sample word: I and Q saturated at +-2047 (R139). -/
def sampleWord (x : Int × Int) : Nat :=
  wrap 12 (clampI (-2047) 2047 x.1) * 4096 + wrap 12 (clampI (-2047) 2047 x.2)

/-- Sample `k` of a context's stream turned by its NCO shift, so that the channel centre comes to 0 (R130). -/
def LensCtx.shifted (c : LensCtx) (k : Nat) (x : Cx) : Cx :=
  rotate x (-(roundDiv (c.nco * k * 2 ^ 32) (1000 * clsFs c.cls)))

/-- A sample on the context's scale: the RMS magnitude of the lookback becomes 512 (R139). [DESIGN CHOICE, assumption
156] -/
def LensCtx.scaled (c : LensCtx) (x : Cx) : Cx :=
  if c.rms = 0 then cscale x Config.nullScale (2 ^ 20) else cscale x 512 c.rms

/-- Block `wr` of a context from the streams of its branches (R139, R148). -/
def State.blockOf (s : State) (c : LensCtx) (xs : List (List Cx)) : List Cx :=
  let len := clsBlock c.cls
  let bs := s.branches c.lamp
  let one := fun (x : List Cx) => x.take len ++ List.replicate (len - x.length) (0, 0)
  let y := (combine (bs.map fun m => s.groupFloor m c.firstBin c.g c.centred) ((xs.take bs.length).map one)).1
  (y.zip (List.range len)).map fun (e : Cx × Nat) => c.scaled (c.shifted (c.wr * len + e.2) e.1)

/-- The ring words of a block: a lost sample is zero (R141). -/
def blockWords (lost : List Bool) (ys : List Cx) : List Byte :=
  (lost.zip ys).flatMap fun (e : Bool × Cx) => leBytes 4 (if e.1 then 0 else sampleWord e.2)

/-- BLOCK_WRITE (R140, R141): the next block of context `i` goes into the ring; `xs` are the streams of its group over the
block, one per branch, before the NCO. -/
def execBlockWrite (t : Nat) (i : Fin 3072) (xs : List (List (Int × Int))) (s : State) : Out :=
  s.when t 4 fun s =>
    let c := s.ctx i.val
    let len := clsBlock c.cls
    let k0 := c.wr * len
    if c.st != .live || c.stopped || 8 ≤ c.wr - c.consumed || s.raw < c.sampleAt (k0 + len - 1) + 40000 then s
    else
      let lost := (List.range len).map fun k => s.sampleLost c (k0 + k)
      let s := s.ctxWrite i.val (0x40 + c.wr % 8 * len * 4) (blockWords lost (s.blockOf c xs))
      let c := s.ctx i.val
      if c.st != .live then s
      else
        let wr := c.wr + 1
        let s := s.setCtx i.val { c with
          wr := wr, blanked := c.blanked || lost.any id
          stopped := (match c.endAt with
            | some e => decide (e ≤ wr)
            | none => false) }
        let s := s.putRecord i.val
        if (s.ctx i.val).st == .live then s.advance c.task 1 else s

/-! ### Ends by Lens (R140, R143) -/

/-- The end by Lens that is due for context `i`: 2 sync timeout, 3 header timeout, 4 overrun. -/
def State.endDue (s : State) (i : Nat) : Option Nat :=
  let c := s.ctx i
  let mark := c.sync.map fun x => c.capLt + x * 1000000000 / (256 * clsFs c.cls) + 40000
  if c.st != .live then none
  else if c.sync.isNone && symbolsPassed c.cls c.declLt s.raw (s.rf (LENS_LIMITS c.lamp) 7 0) then some 2
  else if c.endAt.isNone && mark.any (fun m => symbolsPassed c.cls m s.raw (s.rf (LENS_LIMITS c.lamp) 15 8)) then some 3
  else if !c.stopped && decide (1024 * 1000000000 < (s.raw - (c.sampleAt (c.wr * clsBlock c.cls) + 40000)) * 37500) then
    some 4
  else none

/-- Context `i` ended by Lens for `reason`, counted and reported. -/
def State.lensEnd (s : State) (i reason : Nat) : State :=
  let n := (s.ctx i).lamp
  let s := match reason with
    | 2 => (s.bump (LENS_CNT_SYNC_TO n)).event (32 * n + 19)
    | 3 => (s.bump (LENS_CNT_HDR_TO n)).event (32 * n + 20)
    | _ => ((s.bump (LENS_CNT_OVERRUN n)).event (32 * n + 21)).pulse (irqNo 4 (4 * n + 1))
  s.endCtx i reason

/-- The end of context `i` for `reason`, if that is the one due. -/
def State.endIfDue (s : State) (i reason : Nat) : State := if s.endDue i == some reason then s.lensEnd i reason else s

/-- CONTEXT_OVERRUN (R140): the oldest unwritten sample has left its delay line of 1,024 bin samples. -/
def execContextOverrun (t : Nat) (i : Fin 3072) (s : State) : Out := s.when t 4 fun s => s.endIfDue i.val 4

/-- SYNC_TIMEOUT (R143): SYNC_LIMIT symbols after the declaration with no SET_SYNC. -/
def execSyncTimeout (t : Nat) (i : Fin 3072) (s : State) : Out := s.when t 4 fun s => s.endIfDue i.val 2

/-- HEADER_TIMEOUT (R143): HDR_LIMIT symbols after the sync mark with no SET_END. -/
def execHeaderTimeout (t : Nat) (i : Fin 3072) (s : State) : Out := s.when t 4 fun s => s.endIfDue i.val 3

/-! ### Context commands (R142) -/

/-- The effect of one context command on an open context: the state and the code. -/
def State.ctxOp (s : State) (i op : Nat) (arg : Word) : State × Code :=
  let c := s.ctx i
  match op with
  | 1 =>
    if c.stopped then (s, .badArgument)
    else (s.setCtx i { c with endAt := some arg.toNat, stopped := decide (arg.toNat ≤ c.wr) }, .ok)
  | 2 =>
    if arg.toNat < c.consumed || c.wr < arg.toNat then (s, .badArgument)
    else (s.setCtx i { c with consumed := arg.toNat }, .ok)
  | 3 =>
    if c.sync.isSome then (s, .badArgument)
    else
      let at_ := c.capLt + (roundDiv (arg.toNat * 1000000000) (256 * clsFs c.cls)).toNat
      ((s.setCtx i { c with sync := some arg.toNat, stamp := s.netOf at_ }).putRecord i, .ok)
  | 4 =>
    let d := fld arg 19 0
    if d = 0 || fld arg 30 20 ≠ 0 then (s, .badArgument)
    else
      let nom : Nat := d * (if bit arg 31 then 4377 else 8049)
      let fde := clampI (-128) 127 (roundDiv (256 * (10 * (c.devMeas : Int) - nom)) nom)
      ((s.setCtx i { c with fde := fde, bt3 := bit arg 31 }).putRecord i, .ok)
  | 5 => match s.endDue i with
    | some r => (s.lensEnd i r, .tooLate)
    | none => (s.endCtx i 1, .ok)
  | _ => (s, .badArgument)

/-- LENS_CTX_CMD written with `v` (R142, R155). [DEDUCED, assumption 52] -/
def State.ctxCmd (s : State) (by_ : Ini) (v : Word) : State :=
  let i := fld v 11 0
  let op := fld v 31 28
  let c := s.ctx i
  let r : State × Code :=
    if 3072 ≤ i || c.gen.toNat ≠ fld v 27 20 || op = 0 || 5 < op then (s, .badArgument)
    else if c.st == .ended then (s, .tooLate)
    else if c.st != .live then (s, .badArgument)
    else s.ctxOp i op (s.reg LENS_CTX_ARG)
  r.1.result by_ LENS_CTX_RES r.2

/-- A write of LENS_CTX_CMD. -/
def State.ctxAccess (s : State) (t : Nat) (by_ : Ini) (op i : Nat) (gen : BitVec 8) : Out :=
  s.access t LENS_CTX_CMD by_ (fun _ => false) fun s =>
    s.ctxCmd by_ (BitVec.ofNat 32 (op * 2 ^ 28 + gen.toNat * 2 ^ 20 + i))

/-- SET_END (R142). -/
def execSetEnd (t : Nat) (by_ : Ini) (i : Fin 3072) (gen : BitVec 8) (s : State) : Out := s.ctxAccess t by_ 1 i.val gen
/-- CONSUMED (R142). -/
def execConsumed (t : Nat) (by_ : Ini) (i : Fin 3072) (gen : BitVec 8) (s : State) : Out := s.ctxAccess t by_ 2 i.val gen
/-- SET_SYNC (R142, R147). -/
def execSetSync (t : Nat) (by_ : Ini) (i : Fin 3072) (gen : BitVec 8) (s : State) : Out := s.ctxAccess t by_ 3 i.val gen
/-- SET_MOD (R142, R146). -/
def execSetMod (t : Nat) (by_ : Ini) (i : Fin 3072) (gen : BitVec 8) (s : State) : Out := s.ctxAccess t by_ 4 i.val gen
/-- RELEASE (R142). -/
def execRelease (t : Nat) (by_ : Ini) (i : Fin 3072) (gen : BitVec 8) (s : State) : Out := s.ctxAccess t by_ 5 i.val gen

/-! ### Spectral mask -/

/-- Power of FFT bin `k` of a 256-bin spectrum that lists bins -128 to 127. -/
def specBin (sp : List Nat) (k : Int) : Nat := sp.getD (k + 128).toNat 0

/-- Power over bins `a` to `b` on both sides. -/
def specSum (sp : List Nat) (a b : Nat) : Nat :=
  ((List.range (b + 1 - a)).map fun (j : Nat) =>
    let k : Int := (a : Int) + (j : Int)
    if k = 0 then specBin sp 0 else specBin sp k + specBin sp (-k)).foldl (· + ·) 0

/-- The mask of lamp `n` fails on a spectrum (R151). -/
def State.maskFails (s : State) (n : Nat) (sp : List Nat) : Bool :=
  let inCh := specSum sp 0 (s.rf (LENS_MASK_CTL n) 6 0)
  (List.range 8).any fun k =>
    let m := s.reg (LENS_MASK n k)
    bit m 31 && decide (fld m 30 24 ≤ fld m 22 16) &&
      decide (inCh ^ 20 < specSum sp (fld m 30 24) (fld m 22 16) ^ 20 * 10 ^ fld m 7 0)

/-- MASK_CHECK (R151): at a 16-symbol boundary from the 64th symbol, or at the end of the frame; `base` is the frame's
baseband so far at 16 samples per symbol. [DESIGN CHOICE, assumption 47; DEDUCED, assumption 159] -/
def execMaskCheck (t : Nat) (n : Fin 3) (base : List (Int × Int)) (s : State) : Out :=
  s.when t 4 fun s =>
    let l := s.lamp n.val
    match l.run with
    | none => s
    | some r =>
      let c := imageCls r.img
      let k := base.length / 256
      if l.st == .tx && s.rb (LENS_MASK_CTL n.val) 7 && !r.maskBad && decide (4 ≤ k) && base.length % 256 == 0
          && symbolsPassed c r.first s.clk (16 * k) && !symbolsPassed c r.first s.clk (16 * k + 16)
          && s.maskFails n.val (meanSpectrum base) then
        let m := s.lensOf n.val
        let s := ((s.bump (LENS_CNT_MASK_FAIL m)).pulse (irqNo 4 (4 * m + 2))).setLamp n.val { l with
          run := some { r with maskBad := true } }
        if s.rb (LENS_MASK_CTL n.val) 8 && decide (s.clk < l.due) then s.stopTx n.val (some .refused) else s
      else s

/-- The read-only views of the LENS registers. -/
def State.lensView (s : State) (a : Nat) : Option Word :=
  let n := (a - 0x44000000) / 0x10000
  if a < 0x44000000 || 3 ≤ n then none
  else if a = LENS_CAP n then some (BitVec.ofNat 32 (s.ctxLimit n * 65536 + s.unitCap n))
  else if a = LENS_USAGE n then some (BitVec.ofNat 32 (s.ctxOpen n * 65536 + s.unitsUsed n))
  else if a = LENS_PEND n then some (BitVec.ofNat 32 (s.pend n).length)
  else none

end Sys2Proof.Machine
end

