-- ==== Sys2Proof/Machine/NbrTable.lean ====
section
/-! DEFINITION. The neighbour table: entries, cache, directory, message pool and events (R193 to R199, R211, R217). -/
namespace Sys2Proof.Machine

/-! ### Entry words -/

/-- Word `w` of an entry. -/
def eWord (e : List Word) (w : Nat) : Word := e[w]?.getD 0
/-- Field [hi:lo] of word `w`. -/
def eFld (e : List Word) (w hi lo : Nat) : Nat := fld (eWord e w) hi lo
/-- An entry with a field set. -/
def eSet (e : List Word) (w hi lo x : Nat) : List Word := e.set w (setFld (eWord e w) hi lo x)
/-- Bit `b` of word `w`. -/
def eBit (e : List Word) (w b : Nat) : Bool := bit (eWord e w) b

def eState (e : List Word) : Nat := eFld e 1 31 30
/-- STATE is active. -/
def eActive (e : List Word) : Bool := eState e == 1
def eEpoch (e : List Word) : Nat := eFld e 2 31 24
def eHigh (e : List Word) : Nat := eFld e 2 23 0
/-- WIN, 64 bits: word 0x0C below word 0x10. -/
def eWin (e : List Word) : Nat := (eWord e 3).toNat + (eWord e 4).toNat * 2 ^ 32
def eSetWin (e : List Word) (v : Nat) : List Word := (e.set 3 (BitVec.ofNat 32 v)).set 4 (BitVec.ofNat 32 (v / 2 ^ 32))
def eDseq (e : List Word) : Nat := eFld e 5 23 0
def eTref (e : List Word) : Int := ((eWord e 6).toNat + (eWord e 7).toNat * 2 ^ 32 : Nat)
def eSetTref (e : List Word) (t : Int) : List Word :=
  (e.set 6 (BitVec.ofInt 32 t)).set 7 (BitVec.ofInt 32 (t / 2 ^ 32))
def eDrift (e : List Word) : Int := sfld (eWord e 9) 31 8
def eHead (e : List Word) : Nat := eFld e 14 15 0
def eTail (e : List Word) : Nat := eFld e 14 31 16
def eKeyref (e : List Word) : Nat := eFld e 1 19 0

/-- A DEVID that no entry may hold (R193). -/
def devidBad (d : Nat) : Bool := d == 0 || decide (0xFFFFFC00 ≤ d)

/-! ### Cache and backing store -/

/-- Bases of the three areas (R193, R194, R211). -/
def State.nbrStore (s : State) : Nat := s.rf NBR_STORE_HI 3 0 * 2 ^ 32 + (s.reg NBR_STORE_LO).toNat
def State.nbrDir (s : State) : Nat := s.rf NBR_DIR_HI 3 0 * 2 ^ 32 + (s.reg NBR_DIR_LO).toNat
def State.nbrMsg (s : State) : Nat := s.rf NBR_MSG_HI 3 0 * 2 ^ 32 + (s.reg NBR_MSG_LO).toNat

/-- The three areas lie wholly within ranks in service (R197, R460). -/
def State.nbrAreasOk (s : State) : Bool :=
  s.areaIn s.nbrStore 0x1000000 && s.areaIn s.nbrDir 0x400000 && s.areaIn s.nbrMsg 0x1000000

/-- The ways of a set, most recently used first. -/
def State.nbrSet (s : State) (k : Nat) : List NbrWay := tabGet [] s.lant.cache k
/-- A set replaced. -/
def State.setNbrSet (s : State) (k : Nat) (ws : List NbrWay) : State :=
  { s with lant := { s.lant with cache := tabSet s.lant.cache k ws } }

/-- Words of a byte string. -/
def wordsOf : List Byte → List Word
  | a :: b :: c :: d :: r => BitVec.ofNat 32 (leNat [a, b, c, d]) :: wordsOf r
  | _ => []
/-- Bytes of words. -/
def bytesOfWords (l : List Word) : List Byte := l.flatMap fun w => leBytes 4 w.toNat

/-- A way written back to the backing store (R195); none meets a fenced rank. -/
def State.nbrBack (s : State) (w : NbrWay) : Option State :=
  if w.dirty then (s.store (s.nbrStore + w.index * 64) (bytesOfWords w.words)).map fun s => s.event (32 * 5 + 2)
  else some s

/-- Entry `i`, fetched into the cache as most recently used (R195); none meets a fenced rank. -/
def State.nbrFetch (s : State) (i : Nat) : State × Option (List Word) :=
  let k := i % 2048
  let ws := s.nbrSet k
  match ws.find? fun w => w.index == i with
  | some w => ((s.setNbrSet k (w :: ws.filter fun x => x.index != i)).event (32 * 5), some w.words)
  | none =>
    let s := s.event (32 * 5 + 1)
    let ev : Option State := if ws.length < 8 then some s
      else match ws.getLast? with
        | some w => s.nbrBack w
        | none => some s
    match ev with
    | none => (s, none)
    | some s =>
      match s.load (s.nbrStore + i * 64) 64 with
      | none => (s.setNbrSet k (ws.take 7), none)
      | some bs =>
        let w : NbrWay := { index := i, words := wordsOf bs }
        (s.setNbrSet k (w :: ws.take 7), some w.words)

/-- The cached entry `i` changed to `e`. -/
def State.nbrPut (s : State) (i : Nat) (e : List Word) : State :=
  let k := i % 2048
  s.setNbrSet k ((s.nbrSet k).map fun w => if w.index = i then { w with words := e, dirty := w.dirty || w.words != e } else w)

/-- Every changed entry written back, before LANT stops (R414). -/
def State.nbrFlush (s : State) : State :=
  s.lant.cache.foldl (fun s (k : Nat × List NbrWay) =>
    k.2.foldl (fun s w => (s.nbrBack w).getD s) (s.setNbrSet k.1 (k.2.map fun w => { w with dirty := false }))) s

/-- STATE of entry `i` as it stands, without a fetch. -/
def State.nbrStateOf (s : State) (i : Nat) : Nat :=
  match (s.nbrSet (i % 2048)).find? fun w => w.index == i with
  | some w => eState w.words
  | none => (s.byte (s.nbrStore + i * 64 + 7)).toNat / 64

/-- The lowest free index from `i` on; `f` indexes are looked at. -/
def State.firstFree (s : State) : Nat → Nat → Option Nat
  | 0, _ => none
  | f + 1, i => if s.nbrStateOf i = 0 then some i else s.firstFree f (i + 1)

/-- How many of `f` entries from `i` on have STATE `st` (NBR_OCC_ACT and NBR_OCC_RET). -/
def State.occupancy (s : State) (st : Nat) : Nat → Nat → Nat → Nat
  | 0, _, n => n
  | f + 1, i, n => s.occupancy st f (i + 1) (if s.nbrStateOf i = st then n + 1 else n)

/-! ### Directory -/

/-- The two buckets of a DEVID (R194). -/
def dirBuckets (d : Nat) : List Nat := [d * 0x9E3779B1 % 2 ^ 32 / 2 ^ 15, d * 0x85EBCA77 % 2 ^ 32 / 2 ^ 15]

/-- Addresses of the eight ways of a DEVID, in insertion order. -/
def State.dirWays (s : State) (d : Nat) : List Nat :=
  (dirBuckets d).flatMap fun b => (List.range 4).map fun w => s.nbrDir + (b * 4 + w) * 8

/-- A way of the directory: DEVID, and the index when it is valid. -/
def State.dirAt (s : State) (a : Nat) : Option (Nat × Option Nat) :=
  (s.loadNat a 8).map fun v => (v / 2 ^ 32, if v / 2 ^ 31 % 2 = 1 then some (v % 2 ^ 18) else none)

/-- The index that the directory gives a DEVID; the outer none meets a fenced rank. -/
def State.dirFind (s : State) (d : Nat) : Option (Option Nat) :=
  let ws := (s.dirWays d).map s.dirAt
  if ws.any Option.isNone then none
  else some ((ws.filterMap id).findSome? fun (w : Nat × Option Nat) => if w.1 = d then w.2 else none)

/-- The directory with a DEVID at the first free way; none when both buckets are full. -/
def State.dirInsert (s : State) (d i : Nat) : Option State :=
  match (s.dirWays d).find? fun a => match s.dirAt a with
    | some (_, none) => true
    | _ => false with
  | some a => s.store a (leBytes 8 (d * 2 ^ 32 + 2 ^ 31 + i))
  | none => none

/-- The directory without the way of a DEVID. -/
def State.dirRemove (s : State) (d : Nat) : State :=
  match (s.dirWays d).find? fun a => match s.dirAt a with
    | some (x, some _) => x == d
    | _ => false with
  | some a => s.storeDrop a (leBytes 8 0)
  | none => s

/-! ### Events -/

/-- An event of the Lantern ring (R217). -/
def State.lantEvent (s : State) (code : Nat) (w : List Nat) : State :=
  let wr := s.rf LANT_EVT_IDX 27 16
  let drop := (s.bump LANT_CNT_EVT_DROP).pulse (irqNo 7 1)
  if (wr + 1) % 4096 = s.rf LANT_EVT_IDX 11 0 then drop
  else
    let base := s.rf LANT_EVT_HI 3 0 * 2 ^ 32 + (s.reg LANT_EVT_LO).toNat
    let sec := wrap 24 (s.now / 1000000000)
    match s.store (base + wr * 16) (List.flatMap (leBytes 4) ((code * 2 ^ 24 + sec) :: w)) with
    | some s => (s.setRf LANT_EVT_IDX 27 16 ((wr + 1) % 4096)).pulse (irqNo 7 0)
    | none => drop

/-! ### The downlink queue -/

/-- Address of a message slot. -/
def State.msgAt (s : State) (k : Nat) : Nat := s.nbrMsg + k * 256

/-- The head message of an entry: its slot and its first four words; none when the queue is empty, the inner none
when the pool cannot be read. -/
def State.msgHead (s : State) (e : List Word) : Option (Nat × Option (List Word)) :=
  if eHead e = 0xFFFF then none else some (eHead e, (s.load (s.msgAt (eHead e)) 16).map wordsOf)

/-- An entry without its head message, whose words are `m`. -/
def popMsg (e m : List Word) : List Word :=
  let nx := eFld m 0 31 16
  if eHead e = eTail e || nx == 0xFFFF then eSet (eSet e 14 15 0 0xFFFF) 14 31 16 0xFFFF else eSet e 14 15 0 nx

/-- Every message leaves the queue, each with event 0x06 (R198); at most `f`. [DEDUCED, assumption 84] -/
def State.returnMsgs (s : State) : Nat → List Word → State × List Word
  | 0, e => (s, e)
  | f + 1, e =>
    match s.msgHead e with
    | some (k, some m) =>
      (s.lantEvent 6 [(eWord e 0).toNat, k, eFld m 1 31 16]).returnMsgs f (popMsg e m)
    | _ => (s, eSet (eSet e 14 15 0 0xFFFF) 14 31 16 0xFFFF)

/-! ### Commands -/

/-- The later of two sequences under a signed 24-bit comparison. -/
def seqLater (a b : Nat) : Bool := decide (0 < sext 24 (a + 2 ^ 24 - b))

/-- The retained marks of `old` applied to a new entry of the same DEVID and epoch (R199). [DEDUCED, assumption 83] -/
def keepMarks (old e : List Word) : List Word :=
  let oldWins := eBit old 1 26 && (!eBit e 1 26 || seqLater (eHigh old) (eHigh e))
  let e := if oldWins then eSetWin (eSet (eSet e 2 23 0 (eHigh old)) 1 26 26 1) (eWin old) else e
  if seqLater (eDseq old) (eDseq e) then eSet e 5 23 0 (eDseq old) else e

/-- An entry with its RSVD bits 0 (R193). -/
def rsvdClear (e : List Word) : List Word := eSet (eSet e 1 24 24 0) 13 7 0 0

/-- What REGISTER clears: ACK_VALID, DL_OUT, UPD and the queue. [DEDUCED, assumption 81] -/
def freshEntry (e : List Word) : List Word :=
  let e := rsvdClear e
  (eSet (eSet (eSet (eSet e 1 27 27 0) 1 25 25 0) 1 23 20 0) 14 31 16 0xFFFF) |> fun e => eSet e 14 15 0 0xFFFF

/-- What RESTORED adds (R199); DSEQ stops at 0xFF_FFFF. -/
def restoreEntry (skip : Nat) (e : List Word) : List Word :=
  let e := eSet (eSet e 2 23 0 (eHigh e + skip)) 5 23 0 (min 0xFFFFFF (eDseq e + skip))
  eSet (eSet (eSetWin e (2 ^ 64 - 1)) 1 26 26 1) 1 27 27 0

/-- The code of a fetch that met a fenced rank, or of what `k` does with the entry. -/
def State.withEntry (s : State) (i : Nat) (k : State → List Word → State × Code) : State × Code :=
  match s.nbrFetch i with
  | (s, none) => (s, .fenced)
  | (s, some e) => k s e

/-- REGISTER of an entry (R198, R199); `fix` is what RESTORED adds. [DEDUCED, assumption 81] -/
def State.nbrRegister (s : State) (e : List Word) (fix : List Word → List Word) : State × Code × Nat :=
  let d := (eWord e 0).toNat
  let e := freshEntry e
  if devidBad d || !(eState e == 1 || eState e == 2) then (s, .badArgument, 0)
  else
    match s.dirFind d with
    | none => (s, .fenced, 0)
    | some (some i) =>
      (match s.nbrFetch i with
      | (s, none) => (s, .fenced, i)
      | (s, some old) =>
        if eActive old then (s, .badArgument, i)
        else
          let e := if eEpoch old = eEpoch e then keepMarks old e else e
          (s.nbrPut i (fix e), .ok, i))
    | some none =>
      match s.firstFree 262144 0 with
      | none => (s, .noBuffer, 0)
      | some i =>
        match s.nbrFetch i with
        | (s, none) => (s, .fenced, i)
        | (s, some _) =>
          match s.dirInsert d i with
          | none => (s, .noBuffer, i)
          | some s => (s.nbrPut i (fix e), .ok, i)

/-- The entry buffer. -/
def State.nbrBuf (s : State) : List Word := (List.range 16).map fun w => s.reg (NBR_BUF w)

/-- UPDATE: firmware's fields copied from the buffer `b` (R198). -/
def updateEntry (e b : List Word) : List Word :=
  let f := fun (e : List Word) (w hi lo : Nat) => eSet e w hi lo (eFld b w hi lo)
  f (f (f (f (f (f e 1 29 29) 1 28 28) 1 19 0) 10 15 8) 12 31 0) 13 31 8

/-- ENQUEUE of slot `k` (R211). [DEDUCED, assumption 84] -/
def State.nbrEnqueue (s : State) (i k : Nat) : State × Code :=
  s.withEntry i fun s e =>
    if !eActive e || k == 0xFFFF then (s, .badArgument)
    else
      match s.load (s.msgAt k) 16 with
      | none => (s, .fenced)
      | some bs =>
        let m := wordsOf bs
        if eFld m 0 7 0 = 0 || eFld m 1 15 0 = 0 || decide (240 < eFld m 1 15 0) then (s, .badArgument)
        else
          match s.store (s.msgAt k) (leBytes 4 (0xFFFF0000 + eFld m 0 7 0)) with
          | none => (s, .fenced)
          | some s =>
            if eHead e = 0xFFFF then (s.nbrPut i (eSet (eSet e 14 15 0 k) 14 31 16 k), .ok)
            else ((s.storeDrop (s.msgAt (eTail e) + 2) (leBytes 2 k)).nbrPut i (eSet e 14 31 16 k), .ok)

/-- The result of an NBR command: its index and code (R198). -/
def State.nbrResult (s : State) (by_ : Nat) (i : Nat) (c : Code) : State :=
  { s with latches := tabSet s.latches (by_ * 0x10000000000 + NBR_RES) (BitVec.ofNat 32 (i % 2 ^ 18 * 256 + c.val)) }

/-- A source or destination address in buffer words 0 and 1. -/
def State.nbrBufAddr (s : State) : Nat := s.rf (NBR_BUF 1) 3 0 * 2 ^ 32 + (s.reg (NBR_BUF 0)).toNat

/-- A long operation begins, or is refused while one runs (R198). -/
def State.nbrStart (s : State) (o : NbrOp) : State :=
  if s.lant.op.isSome then s.nbrResult o.by_ 0 .refused
  else ({ s with lant := { s.lant with op := some o } }).nbrResult o.by_ 0 .inSteps

/-- A long operation closes. -/
def State.nbrClose (s : State) (o : NbrOp) (c : Code) : State :=
  (({ s with lant := { s.lant with op := none } }).nbrResult o.by_ 0 c).pulse (irqNo 7 8)

/-- `n` entries of a LOAD. [DEDUCED, assumption 82] -/
def State.nbrLoadSome (s : State) (o : NbrOp) : Nat → Nat → State × Option Code
  | 0, _ => (s, none)
  | n + 1, k =>
    if o.count ≤ k then (s, none)
    else
      match s.load (o.addr + k * 64) 64 with
      | none => (s, some .fenced)
      | some bs =>
        let fix := if o.restored then restoreEntry o.skip else id
        match s.nbrRegister (wordsOf bs) fix with
        | (s, .noBuffer, _) => (s, some .noBuffer)
        | (s, .fenced, _) => (s, some .fenced)
        | (s, _, _) => s.nbrLoadSome o n (k + 1)

/-- `n` entries of an EXPORT from index `k`; the second component counts the entries written. -/
def State.nbrExportSome (s : State) (o : NbrOp) : Nat → Nat → Nat → State × Nat × Option Code
  | 0, _, w => (s, w, none)
  | n + 1, k, w =>
    if s.nbrStateOf k = 1 || s.nbrStateOf k = 2 then
      match s.nbrFetch k with
      | (s, none) => (s, w, some .fenced)
      | (s, some e) =>
        match s.store (o.addr + w * 64) (bytesOfWords e) with
        | none => (s, w, some .fenced)
        | some s => s.nbrExportSome o n (k + 1) (w + 1)
    else s.nbrExportSome o n (k + 1) w

/-- One step of the running LOAD or EXPORT: at most 256 entries (R198). -/
def State.nbrStep (s : State) : State :=
  match s.lant.op with
  | none => s
  | some o =>
    if o.load then
      match s.nbrLoadSome o 256 o.done with
      | (s, some c) => s.nbrClose o c
      | (s, none) =>
        let o := { o with done := min o.count (o.done + 256) }
        if o.count ≤ o.done then s.nbrClose o .ok
        else { s with lant := { s.lant with op := some o } }
    else
      match s.nbrExportSome o 256 o.done o.out with
      | (s, _, some c) => s.nbrClose o c
      | (s, w, none) =>
        let o := { o with done := o.done + 256, out := w }
        if 262144 ≤ o.done then s.nbrClose o .ok
        else { s with lant := { s.lant with op := some o } }

/-! ### The rows -/

/-- An NBR command: its gate, and its code with the index in NBR_RES. -/
def State.nbrCmd (s : State) (t : Nat) (by_ : Ini) (k : State → State × Code × Nat) : Out :=
  s.access t NBR_CMD by_ (fun _ => false) fun s =>
    let r := k s
    r.1.nbrResult (iniIdx by_) r.2.2 r.2.1

/-- REGISTER (R199). -/
def execRegister (t : Nat) (by_ : Ini) (s : State) : Out :=
  s.nbrCmd t by_ fun s =>
    if eState s.nbrBuf = 1 then s.nbrRegister s.nbrBuf id else (s, .badArgument, 0)

/-- UPDATE (R198). -/
def execUpdate (t : Nat) (by_ : Ini) (i : BitVec 18) (s : State) : Out :=
  s.nbrCmd t by_ fun s =>
    let r := s.withEntry i.toNat fun s e =>
      if eActive e then (s.nbrPut i.toNat (updateEntry e s.nbrBuf), .ok) else (s, .badArgument)
    (r.1, r.2, i.toNat)

/-- READ (R198). -/
def execNbrRead (t : Nat) (by_ : Ini) (i : BitVec 18) (s : State) : Out :=
  s.nbrCmd t by_ fun s =>
    let r := s.withEntry i.toNat fun s e =>
      if eState e = 0 then (s, .badArgument)
      else ((List.range 16).foldl (fun (s : State) w => s.setReg (NBR_BUF w) (eWord e w)) s, .ok)
    (r.1, r.2, i.toNat)

/-- REMOVE (R198). -/
def execRemove (t : Nat) (by_ : Ini) (i : BitVec 18) (s : State) : Out :=
  s.nbrCmd t by_ fun s =>
    let r := s.withEntry i.toNat fun s e =>
      if eActive e then
        let m := s.returnMsgs 65535 e
        (m.1.nbrPut i.toNat (eSet m.2 1 31 30 2), .ok)
      else (s, .badArgument)
    (r.1, r.2, i.toNat)

/-- PURGE (R198). -/
def execPurge (t : Nat) (by_ : Ini) (i : BitVec 18) (s : State) : Out :=
  s.nbrCmd t by_ fun s =>
    let r := s.withEntry i.toNat fun s e =>
      if eState e = 2 then ((s.dirRemove (eWord e 0).toNat).nbrPut i.toNat (eSet e 1 31 30 0), .ok)
      else (s, .badArgument)
    (r.1, r.2, i.toNat)

/-- LOAD (R198, R199). -/
def execNbrLoad (t : Nat) (by_ : Ini) (s : State) : Out :=
  s.access t NBR_CMD by_ (fun _ => false) fun s =>
    s.nbrStart {
      load := true, restored := s.rb NBR_ARG 31, skip := s.rf NBR_ARG 23 0, addr := s.nbrBufAddr
      count := (s.reg (NBR_BUF 2)).toNat, by_ := iniIdx by_ }

/-- EXPORT (R198). -/
def execNbrExport (t : Nat) (by_ : Ini) (s : State) : Out :=
  s.access t NBR_CMD by_ (fun _ => false) fun s => s.nbrStart { load := false, addr := s.nbrBufAddr, by_ := iniIdx by_ }

/-- ENQUEUE (R211). -/
def execEnqueue (t : Nat) (by_ : Ini) (i : BitVec 18) (s : State) : Out :=
  s.nbrCmd t by_ fun s =>
    let r := s.nbrEnqueue i.toNat (s.rf (NBR_BUF 0) 15 0)
    (r.1, r.2, i.toNat)

/-- DEQUEUE (R198): NBR_RES.INDEX is the slot. -/
def execDequeue (t : Nat) (by_ : Ini) (i : BitVec 18) (s : State) : Out :=
  s.nbrCmd t by_ fun s =>
    match s.nbrFetch i.toNat with
    | (s, none) => (s, .fenced, i.toNat)
    | (s, some e) =>
      if !eActive e then (s, .noBuffer, i.toNat)
      else
        match s.msgHead e with
        | none => (s, .noBuffer, i.toNat)
        | some (_, none) => (s, .fenced, i.toNat)
        | some (k, some m) => (s.nbrPut i.toNat (popMsg e m), .ok, k)

/-- NBR_CTL written with `v` (R197, R219). -/
def State.nbrCtl (s : State) (v : Word) : State :=
  let en := bit v 31 && (s.nbrAreasOk || s.rb NBR_CTL 31)
  s.setReg NBR_CTL (BitVec.ofNat 32 (en.toNat * 2 ^ 31 + min 12 (fld v 27 24) * 2 ^ 24 + fld v 23 0))

/-- NBR_ENABLE (R197). -/
def execNbrEnable (t : Nat) (by_ : Ini) (v : Word) (s : State) : Out :=
  s.access t NBR_CTL by_ (fun _ => false) fun s => s.nbrCtl v

/-- The read-only views of the NBR registers. -/
def State.nbrView (s : State) (a : Nat) : Option Word :=
  if a = NBR_PROG then some (BitVec.ofNat 32 ((s.lant.op.map fun o => min 262144 o.done).getD 0))
  else if a = NBR_OCC_ACT then some (BitVec.ofNat 32 (s.occupancy 1 262144 0 0))
  else if a = NBR_OCC_RET then some (BitVec.ofNat 32 (s.occupancy 2 262144 0 0))
  else none

end Sys2Proof.Machine
end

