-- ==== Sys2Proof/Machine/Keys.lean ====
section
/-! DEFINITION. Key slots, key records, wrapping, roots and usage limits (R321 to R330). -/
namespace Sys2Proof.Machine

/-- Slot `k`. -/
def State.slot (s : State) (k : Nat) : KeySlot := tabGet {} s.ciph.slots k
/-- Slot `k` replaced. -/
def State.setSlot (s : State) (k : Nat) (x : KeySlot) : State :=
  { s with ciph := { s.ciph with slots := tabSet s.ciph.slots k x } }
/-- First cache slot (R321). -/
def State.cacheBase (s : State) : Nat := s.rf CIPH_CTL 26 16
/-- Base of the key records (R322). -/
def State.krec (s : State) : Nat := s.rf CIPH_KREC_HI 3 0 * 2 ^ 32 + (s.reg CIPH_KREC_LO).toNat
/-- Address of half `h` of record `r`. -/
def State.halfAddr (s : State) (r h : Nat) : Nat := s.krec + r * 128 + h * 64
/-- ROOT_PAR. -/
def State.rootPar (s : State) : Nat := s.rf CIPH_STATUS 25 25
/-- The root of a parity (R324). -/
def State.rootOf (s : State) (par : Nat) : Option (List Byte) := if par = s.rootPar then s.ciph.root else s.ciph.pend

/-- The key records lie wholly within ranks in service (R341, R460). -/
def State.krecOk (s : State) : Bool := s.areaIn s.krec 0x2000000

/-! ### Wrapping (R323) -/

/-- Word `w` of a half. -/
def halfWord (b : List Byte) (w : Nat) : Word := BitVec.ofNat 32 (leNat ((b.drop (4 * w)).take 4))

/-- The key of a half or blob, unwrapped; none when its tag fails. A LIMIT beyond 2^28 is 2^28 (R323, R325). -/
def unwrapHalf (wk b : List Byte) : Option Key :=
  let w0 := halfWord b 0
  (ccmOpen (natsOf wk) (natsOf ((b.drop 16).take 8) ++ List.replicate 5 0) (natsOf (b.take 4))
      (natsOf ((b.drop 24).take 32)) (natsOf ((b.drop 56).take 8))).map fun p => {
    data := bytesNat (p.take (if bit w0 22 then 32 else 16))
    epoch := fld w0 31 24
    kek := bit w0 21
    used := (halfWord b 1).toNat
    limit := min (2 ^ 28) (halfWord b 2).toNat
    grace := fld (halfWord b 3) 12 0 }

/-- A key wrapped as a half or blob with WNONCE `nonce`. -/
def wrapHalf (wk : List Byte) (k : Key) (rg : Nat) (nonce : List Byte) : List Byte :=
  let w0 := leBytes 4 (k.epoch * 2 ^ 24 + 2 ^ 23 + (k.data.length / 32) * 2 ^ 22 + k.kek.toNat * 2 ^ 21 + rg * 2 ^ 20)
  let field := k.data ++ List.replicate (32 - k.data.length) 0
  w0 ++ leBytes 4 k.used ++ leBytes 4 k.limit ++ leBytes 4 k.grace ++ nonce ++
    bytesNat (ccmSeal (natsOf wk) (natsOf nonce ++ List.replicate 5 0) (natsOf w0) (natsOf field) 8)

/-! ### The record cache (R326) -/

/-- USED and GRACE of a cache slot written back to its half; none meets a fenced rank. -/
def State.keyBack (s : State) (k : Nat) : Option State :=
  let x := s.slot k
  match x.key, x.half with
  | some key, some (r, h) =>
    if x.dirty then
      ((s.store (s.halfAddr r h + 4) (leBytes 4 key.used)).bind fun s =>
        s.store (s.halfAddr r h + 12) (leBytes 4 key.grace)).map fun s => s.setSlot k { x with dirty := false }
    else some s
  | _, _ => some s

/-- A cache slot loses its half: what it held is gone, and its generation advances. [DEDUCED, assumption 74] -/
def State.cacheDrop (s : State) (k : Nat) : State :=
  let x := s.slot k
  let s := s.setSlot k { gen := x.gen + 1 }
  { s with ciph := { s.ciph with lru := s.ciph.lru.filter fun j => j != k } }

/-- The cache slot that holds a half. -/
def State.cached (s : State) (r h : Nat) : Option Nat := s.ciph.lru.find? fun k => (s.slot k).half == some (r, h)

/-- A free cache slot; the least recently used one is evicted when there is none. None meets a fenced rank. -/
def State.cacheRoom (s : State) : Option (State × Nat) :=
  if s.ciph.lru.length < 2048 - s.cacheBase then
    ((List.range (2048 - s.cacheBase)).map fun i => s.cacheBase + i).find? (fun k => !s.ciph.lru.contains k)
      |>.map fun k => (s, k)
  else
    match s.ciph.lru.getLast? with
    | some k => (s.keyBack k).map fun s => (s.cacheDrop k, k)
    | none => none

/-- Half `h` of record `r` in the cache (R322, R326): its slot, or the code of what went wrong. -/
def State.fetchHalf (s : State) (r h : Nat) : State × Except Code Nat :=
  match s.cached r h with
  | some k => ({ s with ciph := { s.ciph with lru := k :: s.ciph.lru.filter fun j => j != k } }, .ok k)
  | none =>
    let s := (s.bump CIPH_CNT_MISS).event (32 * 6 + 9)
    match s.load (s.halfAddr r h) 64 with
    | none => (s, .error .fenced)
    | some b =>
      if !bit (halfWord b 0) 23 then (s, .error .keyGone)
      else
        match s.rootOf (fld (halfWord b 0) 20 20) with
        | none => (s, .error .keyGone)
        | some root =>
          match unwrapHalf root b with
          | none => (s.bump CIPH_CNT_UNWRAP_FAIL, .error .keyGone)
          | some key =>
            match s.cacheRoom with
            | none => (s, .error .fenced)
            | some (s, k) =>
              let s := s.setSlot k { key := some key, gen := (s.slot k).gen, half := some (r, h) }
              ({ s with ciph := { s.ciph with lru := k :: s.ciph.lru } }, .ok k)

/-! ### Resolution and admission (R321, R322, R325) -/

/-- The slot of a firmware key, or the code of what is wrong. -/
def State.fwSlot (s : State) (k : Nat) : Except Code Nat :=
  if s.cacheBase ≤ k then .error .badArgument
  else if (s.slot k).key.isNone then .error .keyGone
  else .ok k

/-- The slot that holds the key of a job, fetched where it names a record, with its epoch and use checked. -/
def State.resolve (s : State) (rec_ : Bool) (key epoch : Nat) : State × Except Code Nat :=
  let r := if rec_ then
      (if key < 262144 then s.fetchHalf key (epoch % 2) else (s, .error .badArgument))
    else (s, s.fwSlot key)
  match r with
  | (s, .error c) => (s, .error c)
  | (s, .ok k) =>
    match (s.slot k).key with
    | none => (s, .error .keyGone)
    | some x =>
      if x.epoch ≠ epoch then (s, .error .keyGone)
      else if x.kek then (s, .error .badArgument)
      else (s, .ok k)

/-- KEYREF as a job names it (R322): a record, or a slot by the parity of the epoch; a bad value names no slot. -/
def State.keyrefOf (s : State) (ref epoch : Nat) : Bool × Nat :=
  if ref < 0x40000 then (true, ref)
  else if 0x80000 ≤ ref && (ref - 0x80000) % 2 == 0 && decide (ref - 0x80000 + 1 < s.cacheBase) then
    (false, ref - 0x80000 + epoch % 2)
  else (false, 2 ^ 20)

/-- The usage limit at admission (R325): whether the use is in grace, or the code that ends the job. -/
def State.useKey (s : State) (k : Nat) (encrypts : Bool) : State × Except Code Bool :=
  let x := s.slot k
  match x.key with
  | none => (s, .error .keyGone)
  | some key =>
    if key.used < key.limit then
      let s := s.setSlot k { x with key := some { key with used := key.used + 1 }, dirty := x.half.isSome }
      if (key.used + 1) % 65536 = 0 then
        match s.keyBack k with
        | some s => (s, .ok false)
        | none => (s, .error .fenced)
      else (s, .ok false)
    else if encrypts then (s, .error .keySpent)
    else if key.grace < 4096 then
      (((s.setSlot k { x with key := some { key with grace := key.grace + 1 }, dirty := x.half.isSome }).bump
        CIPH_CNT_GRACE).event (32 * 6 + 11), .ok true)
    else (s, .error .keySpent)

/-- The engine refuses every job and key command (R333, R338). -/
def State.cipherRefuses (s : State) : Bool :=
  s.rb CIPH_STATUS 30 || s.rb CIPH_STATUS 31 || !s.rb CIPH_STATUS 28

/-- The self-tests run on demand; jobs wait (R338). -/
def State.cipherWaits (s : State) : Bool :=
  match s.sec.op with
  | some o => o.kind == .selftest false
  | none => false

/-- The lane that takes a job now: in service with a suitable place and the fewest jobs (R314). -/
def State.cipherLane (s : State) (urgent : Bool) (hold : Nat) : Option Nat :=
  let load := fun (l : Nat) => s.ciph.run.filter fun j => j.lane = l
  let fits := fun (l : Nat) =>
    let js := load l
    let urg := (js.filter fun j => j.cls = 1).length
    let held := (js.filter fun j => j.op = 6).foldl (fun a j => a + (j.len + 63) / 64 * 64) 0
    s.inService (0x28 + l) && decide (held + hold ≤ 16384) &&
      (if urgent then decide (js.length < 16) else decide (js.length - urg + (urg - 1) < 15))
  ((List.range 4).filter fits).foldl (fun b l => match b with
    | none => some l
    | some m => if (load l).length < (load m).length then some l else b) none

/-- Cycles of 800 MHz that a lane takes for a job (R317). -/
def CJob.cycles (j : CJob) : Nat :=
  let c := if j.kdata.length = 32 then 8 else 6
  let blk := (j.len + 15) / 16
  let ad := if j.adlen = 0 then 0 else (j.adlen + 2 + 15) / 16
  let cb := match j.op with
    | 5 | 6 => c * (1 + ad + blk)
    | 0 | 2 | 7 | 8 => c * max 1 blk
    | _ => blk
  48 + cb + (j.len + 31) / 32

/-- Lane time of a job in quarters of a nanosecond, with the read and the unwrap of a half that missed (R317). The
DRAM read's time is not stated. [DESIGN CHOICE, assumption 165] -/
def CJob.work (j : CJob) (miss : Bool) (n : Nat) : Nat :=
  (j.cycles + if miss then 81 + Config.halfRead n else 0) * 5

/-- The job's key names a half that the cache does not hold (R326). -/
def State.keyMiss (s : State) (keyRec : Bool) (key epoch : Nat) : Bool := keyRec && (s.cached key (epoch % 2)).isNone

/-- The first job equal to `j` becomes `j'`. -/
def swapFirst (j j' : CJob) : List CJob → List CJob
  | [] => []
  | x :: xs => if x = j then j' :: xs else x :: swapFirst j j' xs

/-- `n` quarter-nanoseconds of work on the jobs of lane `l`: the highest class first, the oldest first within a class;
what is left of `n` is returned. At most `f` jobs finish. -/
def laneWork (l : Nat) : Nat → Nat → List CJob → List CJob × Nat
  | 0, n, js => (js, n)
  | f + 1, n, js =>
    let todo := js.filter fun j => j.lane = l && decide (0 < j.need)
    let pick := todo.foldl (fun (b : Option CJob) j => match b with
      | none => some j
      | some x => if j.cls < x.cls then some j else some x) none
    match pick with
    | none => (js, n)
    | some j =>
      let go := min n j.need
      let js := swapFirst j { j with need := j.need - go } js
      if go = n then (js, 0) else laneWork l f (n - go) js

/-- The lanes run up to the present instant; a lane out of service stands still. A finished encryption of the Lantern
hardware leaves its lane. -/
def State.runLanes (s : State) : State :=
  let dt := (s.clk - s.ciph.ranTo) * 4
  let s := { s with ciph := { s.ciph with ranTo := s.clk } }
  (List.range 4).foldl (fun s l =>
    if !s.inService (0x28 + l) then s
    else
      let r := laneWork l 16 dt s.ciph.run
      let run := r.1.filter fun j => !(j.src == .inline && j.need == 0)
      ({ s with ciph := { s.ciph with run := run } }).eventFrac (32 * 6 + 4 + l) 5 (dt - r.2)) s

/-- A job has ended with a code: the engine's counters (R340). -/
def State.jobCount (s : State) (c : Code) : State :=
  let s := s.bump CIPH_CNT_JOBS
  match c with
  | .tagFail => (s.bump CIPH_CNT_TAG_FAIL).event (32 * 6 + 10)
  | .keySpent => s.bump CIPH_CNT_KEY_SPENT
  | .keyGone => s.bump CIPH_CNT_KEY_GONE
  | .badArgument => s.bump CIPH_CNT_BADJOB
  | _ => s

/-- An encryption that the Lantern hardware needs within one command (R202, R209): a key resolved, counted and latched,
and a lane that has a place busy with `len` bytes for the time of R317. A lane must be in service. [DEDUCED, assumption
72] -/
def State.encryptNow (s : State) (ref : Bool × Nat) (epoch : Nat) (urgent : Bool) (tlen len : Nat) :
    State × Except Code (List Nat) :=
  let s := s.runLanes
  let miss := s.keyMiss ref.1 ref.2 epoch
  if s.cipherRefuses || !s.rb CIPH_CTL 0 || !s.domOn 15 then (s.jobCount .refused, .error .refused)
  else if s.countIn 0x28 4 = 0 then (s.jobCount .fenced, .error .fenced)
  else
    match s.resolve ref.1 ref.2 epoch with
    | (s, .error c) => (s.jobCount c, .error c)
    | (s, .ok k) =>
      match s.useKey k true with
      | (s, .error c) => (s.jobCount c, .error c)
      | (s, .ok _) =>
        let x := s.slot k
        let kdata := (x.key.map fun (y : Key) => y.data).getD []
        let s := s.jobCount .ok
        let s := match s.cipherLane urgent 0 with
          | none => s
          | some l =>
            let j : CJob := {
              src := .inline, cls := if urgent then 1 else 3, op := 5, keyRec := ref.1, key := ref.2, epoch := epoch
              tlen := tlen, nlen := 13, adlen := 14, len := len, iv := [], lane := l, kslot := k, kgen := x.gen
              kdata := kdata }
            let j := { j with need := j.work miss (s.reg CIPH_CNT_MISS).toNat }
            ({ s with ciph := { s.ciph with run := s.ciph.run ++ [j] } }).event (32 * 6 + l)
        let s := if urgent then s.event (32 * 6 + 8) else s
        (s, .ok (natsOf kdata))

end Sys2Proof.Machine
end

