-- ==== Sys2Proof/Machine/Cipher.lean ====
section
/-! DEFINITION. The cipher engine's jobs: submission, admission, lanes, modes, completion and withdrawal (R313 to R320). -/
namespace Sys2Proof.Machine

/-! ### Jobs -/

/-- OP encrypts, for the usage limit (R325). -/
def CJob.encrypts (j : CJob) : Bool := j.op == 0 || j.op == 2 || j.op == 4 || j.op == 5 || j.op == 7

/-- The lengths and fields of a job fit R313 and R316. -/
def CJob.valid (j : CJob) : Bool :=
  let ccm := decide (7 ≤ j.nlen) && decide (j.nlen ≤ 13) && decide (4 ≤ j.tlen) && j.tlen % 2 == 0 &&
    decide (j.adlen ≤ 4096)
  match j.op with
  | 0 | 1 | 2 | 3 => decide (16 ≤ j.len) && decide (j.len ≤ 1048576) && j.len % 16 == 0
  | 4 => decide (1 ≤ j.len) && decide (j.len ≤ 1048576)
  | 5 => ccm && decide (j.len ≤ 65535)
  | 6 => ccm && decide (j.len ≤ 16384)
  | 7 | 8 => decide (j.len ≤ 1048576) && decide (4 ≤ j.tlen)
  | _ => false

/-- Bytes of tag at the end of the input. -/
def CJob.tagIn (j : CJob) : Nat := if j.op = 6 || j.op = 8 then j.tlen else 0
/-- Bytes of associated data in front of the input. -/
def CJob.adIn (j : CJob) : Nat := if j.op = 5 || j.op = 6 then j.adlen else 0
/-- Bytes of a lane's hold buffer that a job takes (R314). -/
def CJob.hold (j : CJob) : Nat := if j.op = 6 then (j.len + 63) / 64 * 64 else 0

/-- A job as its descriptor at `a` reads (R316); none when it cannot be read. -/
def State.readCJob (s : State) (a : Nat) : Option CJob :=
  (s.load a 64).map fun b =>
    let w := halfWord b
    { src := .desc a
      cls := if bit (w 0) 27 then 1 else 3
      op := fld (w 0) 31 28
      keyRec := bit (w 0) 26
      key := fld (w 0) 19 0
      epoch := fld (w 1) 31 24
      tlen := fld (w 1) 23 20 + 1
      nlen := fld (w 1) 19 16
      adlen := fld (w 1) 12 0
      len := fld (w 2) 23 0
      taskEn := bit (w 3) 12
      task := fld (w 3) 11 0
      iv := (b.drop 16).take 16
      inA := (fld (w 9) 3 0 * 2 ^ 32 + (w 8).toNat) / 4 * 4
      outA := (fld (w 11) 3 0 * 2 ^ 32 + (w 10).toNat) / 4 * 4 }

/-- The word at 0x30 (R316). -/
def CJob.word (j : CJob) (c : Code) : Nat :=
  c.val * 2 ^ 24 + j.kgen.toNat * 2 ^ 16 + j.lane * 2 ^ 14 + j.grace.toNat * 2 ^ 13

/-- A job completes (R318): OUT for OK, the word at 0x30, the task; a Lantern job returns to the Lantern. -/
def State.jobEnd (s : State) (j : CJob) (c : Code) (out : List Byte) : State :=
  let s := { s with ciph := { s.ciph with run := s.ciph.run.erase j } }
  match j.src with
  | .inline => s
  | .frame i => (s.jobCount c).frameEnd i c out
  | .desc a =>
    let r : State × Code := if c = .ok && !out.isEmpty then
        match s.store j.outA out with
        | some s => (s, .ok)
        | none => (s, .fenced)
      else (s, c)
    let s := (r.1.jobCount r.2).storeDrop (a + 0x30) (leBytes 4 (j.word r.2))
    if j.taskEn then s.advance j.task 1 else s

/-! ### Submission (R315) -/

/-- A job is taken into the queue; while EN is 0 it ends with REFUSED (R341). -/
def State.cipherQueue (s : State) (a : Nat) : State :=
  match s.readCJob a with
  | none => s
  | some j =>
    if !s.rb CIPH_CTL 0 then s.jobEnd j .refused []
    else { s with ciph := { s.ciph with queue := s.ciph.queue ++ [j] } }

/-- CIPH_SUBMIT written with `v` (R315): while the queue is full the fabric holds the write. -/
def State.ciphSubmit (s : State) (by_ : Ini) (v : Word) : State :=
  let a := fld v 29 0 * 64
  if (s.ciph.queue.length < 256 && s.ciph.waiting.isEmpty) || !s.rb CIPH_CTL 0 then s.cipherQueue a
  else
    let s := { s with ciph := { s.ciph with waiting := s.ciph.waiting ++ [(iniIdx by_, a)] } }
    match by_ with
    | .wick c => s.setCore c.val { s.core c.val with fstHeld := some (CIPH_SUBMIT, v.toNat) }
    | .lantern k => s.setCore (64 + k.val) { s.core (64 + k.val) with fstHeld := some (CIPH_SUBMIT, v.toNat) }
    | _ => s

/-- The oldest held CIPH_SUBMIT write is performed if the queue has room. -/
def State.cipherAdmitOne (s : State) : State :=
  match s.ciph.waiting with
  | [] => s
  | (who, a) :: rest =>
    if 256 ≤ s.ciph.queue.length && s.rb CIPH_CTL 0 then s
    else ({ s with ciph := { s.ciph with waiting := rest } }.heldDone who).cipherQueue a

/-- Held CIPH_SUBMIT writes are performed while the queue has room (R315). -/
def State.cipherAdmitWrite (s : State) : State := s.ciph.waiting.foldl (fun s _ => s.cipherAdmitOne) s

/-- CIPH_SUBMIT (R315). -/
def execCiphSubmit (t : Nat) (by_ : Ini) (v : Word) (s : State) : Out :=
  s.access t CIPH_SUBMIT by_ (fun _ => false) fun s => s.ciphSubmit by_ v

/-! ### Lanes (R314, R317) -/

/-- The verification job of a received frame (R165, R200): its key, its lengths. -/
def State.frameJob (s : State) (i : Nat) : Option CJob :=
  match s.rxFrame i with
  | none => none
  | some f =>
    if f.stage = .cipher && f.whole then
      let ref := if f.beacon then (false, s.rf LANT_BCN_CTL 10 0) else s.keyrefOf f.keyref f.epoch
      some {
        src := .frame i, cls := 2, op := 6, keyRec := ref.1, key := ref.2, epoch := f.epoch
        tlen := micLen f.hdr, nlen := 13, adlen := 14, len := f.length, iv := [] }
    else none

/-- The jobs that head their class, in the order of R314, each with whether it stands in the submit queue. [DEDUCED,
assumption 71] -/
def State.cipherHeads (s : State) : List CJob :=
  let sub := fun (c : Nat) => (s.ciph.queue.find? fun j => j.cls = c).toList
  sub 1 ++ (s.ciph.frames.findSome? s.frameJob).toList ++ sub 3

/-- A job leaves the queue or the pending table. -/
def State.cipherTake (s : State) (j : CJob) : State :=
  match j.src with
  | .inline => s
  | .frame i => { s with ciph := { s.ciph with frames := s.ciph.frames.filter fun x => x != i } }
  | .desc _ => ({ s with ciph := { s.ciph with queue := s.ciph.queue.erase j } }).cipherAdmitWrite

/-- A job whose lane is free: its key is resolved and counted, and it starts or ends (R314, R321, R325). [DEDUCED,
assumption 71] -/
def State.cipherStart (s : State) (j : CJob) (l : Nat) : State :=
  let s := s.cipherTake j
  let miss := s.keyMiss j.keyRec j.key j.epoch
  match s.resolve j.keyRec j.key j.epoch with
  | (s, .error c) => s.jobEnd j c []
  | (s, .ok k) =>
    match s.useKey k j.encrypts with
    | (s, .error c) => s.jobEnd j c []
    | (s, .ok g) =>
      let x := s.slot k
      let j := { j with
        lane := l, kslot := k, kgen := x.gen, grace := g
        kdata := (x.key.map fun (y : Key) => y.data).getD [] }
      let j := { j with need := j.work miss (s.reg CIPH_CNT_MISS).toNat }
      let s := ({ s with ciph := { s.ciph with run := s.ciph.run ++ [j] } }).event (32 * 6 + l)
      if j.cls = 1 then s.event (32 * 6 + 8) else s

/-- JOB_ADMISSION (R314): the first head, in class order, that ends at once or has a lane. -/
def execJobAdmission (t : Nat) (s : State) : Out :=
  s.when t 15 fun s =>
    let s := s.runLanes
    if s.cipherWaits then s
    else
      let pick := s.cipherHeads.findSome? fun j =>
        if s.cipherRefuses || !s.rb CIPH_CTL 0 then some (j, some Code.refused, 0)
        else if !j.valid then some (j, some Code.badArgument, 0)
        else (s.cipherLane (j.cls == 1) j.hold).map fun l => (j, none, l)
      match pick with
      | none => s
      | some (j, some c, _) => (s.cipherTake j).jobEnd j c []
      | some (j, none, l) => s.cipherStart j l

/-! ### Modes (R313, R320) -/

/-- What a job gives for its input: associated data, payload and tag. -/
def CJob.result (j : CJob) (ad p tag : List Nat) : Except Code (List Nat) :=
  let key := natsOf j.kdata
  let iv := natsOf j.iv
  match j.op with
  | 0 => .ok (cbcEnc key iv (blocks16 p)).flatten
  | 1 => .ok (cbcDec key iv (blocks16 p)).flatten
  | 2 => .ok (cfbEnc key iv (blocks16 p)).flatten
  | 3 => .ok (cfbDec key iv (blocks16 p)).flatten
  | 4 => .ok (ctrMode key (beVal iv) (blocks16 p)).flatten
  | 5 => .ok (ccmSeal key (iv.take j.nlen) ad p j.tlen)
  | 6 => match ccmOpen key (iv.take j.nlen) ad p tag with
    | some q => .ok q
    | none => .error .tagFail
  | 7 => .ok ((cmac key p).take j.tlen)
  | _ => if (cmac key p).take j.tlen = tag then .ok [] else .error .tagFail

/-- A finished job's result, its input read from memory or from its frame. -/
def State.jobResult (s : State) (j : CJob) : Except Code (List Byte) :=
  match j.src with
  | .inline => .error .keyGone
  | .frame i =>
    (match s.rxFrame i with
    | none => .error .keyGone
    | some f =>
      match f.openWith (natsOf j.kdata) with
      | some p => .ok p
      | none => .error .tagFail)
  | .desc _ =>
    let n := j.adIn + j.len + j.tagIn
    match (if n = 0 then some [] else s.load j.inA n) with
    | none => .error .fenced
    | some b =>
      let x := natsOf b
      (j.result (x.take j.adIn) ((x.drop j.adIn).take j.len) (x.drop (j.adIn + j.len))).map bytesNat

/-- A finished job of lane `l` with mode `op` completes: the oldest one; nothing while none has finished. -/
def State.modeDone (s : State) (l op : Nat) : State :=
  let s := s.runLanes
  if !s.inService (0x28 + l) then s
  else
    match s.ciph.run.find? fun j => j.lane = l && j.op = op && j.need == 0 && j.src != .inline with
    | none => s
    | some j =>
      match s.jobResult j with
      | .ok out => s.jobEnd j .ok out
      | .error c => s.jobEnd j c []

/-- CBC_ENCRYPT (R313). -/
def execCbcEncrypt (t : Nat) (l : Fin 4) (s : State) : Out := s.when t 15 fun s => s.modeDone l.val 0
/-- CBC_DECRYPT (R313). -/
def execCbcDecrypt (t : Nat) (l : Fin 4) (s : State) : Out := s.when t 15 fun s => s.modeDone l.val 1
/-- CFB_ENCRYPT (R313). -/
def execCfbEncrypt (t : Nat) (l : Fin 4) (s : State) : Out := s.when t 15 fun s => s.modeDone l.val 2
/-- CFB_DECRYPT (R313). -/
def execCfbDecrypt (t : Nat) (l : Fin 4) (s : State) : Out := s.when t 15 fun s => s.modeDone l.val 3
/-- CTR (R313). -/
def execCtr (t : Nat) (l : Fin 4) (s : State) : Out := s.when t 15 fun s => s.modeDone l.val 4
/-- CCM_ENCRYPT (R313). -/
def execCcmEncrypt (t : Nat) (l : Fin 4) (s : State) : Out := s.when t 15 fun s => s.modeDone l.val 5
/-- CCM_DECRYPT (R313, R320). -/
def execCcmDecrypt (t : Nat) (l : Fin 4) (s : State) : Out := s.when t 15 fun s => s.modeDone l.val 6
/-- CMAC_GENERATE (R313). -/
def execCmacGenerate (t : Nat) (l : Fin 4) (s : State) : Out := s.when t 15 fun s => s.modeDone l.val 7
/-- CMAC_VERIFY (R313, R320). -/
def execCmacVerify (t : Nat) (l : Fin 4) (s : State) : Out := s.when t 15 fun s => s.modeDone l.val 8

/-! ### Withdrawal and fencing -/

/-- CIPH_ABORT written with `v` (R319). -/
def State.ciphAbort (s : State) (by_ : Ini) (v : Word) : State :=
  let a := fld v 29 0 * 64
  let s := s.runLanes
  let has := fun (j : CJob) => j.src == .desc a
  if !(s.ciph.queue.any has || s.ciph.run.any has) then s.result by_ CIPH_ABORT_RES .tooLate
  else
    let s := { s with ciph := { s.ciph with
      queue := s.ciph.queue.filter fun j => !has j
      run := s.ciph.run.filter fun j => !has j } }
    (s.result by_ CIPH_ABORT_RES .ok).cipherAdmitWrite

/-- CIPH_ABORT (R319). -/
def execCiphAbort (t : Nat) (by_ : Ini) (v : Word) (s : State) : Out :=
  s.access t CIPH_ABORT by_ (fun _ => false) fun s => s.ciphAbort by_ v

/-- Every admitted job that `p` picks ends with a code; its latched key and held bytes are gone with it. -/
def State.endJobs (s : State) (p : CJob → Bool) (c : Code) : State :=
  (s.ciph.run.filter p).foldl (fun s j => s.jobEnd j c []) s

/-- Cipher lane `l` is fenced (R26): its jobs end with FENCED. -/
def State.cipherFence (s : State) (l : Nat) : State := (s.runLanes).endJobs (fun j => j.lane = l) .fenced

end Sys2Proof.Machine
end

