-- ==== Sys2Proof/Machine/KeyCmd.lean ====
section
/-! DEFINITION. Key commands and the long operations on key records (R327 to R330), and the engine's control register. -/
namespace Sys2Proof.Machine

/-- KBUF wiped (R329). -/
def State.kbufWipe (s : State) : State := (List.range 8).foldl (fun (s : State) w => s.setReg (CIPH_KBUF w) 0) s

/-- The first `n` bytes of KBUF. [DEDUCED, assumption 79] -/
def State.kbuf (s : State) (n : Nat) : List Byte :=
  ((List.range 8).flatMap fun w => leBytes 4 (s.reg (CIPH_KBUF w)).toNat).take n

/-- KADDR. -/
def State.kaddr (s : State) : Nat := s.rf CIPH_KADDR_HI 3 0 * 2 ^ 32 + (s.reg CIPH_KADDR_LO).toNat

/-- CIPH_KRES of an initiator: the target's generation and the code. -/
def State.keyResult (s : State) (by_ gen : Nat) (c : Code) : State :=
  { s with latches := tabSet s.latches (by_ * 0x10000000000 + CIPH_KRES) (BitVec.ofNat 32 (gen * 256 + c.val)) }

/-- A key command (R329): its gate, and its code with the generation of slot `k` of the answer. -/
def State.keyCmd (s : State) (t : Nat) (by_ : Ini) (k : State → State × Code × Option Nat) : Out :=
  s.access t CIPH_KCMD by_ (fun _ => false) fun s =>
    let s := s.runLanes
    let r := if s.cipherRefuses then (s, Code.refused, none) else k s
    let gen := (r.2.2.map fun j => (r.1.slot j).gen.toNat).getD 0
    (r.1.keyResult (iniIdx by_) gen r.2.1).kbufWipe

/-- TARGET is a firmware slot. -/
def State.fwTarget (s : State) (k : Nat) : Bool := decide (k < s.cacheBase)

/-- A new key in a slot (R327): GEN advances where one was there, USED and GRACE start at 0. [DEDUCED, assumption 74]
-/
def State.putKey (s : State) (k : Nat) (x : Key) : State :=
  let old := s.slot k
  s.setSlot k { key := some { x with used := 0, grace := 0 }, gen := if old.key.isSome then old.gen + 1 else old.gen }

/-- Bytes of the key that KARG asks for. -/
def State.kargLen (s : State) : Nat := if s.rb CIPH_KARG 23 then 32 else 16

/-- A key with KARG's EPOCH and USE. -/
def State.kargKey (s : State) (d : List Byte) : Key :=
  { data := d, epoch := s.rf CIPH_KARG 31 24, kek := s.rb CIPH_KARG 22 }

/-- GENERATE (R329, R337). -/
def execGenerate (t : Nat) (by_ : Ini) (k : BitVec 18) (s : State) : Out :=
  s.keyCmd t by_ fun s =>
    if !s.fwTarget k.toNat then (s, .badArgument, none)
    else
      let d := s.drawBytes s.kargLen
      (d.2.putKey k.toNat (s.kargKey d.1), .ok, some k.toNat)

/-- LOAD_SPLIT (R329): PART 0 stages a component for the slot, PART 1 combines it. -/
def execLoadSplit (t : Nat) (by_ : Ini) (k : BitVec 18) (s : State) : Out :=
  s.keyCmd t by_ fun s =>
    let c := s.kbuf s.kargLen
    if !s.fwTarget k.toNat then (s, .badArgument, none)
    else if !s.rb CIPH_KARG 0 then
      ({ s with ciph := { s.ciph with staged := tabSet s.ciph.staged k.toNat (c, s.clk) } }, .ok, some k.toNat)
    else
      match s.ciph.staged.lookup k.toNat with
      | none => (s, .badArgument, some k.toNat)
      | some (b, at_) =>
        let s := { s with ciph := { s.ciph with staged := tabDel s.ciph.staged k.toNat } }
        if at_ + 1000000000 ≤ s.clk then (s, .badArgument, some k.toNat)
        else
          let d := bytesNat (xorL (natsOf (b ++ List.replicate 32 0)) (natsOf c))
          (s.putKey k.toNat (s.kargKey d), .ok, some k.toNat)

/-- STAGED_COMPONENT_EXPIRY (R329): components staged 1 s ago are wiped. -/
def execStagedComponentExpiry (t : Nat) (s : State) : Out :=
  s.when t 15 fun s =>
    { s with ciph := { s.ciph with
      staged := s.ciph.staged.filter fun (e : Nat × List Byte × Nat) => decide (s.clk < e.2.2 + 1000000000) } }

/-- LOAD_PLAIN (R329, R339). -/
def execLoadPlain (t : Nat) (by_ : Ini) (k : BitVec 18) (s : State) : Out :=
  s.keyCmd t by_ fun s =>
    if s.rb CIPH_CTL 31 then (s, .refused, some k.toNat)
    else if !s.fwTarget k.toNat then (s, .badArgument, none)
    else (s.putKey k.toNat (s.kargKey (s.kbuf s.kargLen)), .ok, some k.toNat)

/-- The key-encryption key that KARG names, or the code of what is wrong with it (R321, R323). [DEDUCED, assumption
75] -/
def State.kekOf (s : State) : Except Code (List Byte) :=
  let k := s.rf CIPH_KARG 10 0
  if !s.fwTarget k then .error .badArgument
  else
    match (s.slot k).key with
    | none => .error .keyGone
    | some x => if x.kek && x.data.length = 32 then .ok x.data else .error .badArgument

/-- UNWRAP (R323, R329). -/
def execUnwrap (t : Nat) (by_ : Ini) (k : BitVec 18) (s : State) : Out :=
  s.keyCmd t by_ fun s =>
    if !s.fwTarget k.toNat then (s, .badArgument, none)
    else
      match s.load s.kaddr 64 with
      | none => (s, .fenced, some k.toNat)
      | some b =>
        let root := s.rootOf (fld (halfWord b 0) 20 20)
        let wk : Except Code (List Byte) := if s.rb CIPH_KARG 11 then
            (match root with
            | some r => .ok r
            | none => .error .keyGone)
          else s.kekOf
        match wk with
        | .error c => (s, c, some k.toNat)
        | .ok w =>
          if !bit (halfWord b 0) 23 then (s, .keyGone, some k.toNat)
          else
            match unwrapHalf w b with
            | none => (s.bump CIPH_CNT_UNWRAP_FAIL, .keyGone, some k.toNat)
            | some x => (s.putKey k.toNat { x with limit := min (2 ^ 28) x.limit }, .ok, some k.toNat)

/-- WRAP_OUT (R323, R324, R329). -/
def execWrapOut (t : Nat) (by_ : Ini) (k : BitVec 18) (s : State) : Out :=
  s.keyCmd t by_ fun s =>
    if !s.fwTarget k.toNat then (s, .badArgument, none)
    else
      match (s.slot k.toNat).key with
      | none => (s, .keyGone, some k.toNat)
      | some x =>
        let byRoot := s.rb CIPH_KARG 11
        let wk : Except Code (List Byte) := if byRoot then
            (match s.ciph.root with
            | some r => if 2 ^ 28 ≤ s.ciph.rootUses then .error .keySpent else .ok r
            | none => .error .keyGone)
          else s.kekOf
        match wk with
        | .error c => (s, c, some k.toNat)
        | .ok w =>
          let n := s.drawBytes 8
          let s := if byRoot then { n.2 with ciph := { n.2.ciph with rootUses := n.2.ciph.rootUses + 1 } } else n.2
          match s.store s.kaddr (wrapHalf w x (if byRoot then s.rootPar else 0) n.1) with
          | some s => (s, .ok, some k.toNat)
          | none => (s, .fenced, some k.toNat)

/-- A slot is zeroised, and every job that latched it ends with KEY_GONE (R328). [DEDUCED, assumption 77] -/
def State.eraseSlot (s : State) (k : Nat) : State :=
  let s := s.setSlot k { gen := (s.slot k).gen + 1 }
  let s := { s with ciph := { s.ciph with lru := s.ciph.lru.filter fun j => j != k } }
  s.endJobs (fun j => j.kslot = k) .keyGone

/-- ERASE (R328). -/
def execErase (t : Nat) (by_ : Ini) (k : BitVec 18) (s : State) : Out :=
  s.keyCmd t by_ fun s =>
    if !s.fwTarget k.toNat then (s, .badArgument, none) else (s.eraseSlot k.toNat, .ok, some k.toNat)

/-- The half that KARG names. -/
def State.kargHalf (s : State) : Nat := s.rf CIPH_KARG 29 29

/-- The slot a command acts on: the target slot, or the cache slot of the record's half with KARG[31]. -/
def State.keyTarget (s : State) (k : Nat) : State × Except Code Nat :=
  if s.rb CIPH_KARG 31 then s.fetchHalf k s.kargHalf else (s, s.fwSlot k)

/-- SET_LIMIT (R325, R329): LIMIT is only lowered; of a record, in the cache and in DRAM. -/
def execSetLimit (t : Nat) (by_ : Ini) (k : BitVec 18) (s : State) : Out :=
  s.keyCmd t by_ fun s =>
    let lim := s.rf CIPH_KARG 28 0
    match s.keyTarget k.toNat with
    | (s, .error c) => (s, c, none)
    | (s, .ok j) =>
      let x := s.slot j
      match x.key with
      | none => (s, .keyGone, some j)
      | some key =>
        if lim = 0 || key.limit < lim then (s, .badArgument, some j)
        else
          let s := s.setSlot j { x with key := some { key with limit := lim } }
          match x.half with
          | none => (s, .ok, some j)
          | some (r, h) =>
            match s.store (s.halfAddr r h + 8) (leBytes 4 lim) with
            | some s => (s, .ok, some j)
            | none => (s, .fenced, some j)

/-- STATUS (R329): KINFO0 and KINFO1 of the initiator are filled. -/
def execKeyStatus (t : Nat) (by_ : Ini) (k : BitVec 18) (s : State) : Out :=
  s.keyCmd t by_ fun s =>
    match s.keyTarget k.toNat with
    | (s, .error c) => (s, c, none)
    | (s, .ok j) =>
      let x := s.slot j
      match x.key with
      | none => (s, .keyGone, some j)
      | some key =>
        let info := key.epoch * 2 ^ 24 + x.gen.toNat * 2 ^ 16 + (key.data.length / 32) * 2 ^ 15 + key.kek.toNat * 2 ^ 14
          + key.grace
        ((s.setLatch by_ CIPH_KINFO0 (BitVec.ofNat 32 key.used)).setLatch by_ CIPH_KINFO1 (BitVec.ofNat 32 info), .ok,
          some j)

/-- REC_INVAL (R327): the cached halves of a record are dropped; jobs keep their copies. -/
def execRecInval (t : Nat) (by_ : Ini) (k : BitVec 18) (s : State) : Out :=
  s.keyCmd t by_ fun s =>
    ([0, 1].foldl (fun s h => match s.cached k.toNat h with
      | some j => s.cacheDrop j
      | none => s) s, .ok, none)

/-- REC_ERASE (R328): a half goes from the cache and from DRAM. -/
def execRecErase (t : Nat) (by_ : Ini) (k : BitVec 18) (s : State) : Out :=
  s.keyCmd t by_ fun s =>
    let h := s.kargHalf
    let a := s.halfAddr k.toNat h
    match (s.load a 64).bind fun b => s.store a (leBytes 4 (setFld (halfWord b 0) 23 23 0).toNat) with
    | none => (s, .fenced, none)
    | some s =>
      match s.cached k.toNat h with
      | some j => (s.eraseSlot j, .ok, some j)
      | none => (s, .ok, none)

/-! ### Roots and long operations -/

/-- WNONCE values drawn under root `r`, where it is held already (R324). [DEDUCED, assumption 166] -/
def Ciph.usesOf (c : Ciph) (r : List Byte) : Nat :=
  if c.root = some r then c.rootUses else if c.pend = some r then c.pendUses else 0

/-- ROOT_SET (R324, R329): the root of CONTEXT and BOOT_MEAS, active or pending. -/
def execRootSet (t : Nat) (by_ : Ini) (_k : BitVec 18) (s : State) : Out :=
  s.keyCmd t by_ fun s =>
    let meas := (List.range 8).flatMap fun i => beList 4 (s.reg (SYS_BOOT_MEAS i)).toNat
    let r := bytesNat (kdfRoot (beList 32 Config.kseed) (natsOf (s.kbuf 16) ++ meas))
    if s.rb CIPH_KARG 0 then
      ({ s with ciph := { s.ciph with pend := some r, pendUses := s.ciph.usesOf r } }, .ok, none)
    else
      let s := s.ciph.lru.foldl (fun s j => s.cacheDrop j) s
      ({ s with ciph := { s.ciph with root := some r, rootUses := s.ciph.usesOf r } }, .ok, none)

/-- A key long operation begins, or is refused while one runs (R330). -/
def State.keyOpStart (s : State) (by_ : Ini) (rewrap : Bool) : State × Code × Option Nat :=
  if s.ciph.op.isSome || (rewrap && s.ciph.pend.isNone) then (s, .refused, none)
  else ({ s with ciph := { s.ciph with op := some { rewrap := rewrap, by_ := iniIdx by_ } } }, .inSteps, none)

/-- FLUSH (R326, R330). -/
def execFlush (t : Nat) (by_ : Ini) (_k : BitVec 18) (s : State) : Out :=
  s.keyCmd t by_ fun s => s.keyOpStart by_ false

/-- REWRAP (R330). -/
def execRewrap (t : Nat) (by_ : Ini) (_k : BitVec 18) (s : State) : Out :=
  s.keyCmd t by_ fun s => s.keyOpStart by_ true

/-- A key long operation closes. [DEDUCED, assumption 76] -/
def State.keyOpClose (s : State) (o : KeyOp) (c : Code) : State :=
  (({ s with ciph := { s.ciph with op := none } }).keyResult o.by_ 0 c).pulse (irqNo 8 2)

/-- Cached halves written back, the `n` from the position `k` of the cache slots on; none meets a fenced rank.
[DEDUCED, assumption 77] -/
def State.flushSome (s : State) : Nat → Nat → Option State
  | 0, _ => some s
  | n + 1, k =>
    match (if s.ciph.lru.contains (s.cacheBase + k) then s.keyBack (s.cacheBase + k) else some s) with
    | some s => s.flushSome n (k + 1)
    | none => none

/-- One half moved to the pending root (R330). -/
def State.rewrapHalf (s : State) (k : Nat) : State × Option Code :=
  let a := s.halfAddr (k / 2) (k % 2)
  match s.load a 64 with
  | none => (s, some .fenced)
  | some b =>
    let w0 := halfWord b 0
    if !bit w0 23 || fld w0 20 20 ≠ s.rootPar then (s, none)
    else
      match s.ciph.root, s.ciph.pend with
      | some r, some p =>
        (match unwrapHalf r b with
        | none => (s.bump CIPH_CNT_UNWRAP_FAIL, none)
        | some x =>
          if 2 ^ 28 ≤ s.ciph.pendUses then (s, some .keySpent)
          else
            let n := s.drawBytes 8
            let s := { n.2 with ciph := { n.2.ciph with pendUses := n.2.ciph.pendUses + 1 } }
            match s.store a (wrapHalf p x (1 - s.rootPar) n.1) with
            | some s => (s, none)
            | none => (s, some .fenced))
      | _, _ => (s, none)

/-- `n` halves of a REWRAP. -/
def State.rewrapSome (s : State) : Nat → Nat → State × Option Code
  | 0, _ => (s, none)
  | n + 1, k =>
    match s.rewrapHalf k with
    | (s, some c) => (s, some c)
    | (s, none) => s.rewrapSome n (k + 1)

/-- One step of FLUSH, at most 256 halves, or of REWRAP, at most 128 (R330). -/
def State.keyOpStep (s : State) : State :=
  match s.ciph.op with
  | none => s
  | some o =>
    if o.rewrap then
      match s.rewrapSome 128 o.done with
      | (s, some c) => s.keyOpClose o c
      | (s, none) =>
        let o := { o with done := o.done + 128 }
        if 524288 ≤ o.done then
          let c := s.ciph
          let s := { s with ciph := { c with root := c.pend, pend := none, rootUses := c.pendUses, pendUses := 0 } }
          (s.setRf CIPH_STATUS 25 25 (1 - s.rootPar)).keyOpClose o .ok
        else { s with ciph := { s.ciph with op := some o } }
    else
      let n := min 256 (2048 - s.cacheBase - o.done)
      match s.flushSome n o.done with
      | none => s.keyOpClose o .fenced
      | some s =>
        let o := { o with done := o.done + n }
        if 2048 - s.cacheBase ≤ o.done then s.keyOpClose o .ok
        else { s with ciph := { s.ciph with op := some o } }

/-! ### CIPH_CTL -/

/-- The conditions of approved mode (R339). -/
def State.approvable (s : State) : Bool :=
  s.rb CIPH_STATUS 28 && !s.rb CIPH_STATUS 31 && s.sec.bootOwner && s.rf SEC_TAMPER_CTL 7 2 == 63 && s.rb SEC_TAMPER_CTL 8

/-- Keys and cached halves on the wrong side of a new CACHE_BASE are dropped. [DEDUCED, assumption 78] -/
def State.rebase (s : State) (b : Nat) : State :=
  let lost := s.ciph.slots.filter fun (e : Nat × KeySlot) => (e.1 < b) == e.2.half.isSome
  lost.foldl (fun s e => s.cacheDrop e.1) (s.setRf CIPH_CTL 26 16 b)

/-- CIPH_CTL written with `v` (R339, R341). -/
def State.ciphCtl (s : State) (v : Word) : State :=
  let s := if bit v 31 && !s.rb CIPH_CTL 31 then
      (if s.approvable then s.setRb CIPH_CTL 31 true else s.setRb CIPH_STATUS 29 true)
    else s
  let s := if s.rb CIPH_CTL 0 then s else s.rebase (max 2 (min 2046 (fld v 26 16)))
  s.setRb CIPH_CTL 0 (bit v 0 && (s.krecOk || s.rb CIPH_CTL 0))

/-- CIPHER_ENABLE (R341): a write of CIPH_CTL. -/
def execCipherEnable (t : Nat) (by_ : Ini) (v : Word) (s : State) : Out :=
  s.access t CIPH_CTL by_ (fun _ => false) fun s => s.ciphCtl v

/-- APPROVED_WRITE (R339): CIPH_CTL written with APPROVED 1 and its other fields as they stand. -/
def execApprovedWrite (t : Nat) (by_ : Ini) (s : State) : Out :=
  s.access t CIPH_CTL by_ (fun _ => false) fun s => s.ciphCtl (s.reg CIPH_CTL ||| 0x80000000)

/-- The read-only views of the CIPH registers. -/
def State.ciphView (s : State) (a : Nat) : Option Word :=
  if a = CIPH_STATUS then
    some ((s.reg CIPH_STATUS &&& 0xF2000000) + BitVec.ofNat 32
      (s.ciph.root.isSome.toNat * 2 ^ 27 + s.ciph.pend.isSome.toNat * 2 ^ 26 + s.runLanes.ciph.run.length))
  else if a = CIPH_LANES then
    some (BitVec.ofNat 32 ((List.range 4).foldl (fun b l => if s.inService (0x28 + l) then b + 2 ^ l else b) 0))
  else if a = CIPH_KPROG then some (BitVec.ofNat 32 ((s.ciph.op.map fun o => o.done).getD 0))
  else if CIPH_KBUF 0 ≤ a && a ≤ CIPH_KBUF 7 then some 0
  else none

end Sys2Proof.Machine
end

