-- ==== Sys2Proof/Machine/Snuffer.lean ====
section
/-! DEFINITION. The Snuffer: tamper alarms, attestation, image verification, self-tests and random numbers
(R331 to R339). -/
namespace Sys2Proof.Machine

/-- Everything that R332 zeroises: slots, cache, staged components, roots, latched copies and held bytes. -/
def State.zeroise (s : State) : State :=
  let s := (s.runLanes).endJobs (fun _ => true) .keyGone
  { s with ciph := { s.ciph with
    slots := s.ciph.slots.map fun (e : Nat × KeySlot) => (e.1, { gen := e.2.gen + 1 })
    lru := [], staged := [], root := none, pend := none, rootUses := 0, pendUses := 0 } }

/-- A Snuffer command closes (R342). [DEDUCED, assumption 80] -/
def State.secClose (s : State) (o : SecOp) (c : Code) : State :=
  (({ s with
    sec := { s.sec with op := none }
    latches := tabSet s.latches (o.by_ * 0x10000000000 + SEC_RES) (BitVec.ofNat 32 c.val) }).pulse (irqNo 8 3))

/-- TAMPER_ALARM (R331 to R333): sensor 0 VOLT_HIGH, 1 VOLT_LOW, 2 TEMP_HIGH, 3 TEMP_LOW, 4 GLITCH, 5 MESH, in the bit
order of SEC_TAMPER_STATUS from bit 2. Nothing is watched without VIN, nor by a disabled sensor. -/
def execTamperAlarm (t : Nat) (sensor : Fin 6) (s : State) : Out :=
  let s := s.at t
  let b := 2 + sensor.val
  if !s.board.vinOk || !s.rb SEC_TAMPER_CTL b then .next s
  else
    let s := s.zeroise
    let s := (s.setRb SEC_TAMPER_STATUS b true).bumpFld SEC_TAMPER_STATUS 15 8
    let s := (s.setRb CIPH_STATUS 30 true).wake 10
    let s := match s.ciph.op with
      | some o => s.keyOpClose o .refused
      | none => s
    match s.sec.op with
    | some o => .next (if o.kind = .attest then s.secClose o .refused else s)
    | none => .next s

/-- SEC_ADDR. -/
def State.secAddr (s : State) : Nat := s.rf SEC_ADDR_HI 3 0 * 2 ^ 32 + (s.reg SEC_ADDR_LO).toNat

/-- A Snuffer command begins (R336): one at a time. -/
def State.secStart (s : State) (by_ : Ini) (o : SecOp) : State :=
  if s.sec.op.isSome then s.result by_ SEC_RES .refused
  else ({ s with sec := { s.sec with op := some o } }).result by_ SEC_RES .inSteps

/-- SEC_CMD with OP ATTEST. -/
def State.attestStart (s : State) (by_ : Ini) : State :=
  if s.rb CIPH_STATUS 30 then s.result by_ SEC_RES .refused
  else s.secStart by_ { kind := .attest, by_ := iniIdx by_, total := 30, req := (s.load s.secAddr 64).getD [], base := s.secAddr }

/-- Image length of a VERIFY descriptor. -/
def verLen (d : List Byte) : Nat := (halfWord d 2).toNat
/-- Image address of a VERIFY descriptor. -/
def verAddr (d : List Byte) : Nat := fld (halfWord d 1) 3 0 * 2 ^ 32 + (halfWord d 0).toNat
/-- Steps that hash the image: 32 KiB each. -/
def verHashSteps (d : List Byte) : Nat := (verLen d + 32767) / 32768

/-- SEC_CMD with OP VERIFY. -/
def State.verifyStart (s : State) (by_ : Ini) : State :=
  let d := (s.load s.secAddr 144).getD []
  s.secStart by_ { kind := .verify, by_ := iniIdx by_, total := verHashSteps d + 48, req := d, hash := shaInit }

/-- SEC_CMD with OP SELFTEST. -/
def State.selftestStart (s : State) (by_ : Ini) : State :=
  s.secStart by_ { kind := .selftest false, by_ := iniIdx by_, total := 60 }

/-- SEC_CMD written with `v` (R342). -/
def State.secCmd (s : State) (by_ : Ini) (v : Word) : State :=
  match fld v 31 28 with
  | 1 => s.attestStart by_
  | 2 => s.verifyStart by_
  | 3 => s.selftestStart by_
  | _ => s.result by_ SEC_RES .badArgument

/-- ATTEST (R335). -/
def execAttest (t : Nat) (by_ : Ini) (s : State) : Out := s.access t SEC_CMD by_ (fun _ => false) fun s => s.attestStart by_
/-- VERIFY (R336). -/
def execVerify (t : Nat) (by_ : Ini) (s : State) : Out := s.access t SEC_CMD by_ (fun _ => false) fun s => s.verifyStart by_
/-- SELFTEST (R338). -/
def execSelftest (t : Nat) (by_ : Ini) (s : State) : Out := s.access t SEC_CMD by_ (fun _ => false) fun s => s.selftestStart by_

/-- Bytes 0x00 to 0x7F of a report (R335). -/
def State.report (s : State) (req : List Byte) : List Nat :=
  let le := fun (n v : Nat) => natsOf (leBytes n v)
  le 4 1 ++ le 4 identWord.toNat ++ le 8 Config.serial.toNat ++ natsOf (req.take 64) ++
    ((List.range 8).flatMap fun i => beList 4 (s.reg (SYS_BOOT_MEAS i)).toNat) ++
    le 4 ((s.rb CIPH_CTL 31).toNat + (s.rb CIPH_STATUS 31).toNat * 2 + s.rf SEC_TAMPER_STATUS 15 8 * 256) ++
    List.replicate 12 0

/-- The last step of ATTEST: the report is signed and written. -/
def State.attestEnd (s : State) (o : SecOp) : State :=
  let r := s.report o.req
  let k := s.draw (p256N - 1)
  let sg := ecdsaSign Config.idKey (k.1 + 1) (sha256 r)
  match k.2.store (o.base + 64) (bytesNat (r ++ beList 32 sg.1 ++ beList 32 sg.2)) with
  | some s => s.secClose o .ok
  | none => k.2.secClose o .fenced

/-- What VERIFY finds before it hashes (R336): none when it goes on. -/
def verCheck (d : List Byte) : Option Code :=
  let owner := bit (halfWord d 3) 0
  let h := beVal (sha256 (natsOf ((d.drop 16).take 64)))
  if d.isEmpty then some .fenced
  else if verLen d = 0 || decide (0x8000000 < verLen d) then some .badArgument
  else if owner then
    (match Config.ownerHash with
    | none => some .refused
    | some x => if x = h then none else some .tagFail)
  else if Config.vendorHash = h then none
  else some .tagFail

/-- Whole blocks hashed on. -/
def shaBlocks (h m : List Nat) : List Nat := (pieces 64 m.length m).foldl shaBlock h

/-- What follows the last bytes of an `n`-byte message (FIPS 180-4). -/
def shaPad (n : Nat) : List Nat := [0x80] ++ List.replicate ((119 - n % 64) % 64) 0 ++ beList 8 (8 * n)

/-- The signature of a VERIFY descriptor over a digest. -/
def verSig (d : List Byte) (digest : List Nat) : Bool :=
  let at_ := fun (o : Nat) => beNat ((d.drop o).take 32)
  ecdsaVerify (at_ 0x10) (at_ 0x30) (at_ 0x50) (at_ 0x70) digest

/-- One step of VERIFY (R336). -/
def State.verifyStep (s : State) (o : SecOp) : State :=
  let n := verLen o.req
  let keep := fun (s : State) (o : SecOp) => { s with sec := { s.sec with op := some o } }
  match (if o.done = 0 then verCheck o.req else none) with
  | some c => s.secClose o c
  | none =>
    if o.done < verHashSteps o.req then
      let off := o.done * 32768
      let len := min 32768 (n - off)
      match s.load (verAddr o.req + off) len with
      | none => s.secClose o .fenced
      | some b =>
        let m := natsOf b ++ if off + len = n then shaPad n else []
        let h := shaBlocks o.hash m
        let s := if off + len = n then { s with sec := { s.sec with digest := h.flatMap (beList 4) } } else s
        keep s { o with done := o.done + 1, hash := h }
    else if o.done + 1 < o.total then keep s { o with done := o.done + 1 }
    else s.secClose o (if verSig o.req s.sec.digest then .ok else .tagFail)

/-- One step of the Snuffer's running command; `ok` is what a self-test finds (R335, R336, R338). -/
def State.secStep (s : State) (ok : Bool) : State :=
  match s.sec.op with
  | none => s
  | some o =>
    let next := { s with sec := { s.sec with op := some { o with done := o.done + 1 } } }
    match o.kind with
    | .verify => s.verifyStep o
    | .attest =>
      if o.req.isEmpty then s.secClose o .fenced
      else if o.done + 1 < o.total then next
      else s.attestEnd o
    | .selftest boot =>
      if !ok then
        let s := s.setRb CIPH_STATUS 31 true
        if boot then { s with sec := { s.sec with op := none } } else s.secClose o .refused
      else if o.done + 1 < o.total then next
      else
        let s := s.setRb CIPH_STATUS 28 true
        if boot then { s with sec := { s.sec with op := none } } else s.secClose o .ok

/-- A read of SEC_RNG (R337): 32 free bits, or 0 after a health failure. [DEDUCED, assumption 139] -/
def State.secRng (s : State) : Nat × State := if s.rb CIPH_STATUS 31 then (0, s) else s.draw (2 ^ 32)

/-- SEC_RNG_READ (R337). -/
def execSecRngRead (t : Nat) (by_ : Ini) (s : State) : Out :=
  s.reads t SEC_RNG by_ fun s =>
    let r := s.secRng
    (r.2, BitVec.ofNat 32 r.1)

/-- HEALTH_TEST_FAILURE (R337). -/
def execHealthTestFailure (t : Nat) (s : State) : Out := s.when t 15 fun s => s.setRb CIPH_STATUS 31 true

/-- SEC_TAMPER_CTL written with `v` (R333, R343). -/
def State.tamperCtl (s : State) (v : Word) : State :=
  if s.rb SEC_TAMPER_CTL 8 then s
  else s.setReg SEC_TAMPER_CTL (v &&& 0x1FC)

/-- The read-only views of the SEC registers. -/
def State.secView (s : State) (a : Nat) : Option Word :=
  if a = SEC_PROG then some (BitVec.ofNat 32 ((s.sec.op.map fun o => o.done).getD 0)) else none

end Sys2Proof.Machine
end

