-- ==== Sys2Proof/Machine/Reset.lean ====
section
/-! DEFINITION. Resets, the loss of a power domain's contents, and the boot ROM (R39 to R44, R57, R412, R432 to R434). -/
namespace Sys2Proof.Machine

/-! ### Power domains -/

/-- Registers and latched copies of domain `d` at their reset values. -/
def State.dropRegs (s : State) (d : Nat) : State :=
  { s with
    regs := s.regs.filter fun e => addrDomain e.1 != some d
    latches := s.latches.filter fun e => addrDomain (e.1 % 0x10000000000) != some d }

/-- The shared SRAM banks not in `keep` lose their contents (R416, R417). [DESIGN CHOICE, assumption 17] -/
def State.dropBanks (s : State) (keep : Nat) : State :=
  { s with
    mem := s.mem.filter fun c => !(inSram c.1 && keep / 2 ^ ((c.1 - 0x08000000) / 0x100000) % 2 == 0)
    bg := { s.bg with sramBad := s.bg.sramBad.filter fun g => keep / 2 ^ ((g * 64 - 0x08000000) / 0x100000) % 2 == 1 } }

/-- The contents of domain `d` are lost: it returns as after a cold reset (R412, R423). -/
def State.domLose (s : State) (d : Nat) : State :=
  let s := s.dropRegs d
  if 1 ≤ d ∧ d ≤ 3 then
    let n := d - 1
    let s := if s.pair.lower = n || s.pair.lower + 1 = n then { s with pair := {} } else s
    { s with lamps := tabDel s.lamps n, lens := tabDel s.lens n }
  else if d = 4 then { s with dets := [], ctxs := [], lens := [] }
  else if 5 ≤ d ∧ d ≤ 12 then
    { s with cores := s.cores.filter fun e => !decide (8 * (d - 5) ≤ e.1 ∧ e.1 < 8 * (d - 5) + 8) }
  else
    match d with
    | 13 => { s with cores := s.cores.filter fun e => decide (e.1 < 64), lant := {}, rtags := [], rtagCnt := [], rtagBase := [] }
    | 14 => { s with mant := {} }.holdsEnd
    | 15 => { s with ciph := {}, sec := {} }.holdsEnd
    | 16 => { s with chnd := {} }
    | 17 => { s with emac := [], mdio := none, fwd := {}, tmgr := {}, clu := {} }
    | 18 => { s with mbx := {}, board := { s.board with linkUp := false } }
    | 19 => { s with harts := [(0, { st := .running })] }
    | 20 => { s with pcnt := [], pcntShd := [], pcntFrac := [], loader := none }
    | 21 => s.dropBanks 0
    | 22 => { s with dmc := {}, mem := s.mem.filter fun c => !inDram c.1 }
    | _ => s

/-- Domain `d` takes state `x`. [DESIGN CHOICE, assumption 17] -/
def State.setDom (s : State) (d : Nat) (x : DomSt) : State :=
  { s with pwr := { s.pwr with dom := tabSet s.pwr.dom d x } }

/-- Domain `d` goes OFF. -/
def State.domPowerOff (s : State) (d : Nat) : State := (s.domLose d).setDom d .off

/-- The units of a domain (R458). -/
def domUnits (d : Nat) : List Nat := (List.range 64).filter fun u => isUnit u && unitDomain u == d

/-! ### Resets (R39 to R44) -/

/-- A register whose value a reset keeps while the always-on domain has power: SYS_RESET_CAUSE, SEC_TAMPER_STATUS
(R57, R333). [DEDUCED, assumption 115] -/
def keptAlways (a : Nat) : Bool := a == SYS_RESET_CAUSE || a == SEC_TAMPER_STATUS

/-- What a warm reset keeps of a register beside that: the DMC's configuration (R358), APPROVED, ERROR and the alarm
(R333, R338, R339), and the sensor enables under LOCK. -/
def State.warmReg (s : State) (e : Nat × Word) : Option (Nat × Word) :=
  if e.1 / 0x1000000 = 0x4A && (regFind e.1).any (fun f => f.rw != 0) then some e
  else if e.1 = CIPH_CTL then some (e.1, setBit (regReset CIPH_CTL) 31 (bit e.2 31))
  else if e.1 = CIPH_STATUS then some (e.1, e.2 &&& 0xC0000000)
  else if e.1 = SEC_TAMPER_CTL && s.rb SEC_TAMPER_CTL 8 then some e
  else none

/-- The records of a rank that keeps its training through a warm reset (R447). [DEDUCED, assumption 115] -/
def State.warmRank (s : State) (r : Nat) (trained : Bool) : State :=
  if trained then (s.setMgmt (0x38 + r) 0 true).setDp (0x38 + r) 0 0 false true else s

/-- The functional logic enters reset (R39, R41). What the state keeps: the NOR, fuses, straps and lands, the instant,
and for a warm reset DRAM and shared SRAM. -/
def State.enterReset (s : State) (warm : Bool) : State :=
  let kept := s.regs.filter fun e => keptAlways e.1
  let wf := s.rb PWR_STATUS 4
  let ov := s.rb SYS_SUPPLY 1
  let regs := if warm then s.regs.filterMap fun e => if keptAlways e.1 then some e else s.warmReg e else kept
  let n : State := { State.reset with
    pending := s.pending
    clk := s.clk
    relAt := s.relAt
    freeCtr := s.freeCtr
    regs := regs
    mem := if warm then s.mem else []
    nor := s.nor
    jrn := s.jrn
    bg := if warm then { sramBad := s.bg.sramBad } else {}
    dmc := if warm then { trained0 := s.dmc.trained0, trained1 := s.dmc.trained1, poison := s.dmc.poison,
                          selfRefresh := true } else {}
    board := { s.board with
      held := true
      kind := if warm then .warm else .cold
      linkUp := false
      tempAlert := false } }
  let n := if wf then n.setRb PWR_STATUS 4 true else n
  let n := if ov then n.setRb SYS_SUPPLY 1 true else n
  if warm then (n.warmRank 0 s.dmc.trained0).warmRank 1 s.dmc.trained1 else n

/-- A bit of SYS_RESET_CAUSE set. -/
def State.cause (s : State) (b : Nat) : State := s.setRb SYS_RESET_CAUSE b true

/-- Internal reset is not released before `t`. -/
def State.notBefore (s : State) (t : Nat) : State :=
  { s with board := { s.board with relDue := max s.board.relDue t } }

/-! ### The boot ROM (R432 to R434) -/

/-- What the ROM finds in a header of a control image (R432): none when it is valid. -/
def headerCode (h : List Byte) (svn : Nat) : Option Code :=
  let w := fun (o : Nat) => leNat ((h.drop o).take 4)
  if h.length < 64 || w 0 != 0x48435447 then some .badArgument
  else if w 4 / 256 % 256 ≠ 1 then some .versionMismatch
  else if 64 < w 8 % 256 || w 8 % 256 < svn || w 0x0C % 4096 ≠ 0 || !inSram (w 0x0C) || !inSram (w 0x10)
      || w 0x14 < 64 || 0xC00000 < w 0x14 || !inSram (w 0x0C + w 0x14 + 135)
      || (h.drop 0x18).any (fun b => b != 0) then some .badArgument
  else none

/-- LENGTH of a header. -/
def imgLen (h : List Byte) : Nat := leNat ((h.drop 0x14).take 4)
/-- LOAD of a header. -/
def imgLoad (h : List Byte) : Nat := leNat ((h.drop 0x0C).take 4)
/-- ENTRY of a header. -/
def imgEntry (h : List Byte) : Nat := leNat ((h.drop 0x10).take 4)

/-- The VERIFY descriptor that the ROM makes of an image's address and signature block (R433): KEYSEL follows the owner
key fuse. -/
def romDesc (load : Nat) (block : List Byte) : List Byte :=
  let keysel := (if Config.ownerHash.isSome then 1 else 0) + leNat ((block.drop 4).take 4) / 2 * 2
  leBytes 4 (load % 2 ^ 32) ++ leBytes 4 (load / 2 ^ 32) ++ block.take 4 ++ leBytes 4 (keysel % 2 ^ 32) ++ block.drop 8

/-- SYS_BOOT_STATUS. -/
def State.bootStatus (s : State) (slot : Nat) (c : Code) : State :=
  s.setReg SYS_BOOT_STATUS (BitVec.ofNat 32 (slot * 256 + c.val))

/-- An image of whole bytes `img` (header, body, signature block) is copied to LOAD and verified (R433); on success
BOOT_MEAS is written and hart 0 jumps to ENTRY in machine mode. -/
def State.romVerify (s : State) (slot : Nat) (img : List Byte) : State × Code :=
  let n := imgLen img
  let s := s.storeDrop (imgLoad img) img
  let d := romDesc (imgLoad img) (img.drop n)
  let digest := sha256 (natsOf (((s.load (imgLoad img) (verLen d)).getD [])))
  let c := match verCheck d with
    | some c => c
    | none => if verSig d digest then Code.ok else .tagFail
  let s := s.bootStatus slot c
  if c = .ok then
    let s := (List.range 8).foldl (fun s i =>
      s.setReg (SYS_BOOT_MEAS i) (BitVec.ofNat 32 (beVal ((digest.drop (4 * i)).take 4)))) s
    let s := { s with
      sec := { s.sec with digest, bootOwner := Config.ownerHash.isSome }
      boot := { s.boot with phase := .done }
      mbx := { s.mbx with minor := none }
      harts := tabSet s.harts 0 { st := .running, pc := imgEntry img } }
    (s, c)
  else (s, c)

/-- Bytes of image slot `i` in the NOR: `n` from its start. -/
def State.slotBytes (s : State) (i n : Nat) : List Byte := cellsRead norZero s.nor (0x0100000 + 0x1000000 * i) n

/-- The ROM tries image slot `i`: its header, then its copy. -/
def State.romSlot (s : State) (i : Nat) : State × Code :=
  let h := s.slotBytes i 64
  match headerCode h s.board.svn with
  | some c => (s.bootStatus i c, c)
  | none => s.romVerify i (s.slotBytes i (imgLen h + 136))

/-- The slots in the order in which the ROM takes them: the higher SVN first, A at equal SVN. -/
def State.slotOrder (s : State) : List Nat :=
  let svn := fun (i : Nat) =>
    let h := s.slotBytes i 64
    if (headerCode h s.board.svn).isNone then leNat ((h.drop 8).take 1) + 1 else 0
  if svn 0 < svn 1 then [1, 0] else [0, 1]

/-- BOOT_ROM (R43, R433): what the ROM does once hart 0 has begun to fetch. [DEDUCED, assumption 118] -/
def State.bootRom (s : State) : State :=
  let halt (s : State) : State :=
    { s with boot := { s.boot with phase := .halted }, harts := tabSet s.harts 0 { st := .halted } }
  if s.board.bootSel = 3 then halt s
  else if s.board.bootSel = 1 then
    { s with boot := { phase := .mailbox } }.setRb HIF_MBX_STATUS 0 true
  else
    match s.slotOrder with
    | [a, b] =>
      let x := s.romSlot a
      if x.2 = .ok then x.1
      else
        let y := x.1.romSlot b
        if y.2 = .ok then y.1
        else if s.board.bootSel = 0 then halt y.1
        else { y.1 with boot := { phase := .console } }
    | _ => s

/-! ### What a start reads from the NOR (R444, R445) -/

/-- CRC-32 of `n` bytes of the NOR from `a`, going on from `c`. -/
def norCrc (m : List Host.Cell) (a : Nat) : Nat → Nat → Nat
  | 0, c => c
  | n + 1, c => norCrc m (a + 1) n (crcByte c (cellGet norZero m a).toNat)

/-- Section `i` of the calibration store ends in the CRC-32 of what precedes it (R444). -/
def State.calBad (s : State) (i : Nat) : Bool :=
  let a := 0x0010000 + 0x10000 * i
  norCrc s.nor a 65532 0xFFFFFFFF ^^^ 0xFFFFFFFF != leNat (cellsRead norZero s.nor (a + 65532) 4)

/-- Address of journal sector `k`. -/
def jrnSector (k : Nat) : Nat := 0x2100000 + 0x10000 * k

/-- A little-endian word of the NOR. -/
def State.norWord (s : State) (a : Nat) : Nat := leNat (cellsRead norZero s.nor a 4)

/-- A record begins at `a` of the NOR: its data length. -/
def State.jrnLen (s : State) (a : Nat) : Option Nat :=
  let w := s.norWord a
  if w / 65536 = 0x4A52 ∧ 1 ≤ w % 65536 ∧ w % 65536 ≤ 4080 then some (w % 65536) else none

/-- The scan of a sector from offset `o` (R445): the offset behind the last complete record, and the records passed.
An incomplete record closes the sector. [DESIGN CHOICE, assumption 121] -/
def State.jrnScan (s : State) (k : Nat) : Nat → Nat → Nat → Nat × Nat
  | 0, o, n => (o, n)
  | f + 1, o, n =>
    match s.jrnLen (jrnSector k + o) with
    | none => (o, n)
    | some len =>
      if s.norWord (jrnSector k + o + 12 + len) = 0x0000C0DE then s.jrnScan k f (o + 16 + len) (n + 1)
      else (0x10000, n)

/-- Sectors that have been opened: number and first sequence number. -/
def State.jrnOpened (s : State) : List (Nat × Nat) :=
  (List.range 1520).filterMap fun k =>
    let q := s.norWord (jrnSector k + 4)
    if q = 0xFFFFFFFF then none else some (k, q)

/-- The journal as the start finds it. [DESIGN CHOICE, assumption 121] -/
def State.jrnStart (s : State) : Journal :=
  let l := s.jrnOpened
  let oldest := l.foldl (fun (b : Option (Nat × Nat)) x =>
    match b with | some y => if x.2 < y.2 then some x else b | none => some x) none
  match oldest with
  | none => {}
  | some (k, _) =>
    let last := (k + l.length - 1) % 1520
    let r := s.jrnScan last 4096 16 0
    { first := k, used := l.length, off := r.1, seq := (s.norWord (jrnSector last + 4) + r.2) % 2 ^ 32 }

/-- Internal reset is released (R39, R43, R62, R338): the raw counter starts, the straps are sampled, the stores are
read, and the ROM runs. -/
def State.release (s : State) (strap : BitVec 2) : State :=
  let bad := (List.range 4).foldl (fun n i => n + (s.calBad i).toNat * 2 ^ i) 0
  let s := { s with
    relAt := s.clk
    jrn := s.jrnStart
    dmc := { s.dmc with selfRefresh := false }
    board := { s.board with held := false, bootSel := strap, perstAt := s.clk, softMark := none, locked := true } }
  (s.setReg SYS_CAL_STATUS (BitVec.ofNat 32 bad)).bootRom

end Sys2Proof.Machine
end

