-- ==== Sys2Proof/Machine/Pwr.lean ====
section
/-! DEFINITION. The Lamplighter: Ember entry, the wake order and single domains (R411 to R426). -/
namespace Sys2Proof.Machine

/-- A condition of refusal with its reason code. -/
def refuseIf (c : Bool) (r : Nat) : Option Nat := if c then some r else none

/-- A core from key `k` on, `n` of them, runs. -/
def State.anyRuns (s : State) (k n : Nat) : Bool := (List.range n).any fun i => (s.core (k + i)).st == .running

/-- The reason for which domain `d` refuses to stop (R411); none when it agrees. -/
def State.domRefuses (s : State) (d : Nat) : Option Nat :=
  if 1 ≤ d ∧ d ≤ 3 then refuseIf ((s.lamp (d - 1)).st != .off || !(s.lamp (d - 1)).queue.isEmpty) 1
  else if 5 ≤ d ∧ d ≤ 12 then
    refuseIf (s.anyRuns (8 * (d - 5)) 8
      || s.loader.any (fun l => l.keys.any fun k => decide (8 * (d - 5) ≤ k ∧ k < 8 * (d - 5) + 8))) 1
  else
    match d with
    | 4 => refuseIf ((List.range 3).any (fun n => s.rb (LENS_CTL n) 31) || s.ctxs.any (fun e =>
        e.2.st == .held || e.2.st == .live)) 1
    | 13 => refuseIf (s.anyRuns 64 6) 1 <|> refuseIf s.lant.op.isSome 4
    | 14 => refuseIf (!s.mant.queue.isEmpty || !s.mant.run.isEmpty || !s.mant.store.isEmpty) 1
    | 15 => refuseIf (!s.runLanes.ciph.run.isEmpty) 1 <|> refuseIf (s.ciph.op.isSome || s.sec.op.isSome) 4
        <|> refuseIf (s.ciph.slots.any fun e => e.2.half.isSome && e.2.dirty) 5
    | 16 => refuseIf (s.rb CHND_CTL 0 || s.chnd.descs.any fun e => e.2.st == .running || e.2.st == .preempted) 1
    | 17 => refuseIf ((List.range 5).any (fun p => (List.range 8).any fun q => decide (0 < s.ringAvail (txRing p q)))
        || decide (s.freeCells < 16384)) 1
    | 18 => refuseIf (!s.mbx.opened.isEmpty) 1
    | 22 => refuseIf s.dmc.training.isSome 4
    | _ => none

/-! ### Commands -/

/-- The state with the Lamplighter changed. -/
def State.onPwr (s : State) (f : Pwr → Pwr) : State := { s with pwr := f s.pwr }

/-- A PWR command closes: its initiator's copy of PWR_RES and the interrupt. [DEDUCED, assumption 119] -/
def State.pwrClose (s : State) (c : Code) : State :=
  ((s.resultIdx s.pwr.owner PWR_RES c).pulse (irqNo 1 0)).onPwr fun p =>
    { p with op := none, waking := none, agreed := [], committed := false, wakePending := false }

/-- PWR_RESUME lies in a bank that PWR_RET_MASK retains (R413). -/
def State.resumeOk (s : State) : Bool :=
  let a := (s.reg PWR_RESUME).toNat
  inSram a && s.rb PWR_RET_MASK ((a - 0x08000000) / 0x100000)

/-- The first domain from `d` on that takes part in an entry and runs. -/
def State.nextAsked (s : State) (d : Nat) : Option Nat :=
  ((List.range 23).filter fun x => decide (d ≤ x)).find? fun x => x != 0 && s.domOn x

/-- PWR_CMD with OP EMBER (R413). -/
def State.emberCmd (s : State) (by_ : Ini) : State :=
  if !s.resumeOk then s.result by_ PWR_RES .badArgument
  else if s.pwr.op.isSome then s.result by_ PWR_RES .refused
  else
    (s.result by_ PWR_RES .inSteps).onPwr fun p => { p with
      op := some .ember
      owner := iniIdx by_
      asked := (s.nextAsked 1).getD 22
      askedAt := s.clk
      agreed := []
      committed := false
      wakeDone := false
      wakePending := p.wakeAt == some s.clk }

/-- PWR_CMD with OP DOM_OFF (R423). -/
def State.domOffCmd (s : State) (by_ : Ini) (d : Nat) : State :=
  if d = 0 || 18 < d then s.result by_ PWR_RES .badArgument
  else if s.pwr.op.isSome then s.result by_ PWR_RES .refused
  else if s.dom d = .off then s.result by_ PWR_RES .ok
  else
    (s.result by_ PWR_RES .inSteps).onPwr fun p => { p with
      op := some (.domOff d), owner := iniIdx by_, asked := d, askedAt := s.clk, agreed := [] }

/-- PWR_CMD with OP DOM_ON (R423). -/
def State.domOnCmd (s : State) (by_ : Ini) (d : Nat) : State :=
  if d = 0 || 18 < d then s.result by_ PWR_RES .badArgument
  else if s.pwr.op.isSome then s.result by_ PWR_RES .refused
  else if s.domOn d then s.result by_ PWR_RES .ok
  else
    (s.result by_ PWR_RES .inSteps).onPwr fun p => { p with
      op := some (.domOn d), owner := iniIdx by_, waking := some (100 + d), stepAt := s.clk }

/-- PWR_CMD written (R425). [DEDUCED, assumption 119] -/
def State.pwrCmd (s : State) (by_ : Ini) (v : Word) : State :=
  match fld v 31 28 with
  | 1 => s.emberCmd by_
  | 2 => s.domOffCmd by_ (fld v 4 0)
  | 3 => s.domOnCmd by_ (fld v 4 0)
  | _ => s.result by_ PWR_RES .badArgument

/-- EMBER (R413). -/
def execEmber (t : Nat) (by_ : Ini) (s : State) : Out := s.access t PWR_CMD by_ (fun _ => false) fun s => s.emberCmd by_
/-- DOM_OFF (R423). -/
def execDomOff (t : Nat) (by_ : Ini) (d : BitVec 5) (s : State) : Out :=
  s.access t PWR_CMD by_ (fun _ => false) fun s => s.domOffCmd by_ d.toNat
/-- DOM_ON (R423). -/
def execDomOn (t : Nat) (by_ : Ini) (d : BitVec 5) (s : State) : Out :=
  s.access t PWR_CMD by_ (fun _ => false) fun s => s.domOnCmd by_ d.toNat

/-! ### The handshake (R414 to R416) -/

/-- ROLLBACK (R415): every domain that agreed restarts, and the refusal of domain `d` is accounted. [DEDUCED,
assumption 117] -/
def State.rollback (s : State) (d reason : Nat) : State :=
  let s := s.pwr.agreed.foldl (fun s x => s.setDom x .on) s
  let s := s.setReg PWR_REFUSE (BitVec.ofNat 32 (reason * 256 + d))
  ((s.bumpFld (PWR_DOM_STATUS d) 31 24).bump PWR_CNT_REFUSED).pwrClose .refused

/-- Domain `d` completes its quiescing and stops (R414): LANT writes its changed entries back. -/
def State.domStop (s : State) (d : Nat) : State :=
  let s := if d = 13 then s.nbrFlush else s
  (s.setDom d .stopped).onPwr fun p => { p with agreed := d :: p.agreed }

/-- The domain asked answers: it refuses for `r`, or stops, and the handshake goes on (R414, R416, R423). [DEDUCED,
assumption 117] -/
def State.domAnswer (s : State) (d : Nat) : State :=
  match s.domRefuses d with
  | some r => s.rollback d r
  | none =>
    match s.pwr.op with
    | some .ember =>
      let s := s.domStop d
      match s.nextAsked (d + 1) with
      | some x => s.onPwr fun p => { p with asked := x, askedAt := s.clk }
      | none => s.onPwr fun p => { p with committed := true, askedAt := s.clk }
    | some (.domOff _) =>
      let s := if d = 13 then s.nbrFlush else s
      let s := if 1 ≤ d && d ≤ 3 then s.lampLanterns (d - 1) else s
      let s := s.domPowerOff d
      ((domUnits d).foldl (fun s u => s.asSet u false false) s).pwrClose .ok
    | _ => s

/-- A handshake is in progress. -/
def State.asking (s : State) : Bool :=
  match s.pwr.op with
  | some .ember => !s.pwr.committed && !s.pwr.ember
  | some (.domOff _) => true
  | _ => false

/-- DOMAIN_ANSWER (R411, R414): the domain asked answers. `wfi`: the four harts are in WFI, which domain 19 needs before
it answers at all. -/
def execDomainAnswer (t : Nat) (wfi : Bool) (s : State) : Out :=
  s.when t 0 fun s =>
    if !s.asking then s
    else if s.pwr.wakePending && s.pwr.op == some .ember then s.rollback 0 3
    else if s.pwr.asked = 19 && !wfi then s
    else s.domAnswer s.pwr.asked

/-- DOMAIN_ACK_TIMEOUT (R411). -/
def execDomainAckTimeout (t : Nat) (s : State) : Out :=
  s.when t 0 fun s =>
    if !s.asking || decide (s.clk < s.pwr.askedAt + s.rf PWR_ACK_TIMEOUT 15 0 * 1000) then s
    else if s.pwr.wakePending && s.pwr.op == some .ember then s.rollback 0 3
    else s.rollback s.pwr.asked 2

/-- CRC-32 of shared SRAM bank `b` (R416). -/
def bankCrc (m : List Host.Cell) (a : Nat) : Nat → Nat → Nat
  | 0, c => c
  | n + 1, c => bankCrc m (a + 1) n (crcByte c (cellGet memZero m a).toNat)

/-- Banks retained. -/
def State.retained (s : State) : List Nat := (List.range 16).filter fun b => s.rb PWR_RET_MASK b

/-- EMBER_COMMIT (R416): the banks are signed, the DRAM enters self-refresh, the domains go RET or OFF. -/
def State.emberCommit (s : State) : State :=
  let s := s.retained.foldl (fun s b =>
    s.setReg (PWR_BANK_SIG b) (BitVec.ofNat 32
      (bankCrc s.mem (0x08000000 + b * 0x100000) 0x100000 0xFFFFFFFF ^^^ 0xFFFFFFFF))) s
  let s := ((List.range 21).filter fun d => d != 0).foldl (fun s d => s.domPowerOff d) s
  let s := (s.dropBanks (s.rf PWR_RET_MASK 15 0)).setDom 21 .ret
  let s := { s.setDom 22 .ret with dmc := { s.dmc with selfRefresh := true } }
  let s := s.setDom 23 (if s.rf PWR_WAKE_EN 15 11 = 0 then .off else .on)
  let s := s.onPwr fun p => { p with
    ember := true
    waking := if p.wakePending then some 1 else none
    stepAt := s.clk }
  s

/-- EMBER_ENTERED (R416): the signatures are done, 41 us for each retained bank. -/
def execEmberEntered (t : Nat) (s : State) : Out :=
  s.when t 0 fun s =>
    if s.pwr.op == some .ember && s.pwr.committed && !s.pwr.ember
        && decide (s.pwr.askedAt + s.retained.length * 41000 ≤ s.clk) then s.emberCommit
    else s

/-- WAKE_EVENT (R418): an event of source `b` of PWR_WAKE_EN. -/
def execWakeEvent (t : Nat) (b : Fin 11) (s : State) : Out := s.when t 0 fun s => if b.val = 1 then s else s.wake b.val

/-! ### The wake order (R419 to R422) -/

/-- The domain that a step brings up; none for the rails. -/
def stepDomain (k : Nat) : Option Nat :=
  if k = 1 then none
  else if k ≤ 9 then some (24 - k)
  else some (k - 100)

/-- A step's timeout in ns (R419). -/
def stepTimeout (k : Nat) : Nat :=
  match k with
  | 1 => 2000000
  | 2 => 200000
  | 3 => 2000000
  | 4 => 10000
  | 5 => 10000
  | 7 => 500000
  | 117 => 500000
  | _ => 50000

/-- The step that follows in a wake; none after domain 1. -/
def stepAfter (k : Nat) : Option Nat :=
  if k < 9 then some (k + 1) else if k = 9 then some 114 else if k = 101 then none else some (k - 1)

/-- Retained banks whose recomputed signature does not match are cleared and reported (R421). [DESIGN CHOICE,
assumption 120] -/
def State.banksLost (s : State) (lost : Nat) : State :=
  let l := s.retained.filter fun b => lost / 2 ^ b % 2 == 1
  let s := s.dropBanks (65535 - l.foldl (fun n b => n + 2 ^ b) 0)
  l.foldl (fun s b => s.setRb PWR_BANK_LOST b true) s

/-- Hart 0 starts after a wake (R422). [DEDUCED, assumption 118] -/
def State.wakeBoot (s : State) : State :=
  let a := (s.reg PWR_RESUME).toNat
  let s := s.setRb PWR_STATUS 3 true
  if s.rb PWR_BANK_LOST ((a - 0x08000000) / 0x100000) then s.bootRom
  else { s with boot := { phase := .done }, harts := tabSet s.harts 0 { st := .running, pc := a } }

/-- A domain is ON again; `lost` tells the SRAM step which retained banks have changed. -/
def State.domReady (s : State) (d lost : Nat) : State :=
  let s := s.setDom d .on
  match d with
  | 22 => { s with dmc := { s.dmc with selfRefresh := false } }
  | 21 => s.banksLost lost
  | 19 => if s.pwr.op = some .ember then s.wakeBoot else s
  | 18 => { s with pwr := { s.pwr with wakeN := false }, board := { s.board with perstAt := s.clk } }
  | _ => s

/-- The next step of a wake begins, or the wake is done (R419). -/
def State.wakeNext (s : State) (k : Nat) : State :=
  match stepAfter k with
  | some x => s.onPwr fun p => { p with waking := some x, stepAt := s.clk }
  | none =>
    ((s.onPwr fun p => { p with ember := false, wakeDone := true }).bump PWR_CNT_EMBER).pwrClose .ok

/-- WAKE_STEP_READY (R419, R421 to R423): the step under way gives its ready signal. -/
def execWakeStepReady (t : Nat) (lost : BitVec 16) (s : State) : Out :=
  s.when t 0 fun s =>
    match s.pwr.op, s.pwr.waking with
    | some .ember, some k =>
      let s := match stepDomain k with
        | some d => s.domReady d lost.toNat
        | none => s
      let s := if k = 5 then s.onPwr fun p => { p with ember := false } else s
      s.wakeNext k
    | some (.domOn d), some _ =>
      ((domUnits d).foldl (fun s u => s.asSet u true true) (s.domReady d 0)).pwrClose .ok
    | _, _ => s

/-- Domain `d` missed its timeout: it stays OFF (R420). -/
def State.domFailed (s : State) (d : Nat) : State :=
  let s := s.domPowerOff d
  let s := s.setRb (PWR_DOM_STATUS d) 2 true
  let s := if d = 21 then s.retained.foldl (fun s b => s.setRb PWR_BANK_LOST b true) s else s
  if d = 22 then (s.fenceRankHw 0).fenceRankHw 1 else s

/-- A supply fault (R38): PWR_GOOD falls and a cold reset follows. -/
def State.supplyFault (s : State) : State :=
  let s := { s with board := { s.board with pwrGood := false } }.enterReset false
  (s.cause 4).setRb SYS_SUPPLY 3 true

/-- WAKE_STEP_TIMEOUT (R420, R423). -/
def execWakeStepTimeout (t : Nat) (s : State) : Out :=
  s.when t 0 fun s =>
    match s.pwr.op, s.pwr.waking with
    | some op, some k =>
      if s.clk < s.pwr.stepAt + stepTimeout k then s
      else
        match op, stepDomain k with
        | .domOn d, _ =>
          let e := fun (s : State) (u : Nat) =>
            let x := s.nextEpoch u
            (s.setMgmt u x true).setFailed u x 3
          ((domUnits d).foldl e (s.domFailed d)).pwrClose .fenced
        | _, none => s.supplyFault
        | _, some d =>
          if k = 4 || k = 5 then (s.enterReset false).setRb PWR_STATUS 4 true
          else
            let s := s.domFailed d
            ((domUnits d).foldl (fun s u => s.hwChange u 2 false) s).wakeNext k
    | _, _ => s

/-- The bits of a domain's state (R412). -/
def domBits : DomSt → Nat
  | .on => 0 | .stopped => 1 | .ret => 2 | .off => 3

/-- The read-only views of the PWR registers. -/
def State.pwrView (s : State) (a : Nat) : Option Word :=
  if a = PWR_STATUS then
    some (BitVec.ofNat 32 ((s.reg a).toNat + s.pwr.wakeDone.toNat * 4 + s.pwr.ember.toNat * 2 + s.pwr.op.isSome.toNat))
  else if a = PWR_DOM_ON then
    some (BitVec.ofNat 32 ((List.range 24).foldl (fun n d => n + (s.domOn d).toNat * 2 ^ d) 0))
  else if 0x41000100 ≤ a ∧ a < 0x41000160 then
    some (setFld (s.reg a) 1 0 (domBits (s.dom ((a - 0x41000100) / 4))))
  else none

end Sys2Proof.Machine
end

