-- ==== Sys2Proof/Machine/Board.lean ====
section
/-! DEFINITION. Supply, resets, lands, reference, temperature and the boundary-scan TAP (R34 to R61). -/
namespace Sys2Proof.Machine

/-- The state with the board changed. [DEDUCED, assumption 114] -/
def State.onBoard (s : State) (f : Board → Board) : State := { s with board := f s.board }

/-! ### Supply (R34, R35, R38, R57) -/

/-- The pass transistor turns off: every domain loses power, the always-on domain too (R57). What is held while VIN
stays present stays: the hot-swap controller's records, SEC_TAMPER_STATUS and WAKE_FAIL_CORE (R57, R59, R333, R425).
[DEDUCED, assumption 114] -/
def State.losePower (s : State) : State :=
  ((s.onBoard fun b => { b with
    passOn := false, pwrGood := false, thermalHold := false
    tap := .idcode, boundary := [], tapDirty := false }).enterReset false).setReg
    SYS_RESET_CAUSE (regReset SYS_RESET_CAUSE)

/-- The pass transistor turns on where VIN, HS_EN and the controller allow, and soft start begins: a power-on clears
every field of SYS_RESET_CAUSE and sets POWER_ON, and BREAKER again from the controller's record (R34, R35, R57). -/
def State.passTry (s : State) : State :=
  let b := s.board
  if b.vinOk && b.hsEn && !b.overVolt && b.breakerAt.isNone && !b.passOn then
    let s := (s.enterReset false).onBoard fun b => { b with passOn := true, pwrGood := false, thermalHold := false }
    s.setReg SYS_RESET_CAUSE (if s.board.breakerRec then 0x41 else 1)
  else s

/-- VIN_RISE (R34, R57): VIN rises through lock-out; `fromAbsent` says that VIN had been absent, which ends the hot-swap
controller's records. -/
def execVinRise (t : Nat) (fromAbsent : Bool) (s : State) : Out :=
  let s := s.at t
  if s.board.vinOk then .next s
  else
    let s := s.onBoard fun b =>
      { b with vinOk := true, breakerRec := b.breakerRec && !fromAbsent, breakerAt := if fromAbsent then none else b.breakerAt }
    let s := if fromAbsent then { s with regs := [] } else s
    .next s.passTry

/-- VIN_LOCKOUT_FALL (R34). -/
def execVinLockoutFall (t : Nat) (s : State) : Out :=
  let s := (s.at t).onBoard fun b => { b with vinOk := false }
  .next (if s.board.passOn then s.losePower else s)

/-- POWER_FAIL_WARNING (R59): WARN is set, and a wake source with it (R418). -/
def execPowerFailWarning (t : Nat) (s : State) : Out := s.when t 0 fun s => (s.setRb SYS_SUPPLY 2 true).wake 8

/-- OVERVOLTAGE_SHUTOFF (R34, R59). -/
def execOvervoltageShutoff (t : Nat) (s : State) : Out :=
  let s := (s.at t).onBoard fun b => { b with overVolt := true }
  let s := if s.board.passOn then s.losePower else s
  .next (s.setRb SYS_SUPPLY 1 true)

/-- OVERVOLTAGE_RELEASE (R34, R57). -/
def execOvervoltageRelease (t : Nat) (s : State) : Out :=
  let s := s.at t
  if s.board.overVolt then .next (s.onBoard fun b => { b with overVolt := false }).passTry else .next s

/-- BREAKER_TRIP (R35). -/
def execBreakerTrip (t : Nat) (s : State) : Out :=
  let s := s.at t
  if !s.board.passOn then .next s
  else
    let s := s.losePower.onBoard fun b => { b with breakerAt := some s.clk, breakerRec := true }
    .next (s.cause 6)

/-- BREAKER_RETRY (R35): the retry interval of at least 0.9 s is over. -/
def execBreakerRetry (t : Nat) (s : State) : Out :=
  let s := s.at t
  match s.board.breakerAt with
  | some a => if a + 900000000 ≤ s.clk then .next (s.onBoard fun b => { b with breakerAt := none }).passTry else .next s
  | none => .next s

/-- HS_EN_LOW (R34). -/
def execHsEnLow (t : Nat) (s : State) : Out :=
  let s := (s.at t).onBoard fun b => { b with hsEn := false }
  .next (if s.board.passOn then s.losePower else s)

/-- HS_EN_RISE (R34). -/
def execHsEnRise (t : Nat) (s : State) : Out := .next ((s.at t).onBoard fun b => { b with hsEn := true }).passTry

/-- PWR_GOOD_RISE (R38, R39): the last rail comes into regulation; `ref` says that the reference is present. -/
def execPwrGoodRise (t : Nat) (ref : Bool) (s : State) : Out :=
  let s := s.at t
  if !s.board.passOn || s.board.pwrGood || s.board.thermalHold then .next s
  else
    let s := s.onBoard fun b => { b with pwrGood := true, pwrGoodAt := s.clk, refOk := ref, refAbsent := false }
    .next (s.notBefore (s.clk + 500000))

/-- SUPPLY_FAULT (R38): a rail leaves regulation. -/
def execSupplyFault (t : Nat) (s : State) : Out :=
  let s := s.at t
  if s.board.passOn && s.board.pwrGood then .next s.supplyFault else .next s

/-- REFERENCE_ABSENT_TIMEOUT (R39): 100 ms after PWR_GOOD. -/
def execReferenceAbsentTimeout (t : Nat) (s : State) : Out :=
  let s := s.at t
  let b := s.board
  if b.held && b.pwrGood && !b.refOk && decide (b.pwrGoodAt + 100000000 ≤ s.clk) then
    .next (s.onBoard fun b => { b with refAbsent := true })
  else .next s

/-! ### Resets (R39, R40, R43, R58) -/

/-- A TAP instruction that holds the functional logic in reset (R56). [DEDUCED, assumption 116] -/
def TapInstr.tests : TapInstr → Bool
  | .extest | .clamp | .highz => true
  | _ => false

/-- INTERNAL_RESET_RELEASE (R39, R43): BOOT_SEL reads `strap`. -/
def execInternalResetRelease (t : Nat) (strap : BitVec 2) (s : State) : Out :=
  let s := s.at t
  let b := s.board
  if b.held && b.pwrGood && b.resetN && b.refOk && !b.thermalHold && !b.tapDirty && decide (b.relDue ≤ s.clk) then
    .next (s.release strap)
  else .next s

/-- RESET_N_ASSERT (R40, R44, R56, R57): RESET_N has been low for `low` ns; `takes` decides between 200 ns and 1 us. -/
def execResetNAssert (t : Nat) (low : Nat) (takes : Bool) (s : State) : Out :=
  let s := s.at t
  if low < 200 || (low < 1000 && !takes) then .next s
  else if !s.board.passOn then .next (s.onBoard fun b => { b with resetN := false })
  else
    let soft := match s.board.softMark with
      | some (at_, m) => if at_ = s.clk then m else 0
      | none => 0
    let tap := s.board.tapDirty
    let s := s.enterReset false
    let s := s.setReg SYS_RESET_CAUSE (s.reg SYS_RESET_CAUSE &&& ~~~soft)
    let s := s.cause 1
    let s := if tap then s.cause 7 else s
    .next (s.onBoard fun b => { b with resetN := false, tapDirty := b.tap.tests, softMark := none })

/-- RESET_N_RISE (R40): internal reset is released 0.5 ms later. -/
def execResetNRise (t : Nat) (s : State) : Out :=
  let s := s.at t
  if s.board.resetN then .next s
  else .next ((s.onBoard fun b => { b with resetN := true }).notBefore (s.clk + 500000))

/-- A keyed write of SYS_RESET_CTRL (R58): COLD wins over WARM. The mark serves R44's meeting with RESET_N. [DEDUCED,
assumption 116] -/
def State.resetCtrl (s : State) (v : Word) : State :=
  if fld v 31 16 ≠ 0x5A3C then s
  else
    let go (s : State) (b : Nat) (warm : Bool) : State :=
      let had := s.rb SYS_RESET_CAUSE b
      let s := (s.enterReset warm).cause b
      s.onBoard fun x => { x with softMark := some (s.clk, if had then 0 else BitVec.ofNat 32 (2 ^ b)) }
    if bit v 0 then go s 2 false
    else if bit v 1 then go s 3 true
    else s

/-- SOFT_COLD (R58): SYS_RESET_CTRL written with KEY and COLD; WARM may stand beside it. -/
def execSoftCold (t : Nat) (by_ : Ini) (warm : Bool) (s : State) : Out :=
  s.access t SYS_RESET_CTRL by_ (fun _ => false) fun s => s.resetCtrl (BitVec.ofNat 32 (0x5A3C0001 + 2 * warm.toNat))

/-- SOFT_WARM (R58): SYS_RESET_CTRL written with KEY and WARM. -/
def execSoftWarm (t : Nat) (by_ : Ini) (s : State) : Out :=
  s.access t SYS_RESET_CTRL by_ (fun _ => false) fun s => s.resetCtrl 0x5A3C0002

/-! ### PCIe lands (R42, R437) -/

/-- PERST_FALL (R42, R418, R437): the endpoint and the mailbox reset, READY clears and both rings empty. -/
def execPerstFall (t : Nat) (s : State) : Out :=
  let s := (s.at t).onBoard fun b => { b with perstN := false, linkUp := false }
  if s.board.held then .next s
  else
    let s := s.wake 7
    if !s.domOn 18 then .next s
    else
      let s := s.setReg HIF_MBX_STATUS 0
      let s := (s.setReg HIF_MBX_CMD_IDX 0).setReg HIF_MBX_RSP_IDX 0
      .next ({ s with mbx := { s.mbx with minor := none, opened := [], out := [] } }.pulse (irqNo 14 2))

/-- The endpoint answers configuration requests: 100 ms after the later of PERST_N's rise and the release of internal reset
at the latest (R42). -/
def State.answersConfig (s : State) : Bool :=
  s.board.perstN && !s.board.held && s.domOn 18 && (s.board.linkUp || decide (s.board.perstAt + 100000000 ≤ s.clk))

/-- PERST_RISE (R42). -/
def execPerstRise (t : Nat) (s : State) : Out :=
  let s := s.at t
  .next (s.onBoard fun b => { b with perstN := true, perstAt := if b.perstN then b.perstAt else s.clk })

/-- PCIE_LINK_CHANGE (R42, R455): the link comes up after training, or goes down. -/
def execPcieLinkChange (t : Nat) (up : Bool) (s : State) : Out :=
  s.when t 18 fun s =>
    if s.board.linkUp == up || (up && !s.board.perstN) then s
    else (s.onBoard fun b => { b with linkUp := up }).pulse (irqNo 14 3)

/-! ### Temperature (R46, R47, R60) -/

/-- ALERT_SET in 1/16 degree. -/
def State.alertSet (s : State) : Int := sfld (s.reg SYS_THERMAL) 31 24 * 16

/-- TEMP_ALERT_SET (R46): the lid is at `temp`, in 1/16 degree. -/
def execTempAlertSet (t : Nat) (temp : Int) (s : State) : Out :=
  s.when t 0 fun s =>
    if s.board.tempAlert || decide (temp < s.alertSet) then s
    else ((s.onBoard fun b => { b with tempAlert := true }).pulse (irqNo 0 2)).wake 9

/-- TEMP_ALERT_CLEAR (R46). -/
def execTempAlertClear (t : Nat) (temp : Int) (s : State) : Out :=
  s.when t 0 fun s =>
    if !s.board.tempAlert || decide (s.alertSet - 80 < temp) then s
    else (s.onBoard fun b => { b with tempAlert := false }).pulse (irqNo 0 2)

/-- THERMAL_TRIP (R47): the lid has reached +130 degrees; every rail but the always-on domain's goes off. -/
def execThermalTrip (t : Nat) (temp : Int) (s : State) : Out :=
  let s := s.at t
  if temp < 130 * 16 || !s.board.passOn || s.board.thermalHold then .next s
  else .next (((s.enterReset false).cause 5).onBoard fun b => { b with thermalHold := true, pwrGood := false })

/-- THERMAL_TRIP_RECOVERY (R47): the lid has cooled to +115 degrees; a cold reset restarts the module. -/
def execThermalTripRecovery (t : Nat) (temp : Int) (s : State) : Out :=
  let s := s.at t
  if s.board.thermalHold && decide (temp ≤ 115 * 16) then
    .next ((s.enterReset false).onBoard fun b => { b with thermalHold := false })
  else .next s

/-- LID_TEMPERATURE_SAMPLE (R60): the lid and the three lamps, in 1/16 degree. -/
def execLidTemperatureSample (t : Nat) (lid l0 l1 l2 : BitVec 16) (s : State) : Out :=
  s.when t 0 fun s =>
    let s := s.setRf SYS_THERMAL 15 0 lid.toNat
    let s := if s.domOn 22 then s.trackCool else s
    [(0, l0), (1, l1), (2, l2)].foldl (fun s (x : Nat × BitVec 16) =>
      if s.domOn (1 + x.1) then s.onLamp x.1 fun l => { l with temp := x.2.toInt } else s) s

/-- SUPPLY_SAMPLE (R59): VIN in units of 10 mV and IIN in units of 10 mA. -/
def execSupplySample (t : Nat) (vin : BitVec 16) (iin : BitVec 8) (s : State) : Out :=
  s.when t 0 fun s => (s.setRf SYS_SUPPLY 31 16 vin.toNat).setRf SYS_SUPPLY 15 8 iin.toNat

/-- SYS_THERMAL written (R60). -/
def State.thermalWrite (s : State) (v : Word) : State :=
  s.setRf SYS_THERMAL 31 24 (wrap 8 (clampI 85 125 (sfld v 31 24)))

/-! ### Reference (R49, R50, R61) -/

/-- REFERENCE_LOSS (R49); while internal reset is asserted no register records it. [DESIGN CHOICE, assumption 142] -/
def execReferenceLoss (t : Nat) (s : State) : Out :=
  let s := s.at t
  if !s.board.refOk then .next s
  else
    let s := s.onBoard fun b => { b with refOk := false, locked := false }
    if s.board.held then .next s
    else
      let s := s.setRb SYS_CLOCK 7 true
      .next ((List.range 3).foldl (fun s n => if s.domOn (1 + n) then s.lampRefLoss n else s) s)

/-- REFERENCE_RECOVERY (R39, R50): the reference has been good for 10 ms, or has appeared during reset. -/
def execReferenceRecovery (t : Nat) (s : State) : Out :=
  let s := s.at t
  if s.board.refOk then .next s
  else
    let s := s.onBoard fun b => { b with refOk := true, locked := true, refAbsent := false }
    if s.board.held then .next (s.notBefore (s.clk + 500000))
    else .next ((List.range 3).foldl (fun s n => if s.domOn (1 + n) then s.lampRefBack n else s) s)

/-! ### Boundary scan (R54, R56) -/

/-- The instruction that a code loads; every code but the six of R54 acts as BYPASS. -/
def tapCode : TapOp → TapInstr
  | .bypass | .other _ => .bypass
  | .idcode => .idcode
  | .sample => .sample
  | .extest => .extest
  | .clamp => .clamp
  | .highz => .highz

/-- The boundary register after an instruction is loaded: SAMPLE/PRELOAD and EXTEST select it, and the cells take what was
shifted in; any other instruction leaves it (R54, R55). -/
def tapCells (i : TapInstr) (old scan : List (Land × Bool)) : List (Land × Bool) :=
  if i == .sample || i == .extest then scan else old

/-- TAP_INSTRUCTION_UPDATE (R54, R56): EXTEST, CLAMP and HIGHZ hold the functional logic in reset, with the transmitters
off, until a cold reset through RESET_N. -/
def execTapInstructionUpdate (t : Nat) (scan : TapScan) (s : State) : Out :=
  let s := s.at t
  let i := tapCode scan.op
  if !s.board.passOn then .next s
  else
    let b := tapCells i s.board.boundary scan.cells
    if i.tests then
      .next ((s.enterReset false).onBoard fun x => { x with tap := i, boundary := b, tapDirty := true })
    else .next (s.onBoard fun x => { x with tap := i, boundary := b })

/-! ### Lands and views -/

/-- FAULT_N is asserted (R39, R43, R49, R53); of a thermal trip it tells for as long as the module holds after it.
[DEDUCED, assumption 141] -/
def State.faultLand (s : State) : Bool :=
  s.board.refAbsent || s.board.thermalHold || s.rb SYS_SUPPLY 3 || s.rb SYS_CLOCK 7
    || decide (s.rf SEC_TAMPER_STATUS 7 2 ≠ 0) || (!s.board.held && s.board.bootSel == 3)

/-- The read-only views of the SYS registers of chapter 2. -/
def State.boardView (s : State) (a : Nat) : Option Word :=
  if a = SYS_IDENT then some identWord
  else if a = SYS_SUPPLY then some (setBit (s.reg a) 0 s.board.pwrGood)
  else if a = SYS_CLOCK then
    some (BitVec.ofNat 32 ((s.reg a).toNat + s.board.refOk.toNat * 64 + (if s.board.locked then
      (if s.pwr.ember then 8 else 63) else 0)))
  else if a = SYS_SVN then some (BitVec.ofNat 32 s.board.svn)
  else none

end Sys2Proof.Machine
end

