-- ==== Sys2Proof/Machine/Flags.lean ====
section
/-! DEFINITION. The flag computations and the arithmetic of the Wick instruction set (R225, R236 to R239, R261 to
R268). -/
namespace Sys2Proof.Machine

/-- wsr fields (R225). -/
def WCore.fC (c : WCore) : Bool := c.wsr.getLsbD 21
def WCore.fZ (c : WCore) : Bool := c.wsr.getLsbD 23
def WCore.fN (c : WCore) : Bool := c.wsr.getLsbD 22
def WCore.fV (c : WCore) : Bool := c.wsr.getLsbD 20
def WCore.dsat (c : WCore) : Bool := c.wsr.getLsbD 3
def WCore.asat (c : WCore) : Bool := c.wsr.getLsbD 4
def WCore.frac (c : WCore) : Bool := c.wsr.getLsbD 5
def WCore.rnd (c : WCore) : Nat := c.wsr.toNat / 64 % 4

/-- wsr bit `n` set to `b`. -/
def WCore.flag (c : WCore) (n : Nat) (b : Bool) : WCore := { c with wsr := setBit c.wsr n b }

/-- Sticky flags set. -/
def WCore.stickSV (c : WCore) (b : Bool) : WCore := if b then c.flag 18 true else c
def WCore.stickAV (c : WCore) (b : Bool) : WCore := if b then c.flag 19 true else c

/-- Z and N from a 24-bit result. -/
def WCore.zn (c : WCore) (v : BitVec 24) : WCore := (c.flag 23 (v == 0)).flag 22 v.msb

/-- V set to `b`. -/
def WCore.setV (c : WCore) (b : Bool) : WCore := c.flag 20 b
/-- C set to `b`. -/
def WCore.setC (c : WCore) (b : Bool) : WCore := c.flag 21 b

/-- An exact integer result as a 24-bit word: does it overflow, and what is delivered under DSAT (R239). -/
def ovf24 (r : Int) : Bool := r < -8388608 || 8388607 < r
def sat24 (dsat : Bool) (r : Int) : BitVec 24 :=
  if dsat then (if r < -8388608 then 0x800000 else if 8388607 < r then 0x7FFFFF else BitVec.ofInt 24 r)
  else BitVec.ofInt 24 r

/-- A saturating data result: Z, N and V, and SV when it saturated (R239); the value goes to `dd` after `lat`. -/
def WCore.satRes (c : WCore) (dd : BitVec 6) (r : Int) (lat : Nat) : WCore :=
  let v := sat24 c.dsat r
  (((c.zn v).setV (ovf24 r)).stickSV (c.dsat && ovf24 r)).res dd v lat

/-- Add with carry in: Z N C V (R262). -/
def WCore.addF (c : WCore) (dd : BitVec 6) (a b : BitVec 24) (cin : Bool) : WCore :=
  (c.setC (decide (2 ^ 24 ≤ a.toNat + b.toNat + cin.toNat))).satRes dd (a.toInt + b.toInt + cin.toNat) 1

/-- Subtract with borrow in: Z N C V, C the not-borrow (R262). -/
def WCore.subF (c : WCore) (dd : BitVec 6) (a b : BitVec 24) (bin : Bool) : WCore :=
  (c.setC (decide (b.toNat + bin.toNat ≤ a.toNat))).satRes dd (a.toInt - b.toInt - bin.toNat) 1

/-- Flags of a - b, unsaturated (CMP). -/
def WCore.cmpF (c : WCore) (a b : BitVec 24) : WCore :=
  ((c.zn (a - b)).setC (decide (b.toNat ≤ a.toNat))).setV (ovf24 (a.toInt - b.toInt))

/-- A logical result: Z N, V := 0. -/
def WCore.logF (c : WCore) (dd : BitVec 6) (v : BitVec 24) : WCore := ((c.zn v).setV false).res dd v 1

/-- The four shift kinds: LSL, LSR, ASR, ROR (R262, R263). -/
def shiftVal (kind : Nat) (a : BitVec 24) (n : Nat) : BitVec 24 :=
  match kind with
  | 0 => a <<< n
  | 1 => a >>> n
  | 2 => a.sshiftRight n
  | _ => a.rotateRight (n % 24)

/-- The last bit shifted or rotated out; `n` is not 0 (R262). -/
def shiftOut (kind : Nat) (a : BitVec 24) (n : Nat) : Bool :=
  match kind with
  | 0 => if n ≤ 24 then a.getLsbD (24 - n) else false
  | 1 => if n ≤ 24 then a.getLsbD (n - 1) else false
  | 2 => if n < 24 then a.getLsbD (n - 1) else a.msb
  | _ => a.getLsbD (n % 24 - 1)

/-- A shift: Z N C, V := 0; a count of 0 leaves C unchanged. -/
def WCore.shiftF (c : WCore) (kind : Nat) (dd : BitVec 6) (a : BitVec 24) (n : Nat) : WCore :=
  let zero := n == 0 || (kind == 3 && n % 24 == 0)
  let c := c.logF dd (shiftVal kind a n)
  if zero then c else c.setC (shiftOut kind a n)

/-- Redundant sign bits of a word, 0 to 23 (NORM). -/
def redundant (a : BitVec 24) : Nat :=
  ((List.range 23).takeWhile fun i => a.getLsbD (22 - i) == a.msb).length

/-- The product of R236 and whether -1 x -1 saturated it. -/
def product (frac : Bool) (a b : BitVec 24) : Int × Bool :=
  let p := a.toInt * b.toInt
  if frac then (if p = 2 ^ 46 then (2 ^ 47 - 1, true) else (2 * p, false)) else (p, false)

/-- n / d rounded by wsr.RND; d is a positive even number or 1 (R238). -/
def roundBy (rnd : Nat) (n : Int) (d : Nat) : Int :=
  let q := n / d
  let r2 := 2 * (n % d)
  if r2 < d then q
  else if r2 > d then (if rnd = 0 then q else q + 1)
  else
    match rnd with
    | 0 => q
    | 1 => q + 1
    | 2 => if q % 2 = 0 then q else q + 1
    | _ => if n < 0 then q else q + 1

/-- Extraction: the value n / d in units of bit 24 rounded, and held in 24 bits (R238). -/
def extract24 (rnd : Nat) (n : Int) (d : Nat) : BitVec 24 × Bool :=
  let q := roundBy rnd n d
  (sat24 true q, ovf24 q)

/-- An accumulator sum held or wrapped (R237). -/
def ovf56 (r : Int) : Bool := r < -(2 ^ 55) || 2 ^ 55 ≤ r
def sat56 (asat : Bool) (r : Int) : BitVec 56 :=
  if asat then (if r < -(2 ^ 55) then BitVec.ofInt 56 (-(2 ^ 55)) else if 2 ^ 55 ≤ r then BitVec.ofInt 56 (2 ^ 55 - 1)
    else BitVec.ofInt 56 r)
  else BitVec.ofInt 56 r

/-- An accumulation into `a`: AV when it wraps, SV when it is held (R237). -/
def WCore.accRes (c : WCore) (a : Nat) (r : Int) : WCore :=
  let v := sat56 c.asat r
  let c := if ovf56 r then (if c.asat then c.stickSV true else c.stickAV true) else c
  c.setAc a v

/-- A condition code holds (R272). -/
def WCore.holds (c : WCore) (cond : Nat) : Bool :=
  match cond with
  | 0x0 => true
  | 0x1 => c.fZ
  | 0x2 => !c.fZ
  | 0x3 => c.fN
  | 0x4 => !c.fN
  | 0x5 => c.fV
  | 0x6 => !c.fV
  | 0x7 => c.fC
  | 0x8 => !c.fC
  | 0x9 => c.fN == c.fV
  | 0xA => c.fN != c.fV
  | 0xB => !c.fZ && c.fN == c.fV
  | 0xC => c.fZ || c.fN != c.fV
  | 0xD => c.fC && !c.fZ
  | 0xE => !c.fC || c.fZ
  | _ => false

/-- wsr as MOVDW leaves it: RSVD fields read 0, an address mode of 0b11 is stored as 0b00, and on a Lantern RND, FRAC
and ASAT read 0 (R225, R271). -/
def wsrWrite (k : Nat) (v : BitVec 24) : BitVec 32 :=
  let n := v.toNat
  let am := fun i => let m := n / 2 ^ (8 + 2 * i) % 4; if m = 3 then 0 else m * 2 ^ (8 + 2 * i)
  let low := n / 8 % 2 * 8 + (if k < 64 then n / 16 % 16 * 16 else 0)
  BitVec.ofNat 32 (n / 2 ^ 18 % 64 * 2 ^ 18 + am 3 + am 2 + am 1 + am 0 + low)

end Sys2Proof.Machine
end

