-- ==== Sys2Proof/Machine/Operands.lean ====
section
/-! DEFINITION. The operand forms of the Wick instruction set: pointer addressing with its circular and bit-reversed
updates (R233 to R235), and register pairs (R258). -/
namespace Sys2Proof.Machine

/-- The 16 bits of `x` reversed. -/
def rev16 (x : Nat) : Nat :=
  (List.range 16).foldl (fun r i => r + (if x.testBit i then 2 ^ (15 - i) else 0)) 0

/-- The circular update of R234. -/
def circular (first last p : Nat) (step : Int) : Nat :=
  let l := (last + 65536 - first) % 65536 + 1
  let off := (p + 65536 - first) % 65536
  (first + ((off + step) % l).toNat) % 65536

/-- The bit-reversed update of R235. -/
def bitReversed (first p : Nat) (step : Int) : Nat :=
  (first + rev16 ((rev16 ((p + 65536 - first) % 65536) + rev16 (step % 65536).toNat) % 65536)) % 65536

/-- The address mode of pointer `k`, 0 for p4 to p15. -/
def WCore.am (c : WCore) (k : Nat) : Nat := if k < 4 then c.wsr.toNat / 2 ^ (8 + 2 * k) % 4 else 0

/-- The pointer value after a post-increment or post-modify by `step` (R233 to R235). -/
def WCore.stepped (c : WCore) (pk : BitVec 4) (p : BitVec 16) (step : Int) : BitVec 16 :=
  let cb := tabGet (0 : BitVec 32) c.cb pk.toNat
  match c.am pk.toNat with
  | 1 => BitVec.ofNat 16 (circular (cb.toNat / 65536) (cb.toNat % 65536) p.toNat step)
  | 2 => BitVec.ofNat 16 (bitReversed (cb.toNat / 65536) p.toNat step)
  | _ => BitVec.ofInt 16 ((p.toNat : Int) + step)

/-- The address of a pointer access (R233). -/
def WCore.memAddr (c : WCore) (m : MemMode) (pk : BitVec 4) : Nat :=
  match m with
  | .idx i => ((c.ptr pk).toNat + i.toNat) % 65536
  | _ => (c.ptr pk).toNat

/-- The core after a pointer access has updated its pointer (R233, R265). -/
def WCore.memPtr (c : WCore) (m : MemMode) (pk : BitVec 4) : WCore :=
  match m with
  | .ind => c
  | .idx _ => c
  | .inc i => c.setPtr pk (c.stepped pk (c.ptr pk) i.toInt)
  | .post j => c.setPtr pk (c.stepped pk (c.ptr pk) (c.ptr j).toInt)

/-- A load's result (R240, R264) or a store's write (R265) at address `a`. -/
def WCore.access (c : WCore) (k : Nat) (store : Bool) (reg : BitVec 6) (a : Nat) : WCore :=
  if store then c.st' k a (c.dr reg) else c.res reg (c.ld k a) 3

/-- The even and odd registers of pair `n` (R258). -/
def pairLo (n : BitVec 5) : BitVec 6 := BitVec.ofNat 6 (2 * n.toNat)
def pairHi (n : BitVec 5) : BitVec 6 := BitVec.ofNat 6 (2 * n.toNat + 1)

/-- The 36-bit fabric address in pair `n` (R277, R279). -/
def WCore.pairAddr (c : WCore) (n : BitVec 5) : Nat :=
  (c.dr (pairHi n)).toNat % 4096 * 2 ^ 24 + (c.dr (pairLo n)).toNat

/-- The 32-bit word in pair `n`: [7:0] of the odd register above the even one. -/
def WCore.pairWord (c : WCore) (n : BitVec 5) : Nat :=
  (c.dr (pairHi n)).toNat % 256 * 2 ^ 24 + (c.dr (pairLo n)).toNat

/-- A 32-bit word delivered to pair `n` by an instruction that held issue. -/
def WCore.putPair (c : WCore) (n : BitVec 5) (v : Nat) : WCore :=
  (c.put (pairLo n) (BitVec.ofNat 24 v)).put (pairHi n) (BitVec.ofNat 24 (v / 2 ^ 24 % 256))

end Sys2Proof.Machine
end

