-- ==== Sys2Proof/Machine/WickDecode.lean ====
section
/-! DEFINITION. The 32-bit encodings of the Wick instruction set: decoder, encoder, profiles (R257 to R287). A word that
the tables do not list decodes to none, a reserved encoding. -/
namespace Sys2Proof

/-- Bits of an instruction word from `lo`, `w` of them, as a bit vector. -/
def bits (n lo w : Nat) : BitVec w := BitVec.ofNat w (n / 2 ^ lo)

/-- Bits of an instruction word as a number. -/
def nbits (n lo w : Nat) : Nat := n / 2 ^ lo % 2 ^ w

/-- The FN of a register-form function (R262). -/
def AluFn.fn : AluFn → Nat
  | .add => 0x00 | .sub => 0x01 | .adc => 0x02 | .sbc => 0x03 | .and => 0x04 | .or => 0x05 | .xor => 0x06
  | .andn => 0x07 | .lsl => 0x08 | .lsr => 0x09 | .asr => 0x0A | .ror => 0x0B | .min => 0x0C | .max => 0x0D
  | .abs => 0x0E | .neg => 0x0F | .mov => 0x10 | .cmp => 0x11 | .tst => 0x12 | .norm => 0x13 | .mul => 0x14
  | .mpyr => 0x15 | .sxb => 0x16 | .zxb => 0x17

/-- The register-form function of an FN. -/
def aluOf : Nat → Option AluFn
  | 0x00 => some .add | 0x01 => some .sub | 0x02 => some .adc | 0x03 => some .sbc | 0x04 => some .and
  | 0x05 => some .or | 0x06 => some .xor | 0x07 => some .andn | 0x08 => some .lsl | 0x09 => some .lsr
  | 0x0A => some .asr | 0x0B => some .ror | 0x0C => some .min | 0x0D => some .max | 0x0E => some .abs
  | 0x0F => some .neg | 0x10 => some .mov | 0x11 => some .cmp | 0x12 => some .tst | 0x13 => some .norm
  | 0x14 => some .mul | 0x15 => some .mpyr | 0x16 => some .sxb | 0x17 => some .zxb
  | _ => none

/-- A function that reads `da` alone; its db field is not used. -/
def AluFn.unary : AluFn → Bool
  | .abs | .neg | .mov | .norm | .sxb | .zxb => true
  | _ => false

/-- A function whose dd field must be 0. -/
def AluFn.flagsOnly : AluFn → Bool
  | .cmp | .tst => true
  | _ => false

/-- The register form (R257, R262). -/
def decAlu (n : Nat) : Option WInstr :=
  if nbits n 6 2 ≠ 0 then none
  else
    match aluOf (nbits n 0 6) with
    | none => none
    | some f =>
      if f.flagsOnly && nbits n 20 6 != 0 then none
      else some (.alu f (bits n 20 6) (bits n 14 6) (if f.unary then 0 else bits n 8 6))

/-- The pointer modes (R264). -/
def decMem (n : Nat) : Option WInstr :=
  let st := nbits n 19 1 == 1
  let mk := fun m => some (WInstr.mem st (bits n 20 6) m (bits n 12 4))
  match nbits n 16 3 with
  | 0 => if nbits n 0 12 = 0 then mk .ind else none
  | 1 => if nbits n 4 8 = 0 then mk (.inc (bits n 0 4)) else none
  | 2 => if nbits n 4 8 = 0 then mk (.post (bits n 0 4)) else none
  | 3 => if nbits n 6 6 = 0 then mk (.idx (bits n 0 6)) else none
  | _ => none

/-- The accumulator group (R268). -/
def decAcc (n : Nat) : Option WInstr :=
  let d1 := bits n 20 6
  let d2 := bits n 14 6
  let a := bits n 6 2
  let x := nbits n 8 6
  let no12 := nbits n 14 12 == 0
  let no2 := nbits n 14 6 == 0
  match nbits n 0 6 with
  | 0x00 => if x = 0 then some (.mac d1 d2 a) else none
  | 0x01 => if x = 0 then some (.msu d1 d2 a) else none
  | 0x02 => if x = 0 then some (.mpa d1 d2 a) else none
  | 0x03 => if x = 0 && no12 then some (.clra a) else none
  | 0x04 => if x < 16 && no2 then some (.ext d1 a (bits n 8 4)) else none
  | 0x05 => if x < 5 && no2 then some (.movad d1 a (bits n 8 3)) else none
  | 0x06 => if x < 16 && x % 8 < 5 && no2 then some (.movda d1 a (bits n 8 3) (nbits n 11 1 == 1)) else none
  | 0x07 => if x < 4 && no12 then some (.adda a (bits n 8 2)) else none
  | 0x08 => if x < 4 && no12 then some (.suba a (bits n 8 2)) else none
  | 0x09 => if no12 then some (.sha a (bits n 8 6)) else none
  | 0x0A => if x = 0 && no12 then some (.nega a) else none
  | 0x0B => if x = 0 && no12 then some (.absa a) else none
  | 0x0C => if x = 0 && no12 then some (.sat48 a) else none
  | _ => none

/-- Pointer and control moves (R271). -/
def decPtr (n : Nat) : Option WInstr :=
  let pk := bits n 18 4
  let d := bits n 12 6
  let k := bits n 18 2
  match nbits n 22 4 with
  | 0x0 => if nbits n 16 2 = 0 then some (.paddi pk (bits n 0 16)) else none
  | 0x1 => if nbits n 16 2 = 0 then some (.pldi pk (bits n 0 16)) else none
  | 0x2 => if nbits n 0 12 = 0 then some (.movdp pk d) else none
  | 0x3 => if nbits n 0 12 = 0 then some (.movpd pk d) else none
  | 0x4 => if nbits n 20 2 = 0 && nbits n 0 6 = 0 then some (.cbset k d (bits n 6 6)) else none
  | 0x5 => if nbits n 20 2 = 0 && nbits n 0 11 = 0 then some (.cbget k d (nbits n 11 1 == 1)) else none
  | 0x6 => if nbits n 20 2 = 0 && nbits n 0 12 = 0 && nbits n 18 2 ≠ 3 then some (.movdl k d) else none
  | 0x7 => if nbits n 20 2 = 0 && nbits n 0 12 = 0 && nbits n 18 2 ≠ 3 then some (.movld k d) else none
  | 0x8 => if nbits n 18 4 = 0 && nbits n 0 12 = 0 then some (.movdw d) else none
  | 0x9 => if nbits n 18 4 = 0 && nbits n 0 12 = 0 then some (.movwd d) else none
  | 0xA => if nbits n 18 4 = 0 && nbits n 0 12 = 0 then some (.movrd d) else none
  | _ => none

/-- The SYS functions (R275). -/
def decSys (n : Nat) : Option WInstr :=
  let d := bits n 20 6
  let ch := bits n 8 2
  let noD := nbits n 20 6 == 0
  let noC := nbits n 8 2 == 0
  if nbits n 10 10 ≠ 0 || nbits n 6 2 ≠ 0 then none
  else
    match nbits n 0 6 with
    | 0x00 => if noD && noC then some .nop else none
    | 0x01 => if noD && noC then some .rot else none
    | 0x02 => if noD && noC then some .halt else none
    | 0x03 => if noD && noC then some .twait else none
    | 0x04 => if noC then some (.tend d) else none
    | 0x05 => if noC then some (.tid d) else none
    | 0x06 => some (.dmawt d ch)
    | 0x07 => some (.dmast d ch)
    | 0x08 => if noD && noC then some .fence else none
    | _ => none

/-- The TIME functions (R280). -/
def decTime (n : Nat) : Option WInstr :=
  let k := bits n 20 2
  let j := bits n 18 2
  let d := bits n 12 6
  let p := bits n 10 2
  let noJ := nbits n 18 2 == 0
  let noD := nbits n 12 6 == 0
  let noP := nbits n 10 2 == 0
  let noU := nbits n 9 1 == 0
  if nbits n 0 9 ≠ 0 then none
  else
    match nbits n 22 4 with
    | 0x0 => if noJ && noD && noP && noU then some (.tnow k) else none
    | 0x1 => if noJ && noU && nbits n 10 2 ≠ 3 then some (.tget d k p) else none
    | 0x2 => if noJ && noU && nbits n 10 2 ≠ 3 then some (.tput d k p) else none
    | 0x3 => if noP then some (.tadd k j d (nbits n 9 1 == 1)) else none
    | 0x4 => if noP && noU then some (.tsub d k j) else none
    | 0x5 => if noD && noP && noU then some (.tmov k j) else none
    | 0x6 => if noJ && noD && noP && noU then some (.twaitu k) else none
    | _ => none

/-- One move of a DMOV from its 15 bits (R267). -/
def decMove (n : Nat) : DMove := ⟨nbits n 14 1 == 1, bits n 8 6, bits n 4 4, bits n 0 4⟩

/-- The instruction of a word; none is a reserved encoding (R257, R258). -/
def wdecode (w : BitVec 32) : Option WInstr :=
  let n := w.toNat
  if nbits n 30 2 = 3 then some (.dmov (decMove (n / 2 ^ 15)) (decMove n))
  else if nbits n 30 2 = 2 then
    if nbits n 26 2 = nbits n 24 2 then none
    else some (.mac2 (nbits n 29 1 == 1) (nbits n 28 1 == 1) (bits n 26 2) (bits n 24 2)
      (bits n 18 6) (bits n 12 6) (bits n 6 6) (bits n 0 6))
  else
    match nbits n 26 6 with
    | 0x01 => decAlu n
    | 0x02 => some (.imm .addi (bits n 20 6) (bits n 14 6) (bits n 0 14))
    | 0x03 => some (.imm .andi (bits n 20 6) (bits n 14 6) (bits n 0 14))
    | 0x04 => some (.imm .ori (bits n 20 6) (bits n 14 6) (bits n 0 14))
    | 0x05 => some (.imm .xori (bits n 20 6) (bits n 14 6) (bits n 0 14))
    | 0x06 =>
      if nbits n 5 7 = 0 && nbits n 0 5 < 24 then
        some (.shi (bits n 12 2) (bits n 20 6) (bits n 14 6) (bits n 0 5))
      else none
    | 0x07 => if nbits n 20 6 = 0 then some (.imm .cmpi 0 (bits n 14 6) (bits n 0 14)) else none
    | 0x08 => some (.ldi (bits n 20 6) (bits n 0 20))
    | 0x09 => if nbits n 12 8 = 0 then some (.ldhi (bits n 20 6) (bits n 0 12)) else none
    | 0x0A => decMem n
    | 0x0B => if nbits n 16 3 = 0 then some (.memAbs (nbits n 19 1 == 1) (bits n 20 6) (bits n 0 16)) else none
    | 0x0C => decAcc n
    | 0x0D => decPtr n
    | 0x0E =>
      if nbits n 14 8 = 0 && nbits n 22 4 ≠ 15 then some (.br (bits n 22 4) (bits n 0 14)) else none
    | 0x0F =>
      if nbits n 14 7 ≠ 0 then none
      else if nbits n 25 1 = 0 then some (.jal (bits n 21 4) (bits n 0 14))
      else if nbits n 0 14 = 0 then some (.jr (bits n 21 4)) else none
    | 0x10 =>
      if nbits n 24 2 = 3 then none
      else some (.loopi (bits n 24 2) (nbits n 23 1 == 1) (bits n 7 16) (bits n 0 7))
    | 0x11 =>
      if nbits n 24 2 = 3 || nbits n 14 3 ≠ 0 then none
      else some (.loopr (bits n 24 2) (nbits n 23 1 == 1) (bits n 17 6) (bits n 0 14))
    | 0x12 => decSys n
    | 0x13 =>
      if nbits n 0 6 = 0 then
        some (.dma (bits n 24 2) (nbits n 23 1 == 1) (bits n 21 2) (bits n 17 4) (bits n 12 5) (bits n 6 6))
      else none
    | 0x14 =>
      if nbits n 0 15 ≠ 0 then none
      else if nbits n 15 1 = 0 then some (.fld (bits n 21 5) (bits n 16 5))
      else some (.fst (bits n 21 5) (bits n 16 5))
    | 0x15 => decTime n
    | 0x16 => if nbits n 0 12 = 0 then some (.rcmd (bits n 20 6) (bits n 16 4) (bits n 14 2) (bits n 12 2)) else none
    | 0x17 => if nbits n 0 13 = 0 then some (.rstat (bits n 20 6) (bits n 14 6) (nbits n 13 1 == 1)) else none
    | 0x18 =>
      if nbits n 4 2 = nbits n 2 2 || nbits n 4 2 = nbits n 0 2 || nbits n 2 2 = nbits n 0 2 then none
      else some (.place (bits n 21 5) (bits n 15 6) (bits n 10 5) (nbits n 9 1 == 1) (bits n 6 3)
        (bits n 4 2) (bits n 2 2) (bits n 0 2))
    | 0x19 => if nbits n 0 14 = 0 then some (.build (bits n 20 6) (bits n 16 4) (bits n 14 2)) else none
    | 0x1A =>
      if nbits n 0 4 = 0 then
        some (.nbr (bits n 21 5) (bits n 15 6) (nbits n 14 1 == 1) (bits n 10 4) (bits n 4 6))
      else none
    | _ => none

/-- The 15 bits of a DMOV's move. -/
def encMove (m : DMove) : Nat := m.store.toNat * 2 ^ 14 + m.reg.toNat * 2 ^ 8 + m.pk.toNat * 16 + m.i.toNat

/-- The mode and mode field of a pointer access. -/
def encMode : MemMode → Nat
  | .ind => 0
  | .inc i => 1 * 2 ^ 16 + i.toNat
  | .post j => 2 * 2 ^ 16 + j.toNat
  | .idx i => 3 * 2 ^ 16 + i.toNat

/-- OP6 of an immediate function. -/
def ImmFn.op : ImmFn → Nat
  | .addi => 2 | .andi => 3 | .ori => 4 | .xori => 5 | .cmpi => 7

/-- An accumulator word: OP6 0x0C with its fields. -/
def encAccW (d1 d2 x a fn : Nat) : Nat := 0x0C * 2 ^ 26 + d1 * 2 ^ 20 + d2 * 2 ^ 14 + x * 2 ^ 8 + a * 64 + fn

/-- A SYS word. -/
def encSysW (d ch fn : Nat) : Nat := 0x12 * 2 ^ 26 + d * 2 ^ 20 + ch * 2 ^ 8 + fn

/-- A TIME word. -/
def encTimeW (fn k j d p u : Nat) : Nat :=
  0x15 * 2 ^ 26 + fn * 2 ^ 22 + k * 2 ^ 20 + j * 2 ^ 18 + d * 2 ^ 12 + p * 2 ^ 10 + u * 2 ^ 9

/-- The number of an instruction's word, from the same tables. -/
def wencodeNat : WInstr → Nat
  | .alu f dd da db => 0x01 * 2 ^ 26 + dd.toNat * 2 ^ 20 + da.toNat * 2 ^ 14 + db.toNat * 2 ^ 8 + f.fn
  | .imm f dd da i => f.op * 2 ^ 26 + dd.toNat * 2 ^ 20 + da.toNat * 2 ^ 14 + i.toNat
  | .shi k dd da c => 0x06 * 2 ^ 26 + dd.toNat * 2 ^ 20 + da.toNat * 2 ^ 14 + k.toNat * 2 ^ 12 + c.toNat
  | .ldi dd i => 0x08 * 2 ^ 26 + dd.toNat * 2 ^ 20 + i.toNat
  | .ldhi dd i => 0x09 * 2 ^ 26 + dd.toNat * 2 ^ 20 + i.toNat
  | .mem st r m pk => 0x0A * 2 ^ 26 + r.toNat * 2 ^ 20 + st.toNat * 2 ^ 19 + pk.toNat * 2 ^ 12 + encMode m
  | .memAbs st r a => 0x0B * 2 ^ 26 + r.toNat * 2 ^ 20 + st.toNat * 2 ^ 19 + a.toNat
  | .mac d1 d2 a => encAccW d1.toNat d2.toNat 0 a.toNat 0x00
  | .msu d1 d2 a => encAccW d1.toNat d2.toNat 0 a.toNat 0x01
  | .mpa d1 d2 a => encAccW d1.toNat d2.toNat 0 a.toNat 0x02
  | .clra a => encAccW 0 0 0 a.toNat 0x03
  | .ext d1 a s => encAccW d1.toNat 0 s.toNat a.toNat 0x04
  | .movad d1 a w => encAccW d1.toNat 0 w.toNat a.toNat 0x05
  | .movda d1 a w ins => encAccW d1.toNat 0 (ins.toNat * 8 + w.toNat) a.toNat 0x06
  | .adda a x => encAccW 0 0 x.toNat a.toNat 0x07
  | .suba a x => encAccW 0 0 x.toNat a.toNat 0x08
  | .sha a s => encAccW 0 0 s.toNat a.toNat 0x09
  | .nega a => encAccW 0 0 0 a.toNat 0x0A
  | .absa a => encAccW 0 0 0 a.toNat 0x0B
  | .sat48 a => encAccW 0 0 0 a.toNat 0x0C
  | .mac2 sx sy ax ay da db dc de =>
    2 * 2 ^ 30 + sx.toNat * 2 ^ 29 + sy.toNat * 2 ^ 28 + ax.toNat * 2 ^ 26 + ay.toNat * 2 ^ 24
      + da.toNat * 2 ^ 18 + db.toNat * 2 ^ 12 + dc.toNat * 2 ^ 6 + de.toNat
  | .dmov a b => 3 * 2 ^ 30 + encMove a * 2 ^ 15 + encMove b
  | .paddi pk i => 0x0D * 2 ^ 26 + 0x0 * 2 ^ 22 + pk.toNat * 2 ^ 18 + i.toNat
  | .pldi pk i => 0x0D * 2 ^ 26 + 0x1 * 2 ^ 22 + pk.toNat * 2 ^ 18 + i.toNat
  | .movdp pk da => 0x0D * 2 ^ 26 + 0x2 * 2 ^ 22 + pk.toNat * 2 ^ 18 + da.toNat * 2 ^ 12
  | .movpd pk dd => 0x0D * 2 ^ 26 + 0x3 * 2 ^ 22 + pk.toNat * 2 ^ 18 + dd.toNat * 2 ^ 12
  | .cbset k da db => 0x0D * 2 ^ 26 + 0x4 * 2 ^ 22 + k.toNat * 2 ^ 18 + da.toNat * 2 ^ 12 + db.toNat * 2 ^ 6
  | .cbget k dd h => 0x0D * 2 ^ 26 + 0x5 * 2 ^ 22 + k.toNat * 2 ^ 18 + dd.toNat * 2 ^ 12 + h.toNat * 2 ^ 11
  | .movdl l da => 0x0D * 2 ^ 26 + 0x6 * 2 ^ 22 + l.toNat * 2 ^ 18 + da.toNat * 2 ^ 12
  | .movld l dd => 0x0D * 2 ^ 26 + 0x7 * 2 ^ 22 + l.toNat * 2 ^ 18 + dd.toNat * 2 ^ 12
  | .movdw da => 0x0D * 2 ^ 26 + 0x8 * 2 ^ 22 + da.toNat * 2 ^ 12
  | .movwd dd => 0x0D * 2 ^ 26 + 0x9 * 2 ^ 22 + dd.toNat * 2 ^ 12
  | .movrd dd => 0x0D * 2 ^ 26 + 0xA * 2 ^ 22 + dd.toNat * 2 ^ 12
  | .br c tg => 0x0E * 2 ^ 26 + c.toNat * 2 ^ 22 + tg.toNat
  | .jal pk tg => 0x0F * 2 ^ 26 + pk.toNat * 2 ^ 21 + tg.toNat
  | .jr pk => 0x0F * 2 ^ 26 + 1 * 2 ^ 25 + pk.toNat * 2 ^ 21
  | .loopi lc r c off => 0x10 * 2 ^ 26 + lc.toNat * 2 ^ 24 + r.toNat * 2 ^ 23 + c.toNat * 2 ^ 7 + off.toNat
  | .loopr lc r dc e => 0x11 * 2 ^ 26 + lc.toNat * 2 ^ 24 + r.toNat * 2 ^ 23 + dc.toNat * 2 ^ 17 + e.toNat
  | .nop => encSysW 0 0 0x00
  | .rot => encSysW 0 0 0x01
  | .halt => encSysW 0 0 0x02
  | .twait => encSysW 0 0 0x03
  | .tend d => encSysW d.toNat 0 0x04
  | .tid d => encSysW d.toNat 0 0x05
  | .dmawt d ch => encSysW d.toNat ch.toNat 0x06
  | .dmast d ch => encSysW d.toNat ch.toNat 0x07
  | .fence => encSysW 0 0 0x08
  | .dma ch o m pk n dc =>
    0x13 * 2 ^ 26 + ch.toNat * 2 ^ 24 + o.toNat * 2 ^ 23 + m.toNat * 2 ^ 21 + pk.toNat * 2 ^ 17 + n.toNat * 2 ^ 12
      + dc.toNat * 2 ^ 6
  | .fld m n => 0x14 * 2 ^ 26 + m.toNat * 2 ^ 21 + n.toNat * 2 ^ 16
  | .fst m n => 0x14 * 2 ^ 26 + m.toNat * 2 ^ 21 + n.toNat * 2 ^ 16 + 1 * 2 ^ 15
  | .tnow k => encTimeW 0 k.toNat 0 0 0 0
  | .tget d k p => encTimeW 1 k.toNat 0 d.toNat p.toNat 0
  | .tput d k p => encTimeW 2 k.toNat 0 d.toNat p.toNat 0
  | .tadd k j d u => encTimeW 3 k.toNat j.toNat d.toNat 0 u.toNat
  | .tsub d k j => encTimeW 4 k.toNat j.toNat d.toNat 0 0
  | .tmov k j => encTimeW 5 k.toNat j.toNat 0 0 0
  | .twaitu k => encTimeW 6 k.toNat 0 0 0 0
  | .rcmd dd pk ts td => 0x16 * 2 ^ 26 + dd.toNat * 2 ^ 20 + pk.toNat * 2 ^ 16 + ts.toNat * 2 ^ 14 + td.toNat * 2 ^ 12
  | .rstat dd ds w => 0x17 * 2 ^ 26 + dd.toNat * 2 ^ 20 + ds.toNat * 2 ^ 14 + w.toNat * 2 ^ 13
  | .place r di b o c ts td tu =>
    0x18 * 2 ^ 26 + r.toNat * 2 ^ 21 + di.toNat * 2 ^ 15 + b.toNat * 2 ^ 10 + o.toNat * 2 ^ 9 + c.toNat * 2 ^ 6
      + ts.toNat * 16 + td.toNat * 4 + tu.toNat
  | .build dd pk tm => 0x19 * 2 ^ 26 + dd.toNat * 2 ^ 20 + pk.toNat * 2 ^ 16 + tm.toNat * 2 ^ 14
  | .nbr r di wr w dc =>
    0x1A * 2 ^ 26 + r.toNat * 2 ^ 21 + di.toNat * 2 ^ 15 + wr.toNat * 2 ^ 14 + w.toNat * 2 ^ 10 + dc.toNat * 2 ^ 4

/-- The word of an instruction. -/
def wencode (i : WInstr) : BitVec 32 := BitVec.ofNat 32 (wencodeNat i)

/-- The instruction has an encoding: no reserved field value (R258 to R285). -/
def WInstr.wf : WInstr → Bool
  | .alu f dd _ db => (!f.flagsOnly || dd == 0) && (!f.unary || db == 0)
  | .imm f dd _ _ => f != .cmpi || dd == 0
  | .shi _ _ _ c => decide (c.toNat < 24)
  | .movad _ _ w => decide (w.toNat < 5)
  | .movda _ _ w _ => decide (w.toNat < 5)
  | .mac2 _ _ ax ay _ _ _ _ => ax != ay
  | .movdl l _ => l != 3
  | .movld l _ => l != 3
  | .br c _ => c != 15
  | .loopi lc _ _ _ => lc != 3
  | .loopr lc _ _ _ => lc != 3
  | .tget _ _ p => p != 3
  | .tput _ _ p => p != 3
  | .place _ _ _ _ _ ts td tu => ts != td && ts != tu && td != tu
  | _ => true

/-- The instruction belongs to the W profile only, or to the S profile only (R259). -/
def WInstr.wOnly : WInstr → Bool
  | .mac _ _ _ | .msu _ _ _ | .mpa _ _ _ | .clra _ | .ext _ _ _ | .movad _ _ _ | .movda _ _ _ _ | .adda _ _
  | .suba _ _ | .sha _ _ | .nega _ | .absa _ | .sat48 _ | .mac2 _ _ _ _ _ _ _ _ | .twait | .tend _ | .tid _ => true
  | _ => false

def WInstr.sOnly : WInstr → Bool
  | .tnow _ | .tget _ _ _ | .tput _ _ _ | .tadd _ _ _ _ | .tsub _ _ _ | .tmov _ _ | .twaitu _ | .rcmd _ _ _ _
  | .rstat _ _ _ | .place _ _ _ _ _ _ _ _ | .build _ _ _ | .nbr _ _ _ _ _ => true
  | _ => false

/-- A branch, LOOP or HALT, which may not end a loop (R243, R273). -/
def WInstr.endsBad : WInstr → Bool
  | .br _ _ | .jal _ _ | .jr _ | .tend _ | .twait | .loopi _ _ _ _ | .loopr _ _ _ _ | .halt => true
  | _ => false

/-- What an OP6 whose group belongs to the other profile decodes to is code 0x02, whatever its fields (R259). -/
def groupOther (k : Nat) (w : BitVec 32) : Bool :=
  let op := w.toNat / 2 ^ 26
  if k < 64 then 0x15 ≤ op && op ≤ 0x1A else op == 0x0C || (0x20 ≤ op && op ≤ 0x2F)

end Sys2Proof
end

