-- ==== Sys2Proof/Machine/WickIssue.lean ====
section
/-! DEFINITION. Issue of one instruction by a core: fetch, decode, faults, loop ends and the cycle count (R232, R242 to
R245, R259 to R261). -/
namespace Sys2Proof.Machine

/-- The key of a core: Wicks 0 to 63, Lanterns 64 to 69. -/
def coreKey : Core → Nat
  | .wick n => n.val
  | .lantern k => 64 + k.val

/-- The fabric initiator that a core is. -/
def coreIni : Core → Ini
  | .wick n => .wick n
  | .lantern k => .lantern k

/-- A taken branch: loops whose body does not hold the target end (R244), and it costs 2 cycles (R261). -/
def WCore.jump (c : WCore) (target : Nat) : WCore :=
  { c with
    cyc := c.cyc + 2
    pc := target
    loops := c.loops.dropWhile fun (l : Loop) => !(decide (l.first ≤ target) && decide (target ≤ l.last)) }

/-- What the core finds at its pc: a fault code, or the instruction (R245, R259, R260). [DEDUCED, assumption 25;
DEDUCED, assumption 56] -/
def State.fetchW (s : State) (k : Nat) : Nat × Option WInstr :=
  let c := s.core k
  if imemSize k ≤ c.pc then (5, none)
  else
    let w := tabGet (0 : BitVec 32) c.imem c.pc
    if groupOther k w then (2, none)
    else
      match wdecode w with
      | none => (1, none)
      | some i =>
        if (if isW k then i.sOnly else i.wOnly) then (2, none)
        else if c.task.isSome && (i == .halt || i == .twait) then (6, none)
        else
          match i with
          | .tend _ | .tid _ => if c.task.isNone then (1, none) else (0, some i)
          | .dma ch _ _ _ _ _ => if !isW k && 2 ≤ ch.toNat then (1, none) else (0, some i)
          | i => (0, some i)

/-- Core `k` can issue: in service, running and waiting for nothing. -/
def State.canIssue (s : State) (k : Nat) : Bool :=
  !s.board.held && s.coreIn k && (s.core k).running && (s.core k).wait.isNone

/-- Both slots of an instruction are taken (R226, R228). -/
def fillsSlots : WInstr → Bool
  | .dmov _ _ => true
  | _ => false

/-- Cycles that a transfer of the core has waited once `i` has issued (R228). -/
def WCore.slotWait (c : WCore) (i : WInstr) : Nat :=
  if fillsSlots i && c.dma.any (fun e => e.2.busy) then c.waited + 1 else 0

/-- A transfer that runs waits while instructions leave no slot free; after 32 such cycles the core stalls for one
cycle, and a Wick counts it (R228, R457). [DEDUCED, assumption 161] -/
def State.slotStep (s : State) (k : Nat) (i : WInstr) : State :=
  let n := (s.core k).slotWait i
  let s := s.setCore k { s.core k with waited := n % 32 }
  if n = 32 && isW k then (s.bump (WICK_STALLS k)).event (97 + 4 * (k / 8)) else s

/-- The performance event of an issue, and the slots it leaves (R228, R457). -/
def State.issued (s : State) (k : Nat) (i : WInstr) : State :=
  let s := s.slotStep k i
  if isW k then s.event (96 + 4 * (k / 8)) else s

/-- Core `co` issues instruction `i`: nothing unless the core can issue; a fault where its pc holds one; nothing where
its pc holds another instruction, or while `holds` keeps it from issuing; else `f`, after results due by now have landed.
[DESIGN CHOICE, assumption 7] -/
def State.issueUnless (s : State) (co : Core) (i : WInstr) (holds : WCore → Bool) (f : State → State) : State :=
  let k := coreKey co
  if !s.canIssue k then s
  else
    match s.fetchW k with
    | (0, some j) =>
      if j = i && !holds (s.core k) then f ((s.setCore k ((s.core k).land (s.core k).cyc)).issued k i) else s
    | (0, none) => s
    | (code, _) => s.faultCore k code

/-- An instruction that nothing keeps from issuing. [DESIGN CHOICE, assumption 7] -/
def State.issue (s : State) (co : Core) (i : WInstr) (f : State → State) : State := s.issueUnless co i (fun _ => false) f

/-- An instruction that changes its core only, and then moves to the next (R261). -/
def State.issuePure (s : State) (co : Core) (i : WInstr) (f : Nat → WCore → WCore) : Out :=
  .next (s.issue co i fun s => s.setCore (coreKey co) (f (coreKey co) (s.core (coreKey co))).next)

/-- An instruction that sets its own pc: a branch or a LOOP. -/
def State.issueJump (s : State) (co : Core) (i : WInstr) (f : Nat → WCore → WCore) : Out :=
  .next (s.issue co i fun s => s.setCore (coreKey co) (f (coreKey co) (s.core (coreKey co))))

/-- Core `k` moves past an instruction that held issue until now: earlier results have landed (R261). [DEDUCED,
assumption 87] -/
def State.stepCore (s : State) (k : Nat) : State := s.setCore k (s.core k).drain.next

end Sys2Proof.Machine
end

