-- ==== Sys2Proof/Machine/WickAlu.lean ====
section
/-! DEFINITION. The data ALU and the immediate instructions (R262, R263). -/
namespace Sys2Proof.Machine

/-- ADD (R262): dd := da + db, saturating; Z N C V. -/
def execAdd (co : Core) (dd da db : BitVec 6) (s : State) : Out :=
  s.issuePure co (.alu .add dd da db) fun _ c =>
    c.addF dd (c.dr da) (c.dr db) false

/-- SUB (R262): dd := da - db, saturating; Z N C V. -/
def execSub (co : Core) (dd da db : BitVec 6) (s : State) : Out :=
  s.issuePure co (.alu .sub dd da db) fun _ c =>
    c.subF dd (c.dr da) (c.dr db) false

/-- ADC (R262): dd := da + db + C, saturating; Z N C V. -/
def execAdc (co : Core) (dd da db : BitVec 6) (s : State) : Out :=
  s.issuePure co (.alu .adc dd da db) fun _ c =>
    c.addF dd (c.dr da) (c.dr db) c.fC

/-- SBC (R262): dd := da - db - (1 - C), saturating; Z N C V. -/
def execSbc (co : Core) (dd da db : BitVec 6) (s : State) : Out :=
  s.issuePure co (.alu .sbc dd da db) fun _ c =>
    c.subF dd (c.dr da) (c.dr db) (!c.fC)

/-- AND (R262): dd := da and db; Z N, V := 0. -/
def execAnd (co : Core) (dd da db : BitVec 6) (s : State) : Out :=
  s.issuePure co (.alu .and dd da db) fun _ c =>
    c.logF dd (c.dr da &&& c.dr db)

/-- OR (R262): dd := da or db; Z N, V := 0. -/
def execOr (co : Core) (dd da db : BitVec 6) (s : State) : Out :=
  s.issuePure co (.alu .or dd da db) fun _ c =>
    c.logF dd (c.dr da ||| c.dr db)

/-- XOR (R262): dd := da xor db; Z N, V := 0. -/
def execXor (co : Core) (dd da db : BitVec 6) (s : State) : Out :=
  s.issuePure co (.alu .xor dd da db) fun _ c =>
    c.logF dd (c.dr da ^^^ c.dr db)

/-- ANDN (R262): dd := da and not db; Z N, V := 0. -/
def execAndn (co : Core) (dd da db : BitVec 6) (s : State) : Out :=
  s.issuePure co (.alu .andn dd da db) fun _ c =>
    c.logF dd (c.dr da &&& ~~~(c.dr db))

/-- LSL (R262): dd := da shifted left by db[4:0]; Z N C, V := 0. -/
def execLsl (co : Core) (dd da db : BitVec 6) (s : State) : Out :=
  s.issuePure co (.alu .lsl dd da db) fun _ c =>
    c.shiftF 0 dd (c.dr da) ((c.dr db).toNat % 32)

/-- LSR (R262): dd := da shifted right by db[4:0], zeros in; Z N C, V := 0. -/
def execLsr (co : Core) (dd da db : BitVec 6) (s : State) : Out :=
  s.issuePure co (.alu .lsr dd da db) fun _ c =>
    c.shiftF 1 dd (c.dr da) ((c.dr db).toNat % 32)

/-- ASR (R262): dd := da shifted right by db[4:0], sign in; Z N C, V := 0. -/
def execAsr (co : Core) (dd da db : BitVec 6) (s : State) : Out :=
  s.issuePure co (.alu .asr dd da db) fun _ c =>
    c.shiftF 2 dd (c.dr da) ((c.dr db).toNat % 32)

/-- ROR (R262): dd := da rotated right by db[4:0] mod 24; Z N C, V := 0. -/
def execRor (co : Core) (dd da db : BitVec 6) (s : State) : Out :=
  s.issuePure co (.alu .ror dd da db) fun _ c =>
    c.shiftF 3 dd (c.dr da) ((c.dr db).toNat % 32)

/-- MIN (R262): dd := the smaller of da and db, signed; Z N. -/
def execMin (co : Core) (dd da db : BitVec 6) (s : State) : Out :=
  s.issuePure co (.alu .min dd da db) fun _ c =>
    let v := if (c.dr da).toInt ≤ (c.dr db).toInt then c.dr da else c.dr db
    (c.zn v).res dd v 1

/-- MAX (R262): dd := the larger of da and db, signed; Z N. -/
def execMax (co : Core) (dd da db : BitVec 6) (s : State) : Out :=
  s.issuePure co (.alu .max dd da db) fun _ c =>
    let v := if (c.dr da).toInt ≤ (c.dr db).toInt then c.dr db else c.dr da
    (c.zn v).res dd v 1

/-- ABS (R262): dd := abs(da), saturating; Z N V. -/
def execAbs (co : Core) (dd da : BitVec 6) (s : State) : Out :=
  s.issuePure co (.alu .abs dd da 0) fun _ c =>
    c.satRes dd (c.dr da).toInt.natAbs 1

/-- NEG (R262): dd := -da, saturating; Z N V. -/
def execNeg (co : Core) (dd da : BitVec 6) (s : State) : Out :=
  s.issuePure co (.alu .neg dd da 0) fun _ c =>
    c.satRes dd (-(c.dr da).toInt) 1

/-- MOV (R262): dd := da; no flag. -/
def execMov (co : Core) (dd da : BitVec 6) (s : State) : Out :=
  s.issuePure co (.alu .mov dd da 0) fun _ c =>
    c.res dd (c.dr da) 1

/-- CMP (R262): flags of da - db, unsaturated; Z N C V. -/
def execCmp (co : Core) (da db : BitVec 6) (s : State) : Out :=
  s.issuePure co (.alu .cmp 0 da db) fun _ c =>
    c.cmpF (c.dr da) (c.dr db)

/-- TST (R262): flags of da and db; Z N, V := 0. -/
def execTst (co : Core) (da db : BitVec 6) (s : State) : Out :=
  s.issuePure co (.alu .tst 0 da db) fun _ c =>
    (c.zn (c.dr da &&& c.dr db)).setV false

/-- NORM (R262): dd := redundant sign bits of da; Z. -/
def execNorm (co : Core) (dd da : BitVec 6) (s : State) : Out :=
  s.issuePure co (.alu .norm dd da 0) fun _ c =>
    let v := BitVec.ofNat 24 (redundant (c.dr da))
    (c.flag 23 (v == 0)).res dd v 1

/-- MUL (R262): dd := da x db as integers, saturating; Z N V; latency 2 on a Wick, 4 on a Lantern (R240). -/
def execMul (co : Core) (dd da db : BitVec 6) (s : State) : Out :=
  s.issuePure co (.alu .mul dd da db) fun k c =>
    c.satRes dd ((c.dr da).toInt * (c.dr db).toInt) (if isW k then 2 else 4)

/-- MPYR (R262): dd := da x db extracted; Z N V; latency 2 on a Wick, 4 on a Lantern (R236, R238, R240). [DEDUCED,
assumption 58] -/
def execMpyr (co : Core) (dd da db : BitVec 6) (s : State) : Out :=
  s.issuePure co (.alu .mpyr dd da db) fun k c =>
    let p := product c.frac (c.dr da) (c.dr db)
    let e := extract24 c.rnd p.1 (2 ^ 24)
    (((c.zn e.1).setV (e.2 || p.2)).stickSV (e.2 || p.2)).res dd e.1 (if isW k then 2 else 4)

/-- SXB (R262): dd := da[7:0] sign-extended; no flag. -/
def execSxb (co : Core) (dd da : BitVec 6) (s : State) : Out :=
  s.issuePure co (.alu .sxb dd da 0) fun _ c =>
    c.res dd (((c.dr da).setWidth 8).signExtend 24) 1

/-- ZXB (R262): dd := da[7:0] zero-extended; no flag. -/
def execZxb (co : Core) (dd da : BitVec 6) (s : State) : Out :=
  s.issuePure co (.alu .zxb dd da 0) fun _ c =>
    c.res dd (((c.dr da).setWidth 8).setWidth 24) 1

/-- ADDI (R263): as ADD with imm14 sign-extended. -/
def execAddi (co : Core) (dd da : BitVec 6) (imm : BitVec 14) (s : State) : Out :=
  s.issuePure co (.imm .addi dd da imm) fun _ c =>
    c.addF dd (c.dr da) (imm.signExtend 24) false

/-- ANDI (R263): as AND with imm14 sign-extended. -/
def execAndi (co : Core) (dd da : BitVec 6) (imm : BitVec 14) (s : State) : Out :=
  s.issuePure co (.imm .andi dd da imm) fun _ c =>
    c.logF dd (c.dr da &&& imm.signExtend 24)

/-- ORI (R263): as OR with imm14 sign-extended. -/
def execOri (co : Core) (dd da : BitVec 6) (imm : BitVec 14) (s : State) : Out :=
  s.issuePure co (.imm .ori dd da imm) fun _ c =>
    c.logF dd (c.dr da ||| imm.signExtend 24)

/-- XORI (R263): as XOR with imm14 sign-extended. -/
def execXori (co : Core) (dd da : BitVec 6) (imm : BitVec 14) (s : State) : Out :=
  s.issuePure co (.imm .xori dd da imm) fun _ c =>
    c.logF dd (c.dr da ^^^ imm.signExtend 24)

/-- CMPI (R263): as CMP with imm14 sign-extended. -/
def execCmpi (co : Core) (da : BitVec 6) (imm : BitVec 14) (s : State) : Out :=
  s.issuePure co (.imm .cmpi 0 da imm) fun _ c =>
    c.cmpF (c.dr da) (imm.signExtend 24)

/-- SHI (R263): LSL, LSR, ASR or ROR by an immediate count. -/
def execShi (co : Core) (kind : BitVec 2) (dd da : BitVec 6) (count : BitVec 5) (s : State) : Out :=
  s.issuePure co (.shi kind dd da count) fun _ c =>
    c.shiftF kind.toNat dd (c.dr da) count.toNat

/-- LDI (R263): dd := imm20 sign-extended; no flag. -/
def execLdi (co : Core) (dd : BitVec 6) (imm : BitVec 20) (s : State) : Out :=
  s.issuePure co (.ldi dd imm) fun _ c =>
    c.res dd (imm.signExtend 24) 1

/-- LDHI (R263): dd := imm12 x 2^12 or dd[11:0]; no flag. -/
def execLdhi (co : Core) (dd : BitVec 6) (imm : BitVec 12) (s : State) : Out :=
  s.issuePure co (.ldhi dd imm) fun _ c =>
    c.res dd (imm ++ (c.dr dd).setWidth 12 : BitVec 24) 1

end Sys2Proof.Machine
end

