-- ==== Sys2Proof/Machine/WickCtl.lean ====
section
/-! DEFINITION. Pointer and control moves, control flow, and the SYS instructions of a core (R271 to R276). -/
namespace Sys2Proof.Machine

/-- PADDI (R271): pk := (pk + imm16) mod 2^16. -/
def execPaddi (co : Core) (pk : BitVec 4) (imm : BitVec 16) (s : State) : Out :=
  s.issuePure co (.paddi pk imm) fun _ c => c.setPtr pk (c.ptr pk + imm)

/-- PLDI (R271): pk := imm16. -/
def execPldi (co : Core) (pk : BitVec 4) (imm : BitVec 16) (s : State) : Out :=
  s.issuePure co (.pldi pk imm) fun _ c => c.setPtr pk imm

/-- MOVDP (R271): pk := da[15:0]. -/
def execMovdp (co : Core) (pk : BitVec 4) (da : BitVec 6) (s : State) : Out :=
  s.issuePure co (.movdp pk da) fun _ c => c.setPtr pk ((c.dr da).setWidth 16)

/-- MOVPD (R271): dd := pk zero-extended. -/
def execMovpd (co : Core) (pk : BitVec 4) (dd : BitVec 6) (s : State) : Out :=
  s.issuePure co (.movpd pk dd) fun _ c => c.res dd ((c.ptr pk).setWidth 24) 1

/-- CBSET (R271): cbk := FIRST from da, LAST from db. -/
def execCbset (co : Core) (k : BitVec 2) (da db : BitVec 6) (s : State) : Out :=
  s.issuePure co (.cbset k da db) fun _ c =>
    { c with cb := tabSet c.cb k.toNat ((c.dr da).setWidth 16 ++ (c.dr db).setWidth 16 : BitVec 32) }

/-- CBGET (R271): dd := FIRST or LAST of cbk. -/
def execCbget (co : Core) (k : BitVec 2) (dd : BitVec 6) (h : Bool) (s : State) : Out :=
  s.issuePure co (.cbget k dd h) fun _ c =>
    let v := tabGet (0 : BitVec 32) c.cb k.toNat
    c.res dd ((if h then v.extractLsb' 16 16 else v.extractLsb' 0 16).setWidth 24) 1

/-- MOVDL (R271): lcl := da[15:0]. -/
def execMovdl (co : Core) (l : BitVec 2) (da : BitVec 6) (s : State) : Out :=
  s.issuePure co (.movdl l da) fun _ c => { c with lc := tabSet c.lc l.toNat ((c.dr da).setWidth 16) }

/-- MOVLD (R271): dd := lcl. -/
def execMovld (co : Core) (l : BitVec 2) (dd : BitVec 6) (s : State) : Out :=
  s.issuePure co (.movld l dd) fun _ c => c.res dd ((tabGet (0 : BitVec 16) c.lc l.toNat).setWidth 24) 1

/-- MOVDW (R225, R271): wsr[23:0] := da. -/
def execMovdw (co : Core) (da : BitVec 6) (s : State) : Out :=
  s.issuePure co (.movdw da) fun k c => { c with wsr := wsrWrite k (c.dr da) }

/-- MOVWD (R271): dd := wsr[23:0]. -/
def execMovwd (co : Core) (dd : BitVec 6) (s : State) : Out :=
  s.issuePure co (.movwd dd) fun _ c => c.res dd (c.wsr.setWidth 24) 1

/-- MOVRD (R271): dd := rrb. -/
def execMovrd (co : Core) (dd : BitVec 6) (s : State) : Out :=
  s.issuePure co (.movrd dd) fun _ c => c.res dd (BitVec.ofNat 24 c.rrb.val) 1

/-- BR (R272): a jump when the condition holds. -/
def execBr (co : Core) (cond : BitVec 4) (target : BitVec 14) (s : State) : Out :=
  s.issueJump co (.br cond target) fun _ c =>
    if c.holds cond.toNat then c.jump target.toNat else c.next

/-- JAL (R273): pk := address + 1, and a jump. -/
def execJal (co : Core) (pk : BitVec 4) (target : BitVec 14) (s : State) : Out :=
  s.issueJump co (.jal pk target) fun _ c =>
    (c.setPtr pk (BitVec.ofNat 16 (c.pc + 1))).jump target.toNat

/-- JR (R273): a jump to pk[13:0]. -/
def execJr (co : Core) (pk : BitVec 4) (s : State) : Out :=
  s.issueJump co (.jr pk) fun _ c => c.jump ((c.ptr pk).toNat % 16384)

/-- A loop that R243 refuses. -/
def WCore.loopBad (c : WCore) (lc e : Nat) : Bool :=
  c.loops.any (fun l => l.lc == lc) || decide (3 ≤ c.loops.length) || c.loops.any (fun l => decide (l.last ≤ e))
    || decide (e ≤ c.pc)
    || (match wdecode (tabGet (0 : BitVec 32) c.imem e) with
        | some i => i.endsBad
        | none => false)

/-- A loop starts, or its body is skipped (R242). [DEDUCED, assumption 57] -/
def WCore.loop (c : WCore) (lc : Nat) (rot : Bool) (count : BitVec 16) (e : Nat) : WCore :=
  if count = 0 then { c with cyc := c.cyc + 1, pc := e + 1 }
  else
    { c with
      cyc := c.cyc + 1
      pc := c.pc + 1
      lc := tabSet c.lc lc count
      loops := ⟨lc, c.pc + 1, e, rot⟩ :: c.loops }

/-- A LOOP issues, or faults with code 0x03 (R243). -/
def State.loopIssue (s : State) (co : Core) (i : WInstr) (lc : Nat) (rot : Bool) (count : WCore → BitVec 16)
    (e : WCore → Nat) : Out :=
  .next (s.issue co i fun s =>
    let k := coreKey co
    let c := s.core k
    if c.loopBad lc (e c) then s.faultCore k 3 else s.setCore k (c.loop lc rot (count c) (e c)))

/-- LOOPI (R242, R274). -/
def execLoopi (co : Core) (lc : BitVec 2) (rot : Bool) (count : BitVec 16) (off : BitVec 7) (s : State) : Out :=
  s.loopIssue co (.loopi lc rot count off) lc.toNat rot (fun _ => count) fun c => c.pc + 1 + off.toNat

/-- LOOPR (R242, R274). -/
def execLoopr (co : Core) (lc : BitVec 2) (rot : Bool) (dc : BitVec 6) (e : BitVec 14) (s : State) : Out :=
  s.loopIssue co (.loopr lc rot dc e) lc.toNat rot (fun c => (c.dr dc).setWidth 16) fun _ => e.toNat

/-- NOP (R275). -/
def execNop (co : Core) (s : State) : Out := s.issuePure co .nop fun _ c => c

/-- ROT (R223, R275). -/
def execRot (co : Core) (s : State) : Out := s.issuePure co .rot fun _ c => c.rotate

/-- HALT (R260, R275): earlier results land, RUN reads 0, STATE 0. -/
def execHalt (co : Core) (s : State) : Out :=
  .next (s.issue co .halt fun s =>
    let k := coreKey co
    s.setCore k { (s.core k).next with st := .halted, inflight := [], d := (s.core k).drain.d })

/-- TWAIT (R260, R275): the core offers itself to Chandler. -/
def execTwait (co : Core) (s : State) : Out :=
  .next (s.issue co .twait fun s =>
    let k := coreKey co
    s.setCore k { (s.core k).drain.next with wait := some .dispatch })

/-- The code of a TEND: a reserved value ends the task with BAD_ARGUMENT (R276). -/
def codeOf : Nat → Code
  | 0 => .ok | 1 => .tooLate | 2 => .keyGone | 3 => .keySpent | 4 => .tagFail | 5 => .deadlineMissed
  | 6 => .noBuffer | 7 => .fenced | 8 => .inSteps | 9 => .versionMismatch | 10 => .refused | _ => .badArgument

/-- TEND (R276, R307): the completion is committed and the core waits for its next dispatch; while the fabric holds an
earlier FST the instruction waits. -/
def execTend (co : Core) (d : BitVec 6) (s : State) : Out :=
  .next (s.issueUnless co (.tend d) (fun c => c.fstHeld.isSome) fun s =>
    let k := coreKey co
    let c := s.core k
    match c.task with
    | some i =>
      let code := codeOf ((c.dr d).toNat % 256)
      let s := s.setCore k { c.drain with task := none, wait := some .dispatch, loops := [] }
      s.complete i k code
    | none => s)

/-- TID (R275): d := the running task's descriptor. -/
def execTid (co : Core) (d : BitVec 6) (s : State) : Out :=
  s.issuePure co (.tid d) fun _ c => c.res d (BitVec.ofNat 24 (c.task.getD 0)) 1

/-- DMAWT (R275): d := the channel's last code once it is idle; until then issue is held at this pc. -/
def execDmawt (co : Core) (d : BitVec 6) (ch : BitVec 2) (s : State) : Out :=
  .next (s.issue co (.dmawt d ch) fun s =>
    let k := coreKey co
    let c := s.core k
    let h := tabGet ({} : DmaCh) c.dma ch.toNat
    if h.busy then s.setCore k { c with wait := some (.dma ch.toNat d) }
    else s.setCore k (c.put d (BitVec.ofNat 24 h.code.val)).next)

/-- DMAST (R275): d := 0x100 if the channel is busy, else its last code. -/
def execDmast (co : Core) (d : BitVec 6) (ch : BitVec 2) (s : State) : Out :=
  s.issuePure co (.dmast d ch) fun _ c =>
    let h := tabGet ({} : DmaCh) c.dma ch.toNat
    c.res d (if h.busy then 0x100 else BitVec.ofNat 24 h.code.val) 1

/-- FENCE (R275): every earlier FST has been performed; while one is held the instruction waits. -/
def execFence (co : Core) (s : State) : Out :=
  .next (s.issueUnless co .fence (fun c => c.fstHeld.isSome) fun s => s.stepCore (coreKey co))

/-- DMA (R277): the transfer starts; on a busy channel the instruction holds issue. -/
def execDma (co : Core) (ch : BitVec 2) (out : Bool) (mode : BitVec 2) (pk : BitVec 4) (n : BitVec 5) (dc : BitVec 6)
    (s : State) : Out :=
  .next (s.issueUnless co (.dma ch out mode pk n dc) (fun c => (tabGet ({} : DmaCh) c.dma ch.toNat).busy) fun s =>
    let k := coreKey co
    let c := s.core k
    let h : DmaCh := {
      busy := true
      outbound := out
      mode := mode.toNat
      fabric := c.pairAddr n
      loc := (c.ptr pk).toNat
      count := (c.dr dc).toNat % 8192
      code := .ok }
    s.setCore k { c with dma := tabSet c.dma ch.toNat h }.next)

end Sys2Proof.Machine
end

