-- ==== Sys2Proof/Machine/Lamp.lean ====
section
/-! DEFINITION. The commands and events of the lamps (ch. 04): requests, tuning, calibration, listen-before-talk,
transmission and twin-lamp pairs. -/
namespace Sys2Proof.Machine

/-- A write access to the window of lamp `n`: a bus error while the lamp is fenced or its domain is off (R22, R412). -/
def State.lampAccess (s : State) (t : Nat) (n : Nat) (by_ : Ini) (k : State → State) : Out :=
  s.access t (LAMP_STATE_CTL n) by_ (fun s => !s.inService n) k

/-- LAMPn_STATE_CTL with request `req`. -/
def stateCtl (req : Nat) (fcorr : Bool) : Word := BitVec.ofNat 32 (fcorr.toNat * 256 + req)

/-- REQ_OFF (R94). -/
def execReqOff (t : Nat) (by_ : Ini) (n : Fin 3) (fcorr : Bool) (s : State) : Out :=
  s.lampAccess t n.val by_ fun s => s.stateWrite n.val (stateCtl 0 fcorr)

/-- REQ_STANDBY (R94). -/
def execReqStandby (t : Nat) (by_ : Ini) (n : Fin 3) (fcorr : Bool) (s : State) : Out :=
  s.lampAccess t n.val by_ fun s => s.stateWrite n.val (stateCtl 1 fcorr)

/-- REQ_RX (R94). -/
def execReqRx (t : Nat) (by_ : Ini) (n : Fin 3) (fcorr : Bool) (s : State) : Out :=
  s.lampAccess t n.val by_ fun s => s.stateWrite n.val (stateCtl 2 fcorr)

/-- LAMP_POWER_UP_COMPLETE (R93): the bias has settled; a stored request takes effect. -/
def execLampPowerUpComplete (t : Nat) (n : Fin 3) (s : State) : Out :=
  s.when t (n.val + 1) fun s =>
    let l := s.lamp n.val
    if l.st == .off && l.move == .powerUp then
      ((s.lampMove n.val .idle s.clk).lampTo n.val .standby).takeReq n.val
    else s

/-- RX_SETTLE_COMPLETE (R93, R94). -/
def execRxSettleComplete (t : Nat) (n : Fin 3) (s : State) : Out :=
  s.when t (n.val + 1) fun s =>
    let l := s.lamp n.val
    if l.st == .standby && l.move == .rxSettle && decide (l.due ≤ s.clk) then s.enterRx n.val else s

/-- A tuned centre is acted on, or waits for the turn-round, a calibration, SETTLE or the reference (R96, R99). -/
def State.retune (s : State) (n : Nat) : State :=
  let l := s.lamp n
  match l.st with
  | .rx => if s.board.refOk && !l.partnerTx then s.startSettle n else s.onLamp n fun l => { l with retuneWait := true }
  | .rxToTx | .tx | .txToRx | .settle => s.onLamp n fun l => { l with retuneWait := true }
  | .cal =>
    (match l.calRun with
    | some r => if r.former == .rx then s.onLamp n fun l => { l with retuneWait := true } else s
    | none => s)
  | _ => s

/-- LAMPn_TUNE written (R96, R117). -/
def State.tuneWrite (s : State) (n : Nat) (v : Word) : State :=
  if s.isUpper n then s
  else (s.members n).foldl (fun s m => s.retune m) (s.setReg (LAMP_TUNE n) (BitVec.ofNat 32 (fld v 21 0)))

/-- LAMP_TUNE_WRITE (R96). -/
def execLampTuneWrite (t : Nat) (by_ : Ini) (n : Fin 3) (v : Word) (s : State) : Out :=
  s.lampAccess t n.val by_ fun s => s.tuneWrite n.val v

/-- SETTLE of lamp `n` ends with lock (R96): queued commands off the new centre end with BAD_ARGUMENT (R105), and a
span pair aligns its seam again (R128). -/
def State.settled (s : State) (n : Nat) : State :=
  let l := s.lamp n
  if l.st == .settle && l.move == .settle && decide (l.due ≤ s.clk) && s.board.refOk then
    let s := s.setLamp n { l with locked := true, refLost := false, synth := s.synthOf n l.centre, synthAt := s.clk }
    let s := s.failQueued n (fun x => decide (x.chan < l.centre - 32000000) || decide (l.centre + 32000000 < x.chan))
      .badArgument
    let s := if s.span && s.paired n then { s with pair := { s.pair with seamDue := some (s.clk + 200000) } } else s
    s.enterRx n
  else s

/-- SETTLE_COMPLETE (R96). -/
def execSettleComplete (t : Nat) (n : Fin 3) (s : State) : Out :=
  s.when t (n.val + 1) fun s => (s.members n.val).foldl (fun s m => s.settled m) s

/-- LOCK_FAIL (R97): never without a reference (R99). -/
def execLockFail (t : Nat) (n : Fin 3) (s : State) : Out :=
  s.when t (n.val + 1) fun s =>
    let l := s.lamp n.val
    if l.st == .settle && l.move == .settle && decide (l.settleAt + 200000 ≤ s.clk) && s.board.refOk then
      let off := l.reqWait == some 0
      let s := s.setLamp n.val { l with calValid := l.calValid &&& 0xE, centre := 0, reqWait := none, retuneWait := false }
      let s := (s.lampStandby n.val).setRb (LAMP_STATUS n.val) 15 true
      if off then s.lampOff n.val else s
    else s

/-- The recomputed synthesiser word: at most 2 Hz per MHz of f from the present one (R98). -/
def synthMove (cur want f : Int) : Int := clampI (cur - 2 * f * 2 ^ 40 / 1000000) (cur + 2 * f * 2 ^ 40 / 1000000) want

/-- SYNTH_RECOMPUTE (R98): every 100 ms, without relocking. -/
def execSynthRecompute (t : Nat) (n : Fin 3) (s : State) : Out :=
  s.when t (n.val + 1) fun s =>
    let l := s.lamp n.val
    if l.locked && decide (l.synthAt + 100000000 ≤ s.clk) then
      s.setLamp n.val { l with
        synth := synthMove l.synth (s.synthOf n.val l.centre) l.centre
        synthAt := s.clk }
    else s

/-- LAMPn_CAL_CTL written (R103): AUTO, and RUN starts, is held, or is refused. -/
def State.calWrite (s : State) (n : Nat) (v : Word) : State :=
  let s := s.setReg (LAMP_CAL_CTL n) (BitVec.ofNat 32 ((bit v 8).toNat * 256))
  let run := BitVec.ofNat 4 (fld v 3 0)
  let l := s.lamp n
  if run = 0 then s
  else if l.calibrating || l.st == .off then s.setRb (LAMP_CAL_STATUS n) 24 true
  else if l.st == .standby || l.st == .rx then s.startCal n run
  else s.setLamp n { l with calHeld := l.calHeld ||| run }

/-- FOREGROUND_CALIBRATION (R103). -/
def execForegroundCalibration (t : Nat) (by_ : Ini) (n : Fin 3) (v : Word) (s : State) : Out :=
  s.lampAccess t n.val by_ fun s => s.calWrite n.val v

/-- The coefficients of calibration `i` are replaced (R101). A run with an idle synthesiser has no centre: it counts
as one at 0 Hz, so that DC and IMG become due at the first lock. [DESIGN CHOICE, assumption 155] -/
def State.calInstall (s : State) (n i : Nat) : State :=
  s.onLamp n fun l => { l with
    calValid := l.calValid ||| (1#4 <<< i)
    calDue := l.calDue &&& ~~~(1#4 <<< i)
    calTemp := tabSet l.calTemp i l.temp
    calAt := tabSet l.calAt i s.clk
    calCentre := tabSet l.calCentre i l.centre }

/-- The return after the last step of a run: 5 us, or the 60 us relock after an OSC step (R93, R104). -/
def State.calReturn (s : State) (n i : Nat) : State :=
  s.lampMove n .calReturn (s.clk + (if i = 0 then 60000 else 5000))

/-- A 50 us step of lamp `n` ends (R101 to R104). -/
def State.calStep (s : State) (n : Nat) : State :=
  let l := s.lamp n
  match l.calRun with
  | none => s
  | some r =>
    if l.move == .calStep && decide (l.due ≤ s.clk) then
      let s := s.event (32 * n + 28)
      let k := (if r.fore then r.done else tabGet 0 l.bgDone r.cur) + 1
      let full := decide (calSteps r.cur ≤ k)
      let s := if full then s.calInstall n r.cur else s
      if r.fore then
        if !full then
          (s.onLamp n fun l => { l with calRun := some { r with done := k } }).lampMove n .calStep (s.clk + 50000)
        else
          let rest := r.sel &&& ~~~(1#4 <<< r.cur)
          match calFirst rest with
          | some i =>
            (s.onLamp n fun l => { l with calRun := some { r with sel := rest, cur := i, done := 0 } }).lampMove n
              .calStep (s.clk + 50000)
          | none => (s.onLamp n fun l => { l with calRun := some { r with sel := rest, done := k } }).calReturn n r.cur
      else
        (s.onLamp n fun l => { l with bgDone := tabSet l.bgDone r.cur (if full then 0 else k) }).calReturn n r.cur
    else s

/-- CAL_STEP_COMPLETE (R101). -/
def execCalStepComplete (t : Nat) (n : Fin 3) (s : State) : Out :=
  s.when t (n.val + 1) fun s => s.calStep n.val

/-- CAL_RETURN_COMPLETE (R102): the lamp is back in its former state, the operation closes OK, and stored requests take
effect. -/
def execCalReturnComplete (t : Nat) (n : Fin 3) (s : State) : Out :=
  s.when t (n.val + 1) fun s =>
    let l := s.lamp n.val
    match l.calRun with
    | none => s
    | some r =>
      if l.move == .calReturn && decide (l.due ≤ s.clk) then
        let s := if r.fore then s.calClose n.val .ok else s.onLamp n.val fun l => { l with calRun := none }
        if r.former == .rx then s.enterRx n.val
        else ((s.lampMove n.val .idle s.clk).lampTo n.val .standby).takeReq n.val
      else s

/-- Gap that a background step of calibration `i` needs, in ns (R104). [DESIGN CHOICE, assumption 42] -/
def calNeed (i : Nat) : Nat := if i = 0 then 110000 else 55000

/-- BACKGROUND_CAL_STEP (R104, R441): within an offered gap and the second's budget. -/
def execBackgroundCalStep (t : Nat) (n : Fin 3) (s : State) : Out :=
  s.when t (n.val + 1) fun s =>
    let l := s.lamp n.val
    match calFirst l.calDue with
    | none => s
    | some i =>
      let now := s.now
      let fits := l.gaps.any fun g => decide (g.s ≤ now) && decide (now + calNeed i ≤ g.usable)
      if s.rb (LAMP_CAL_CTL n.val) 8 && l.st == .rx && !l.calibrating && fits && s.board.refOk
          && decide (l.bgSecond < s.rf SYS_BG_CAL 7 0) then
        let s := s.setLamp n.val { l with
          calRun := some { fore := false, sel := 1#4 <<< i, cur := i, done := 0, former := .rx }
          bgSecond := l.bgSecond + 1
          move := .calStep
          due := s.clk + 50000 }
        (s.bump (SYS_BG_CAL_STEPS n.val)).lampTo n.val .cal
      else s

/-- Calibration `i` of lamp `l` has become due at instant `clk` (R100). [DESIGN CHOICE, assumption 42] -/
def Lamp.isDue (l : Lamp) (clk i : Nat) : Bool :=
  l.calValid.getLsbD i &&
    (decide (160 ≤ (l.temp - tabGet 0 l.calTemp i).natAbs) ||
     (decide (i ≠ 0) && decide (tabGet 0 l.calAt i + 600000000000 ≤ clk)) ||
     ((i == 1 || i == 3) && decide (l.centre ≠ 0) && decide (50000000 < (l.centre - tabGet 0 l.calCentre i).natAbs)))

/-- CAL_DUE (R100): the die temperature is sampled, and calibrations become due by temperature, age or retune. -/
def execCalDue (t : Nat) (n : Fin 3) (temp : BitVec 16) (s : State) : Out :=
  s.when t (n.val + 1) fun s =>
    let l := { s.lamp n.val with temp := temp.toInt }
    s.setLamp n.val { l with
      calDue := (List.range 4).foldl (fun d i => if l.isDue s.clk i then d ||| (1#4 <<< i) else d) l.calDue }

/-! ### Listen-before-talk and transmission -/

/-- The first queued command that listens next (R111). -/
def State.listener (s : State) (n : Nat) : Option TxCmd :=
  (s.lamp n).queue.find? fun x =>
    !x.ack && x.listens && x.clear.isNone && x.listen.isNone && decide (x.lbtFrom ≤ s.now)

/-- The queued command `x` of lamp `n` replaced by `y`. -/
def State.swapTx (s : State) (n : Nat) (x y : TxCmd) : State :=
  s.onLamp n fun l => { l with queue := l.queue.map fun z => if z == x then y else z }

/-- LBT_LISTEN_START (R111). -/
def execLbtListenStart (t : Nat) (n : Fin 3) (s : State) : Out :=
  s.when t (n.val + 1) fun s =>
    match s.listener n.val with
    | none => s
    | some x =>
      if (s.lamp n.val).st != .rx then s
      else if x.d < s.now + x.listenUs * 1000 + 25000 then s.failQueued n.val (· == x) .deadlineMissed
      else s.swapTx n.val x { x with listen := some s.clk }

/-- A window at or above THRESH; powers are in hundredths of a dBm (R110). -/
def busyOf (prof : Word) (powers : List Int) : Bool := powers.any fun p => decide (sfld prof 23 16 * 100 ≤ p)

/-- R112: a busy listen of an acknowledgement is counted only in CNT_ACK_DROP. -/
def State.txFailBusy (s : State) (n : Nat) (x : TxCmd) : State := (s.giveCode x.owner .deadlineMissed).ackDrop n

/-- The listen of an acknowledgement inside RX_TO_TX ends (R112): a busy one is withdrawn, and RX_TO_TX gives way to
TX_TO_RX from the decision. -/
def State.ackListenEnd (s : State) (n : Nat) (r : TxRun) (powers : List Int) : State :=
  if s.clk < r.start + r.cmd.listenUs * 1000 then s
  else if !busyOf r.cmd.profA powers then s.onLamp n fun l => { l with run := some { r with listening := false } }
  else
    ((s.txFailBusy n r.cmd).onLamp n fun l => { l with
      run := none, early := true, turnAt := s.clk, due := s.clk + 20000 }).lampTo n .txToRx

/-- LBT_LISTEN_END (R111, R112): the windows' powers decide. [DESIGN CHOICE, assumption 47] -/
def execLbtListenEnd (t : Nat) (n : Fin 3) (powers : List Int) (s : State) : Out :=
  s.when t (n.val + 1) fun s =>
    match (s.lamp n.val).run.filter (·.listening) with
    | some r => s.ackListenEnd n.val r powers
    | none =>
    let due := (s.lamp n.val).queue.find? fun x => match x.listen with
      | some b => decide (b + x.listenUs * 1000 ≤ s.clk)
      | none => false
    match due with
    | none => s
    | some x =>
      if !busyOf x.profA powers then s.swapTx n.val x { x with listen := none, clear := some s.now }
      else
        let s := (s.bump (LAMP_CNT_LBT_BUSY n.val)).event (32 * n.val + 25)
        if x.attempt = fld x.profB 31 28 then s.failQueued n.val (· == x) .deadlineMissed
        else
          let r := s.draw (fld x.profB 19 0 + 1)
          r.2.swapTx n.val x { x with listen := none, attempt := x.attempt + 1, lbtFrom := s.now + r.1 * 1000 }

/-- The command that begins RX_TO_TX now (R106). -/
def State.starter (s : State) (n : Nat) : Option TxCmd :=
  (s.lamp n).queue.find? fun x => decide (x.s ≤ s.now + 25000) && (x.ack || !x.listens || x.clear.isSome)

/-- COEF0 to COEF16 of a shaping set (R150). -/
def State.shapeSet (s : State) (n : Nat) (bt3 : Bool) : List Nat :=
  (List.range 17).map fun k => s.rf (if bt3 then LENS_SHP3 n k else LENS_SHP5 n k) 15 0

/-- RX_TO_TX_START (R106, R112): the transmit command takes effect and blanks the lamp; an acknowledgement that is to
listen begins to. The first symbol leaves the land within 6 ns of T (R78): `skew` is 6 ns more than the difference.
[DESIGN CHOICE, assumption 168] -/
def execRxToTxStart (t : Nat) (n : Fin 3) (skew : Fin 13) (s : State) : Out :=
  s.when t (n.val + 1) fun s =>
    let s := s.expireTx n.val
    let l := s.lamp n.val
    if l.st != .rx || l.refLost then s
    else
      match s.starter n.val with
      | none => s
      | some x =>
        let s := s.onLamp n.val fun l => { l with queue := l.queue.filter fun y => !(y == x) }
        let w0 : Word := (s.imgWord x).getD 0
        if (s.imgWord x).isSome && tapSum (s.shapeSet n.val (bit w0 30)) = 0 then s.txFail n.val x .badArgument
        else
          let s := s.onLamp n.val fun l => { l with
            run := some {
              cmd := x, start := s.clk, first := s.clk + 24994 + skew.val, len := imageLen w0, listening := x.ack && x.listens
              img := (s.imgBytes x (imageLen w0)).getD [], coefs := s.shapeSet n.val (bit w0 30) }
            turnAt := s.clk
            early := false
            due := s.clk + 24000 }
          let s := ((s.lampTo n.val .rxToTx).setPartner n.val true).event (32 * n.val + 23)
          if !s.imgReads x (imageLen w0) then s.stopTx n.val (some .fenced) else s

/-- RX_TO_TX_END (R106, R108): the power level is taken, and the first symbol leaves 1 us later. -/
def execRxToTxEnd (t : Nat) (n : Fin 3) (s : State) : Out :=
  s.when t (n.val + 1) fun s =>
    let l := s.lamp n.val
    match l.run with
    | none => s
    | some r =>
      if l.st == .rxToTx && decide (l.due ≤ s.clk) && !r.listening then
        if !s.imgReads r.cmd r.len then s.stopTx n.val (some .fenced)
        else
          (s.setLamp n.val { l with
            level := s.rf (LAMP_TXPWR n.val) 5 0
            due := r.first + r.cmd.dur }).lampTo n.val .tx
      else s

/-- TRANSMISSION_END (R93): the last symbol has left the land, the command ends OK and TX_TO_RX begins. -/
def execTransmissionEnd (t : Nat) (n : Fin 3) (s : State) : Out :=
  s.when t (n.val + 1) fun s =>
    let l := s.lamp n.val
    match l.run with
    | none => s
    | some r =>
      if l.st == .tx && decide (l.due ≤ s.clk) then
        if !s.imgReads r.cmd r.len then s.stopTx n.val (some .fenced)
        else
          let s := (s.onTime n.val).giveCode r.cmd.owner .ok
          (s.onLamp n.val fun l => { l with run := none, turnAt := s.clk, due := s.clk + 20000 }).lampTo n.val .txToRx
      else s

/-- TX_TO_RX_END (R93). -/
def execTxToRxEnd (t : Nat) (n : Fin 3) (s : State) : Out :=
  s.when t (n.val + 1) fun s =>
    let l := s.lamp n.val
    if l.st == .txToRx && decide (l.due ≤ s.clk) then s.turnDone n.val else s

/-- GAP_OFFER_END (R283): offers that have reached their D end OK. -/
def execGapOfferEnd (t : Nat) (n : Fin 3) (s : State) : Out :=
  s.when t (n.val + 1) fun s =>
    let now := s.now
    let l := s.lamp n.val
    let s := s.setLamp n.val { l with gaps := l.gaps.filter fun g => decide (now < g.d) }
    (l.gaps.filter fun g => decide (g.d ≤ now)).foldl (fun s (g : Gap) => s.giveCode g.owner .ok) s

/-! ### Twin-lamp -/

/-- Lamp `n` can join a pair (R28, R117). [DEDUCED, assumption 48] -/
def State.canPair (s : State) (n : Nat) : Bool :=
  (s.lamp n).st == .standby && (s.lamp n).move == .idle && s.calOk n && s.inService n

/-- LAMP_PAIR_CTL written (R117, R120, R125). [DEDUCED, assumption 48] -/
def State.pairWrite (s : State) (v : Word) : State :=
  let p := fld v 1 0
  let kept : Word := v &&& 0x113
  if p = 0 then
    { s.dissolve with pair := { s.dissolve.pair with aligning := none } }.setReg LAMP_PAIR_CTL kept
  else if s.pair.formed then s.setRb LAMP_PAIR_STATUS 1 true
  else if p = 3 then s
  else if s.pair.aligning.isSome || !s.canPair (p - 1) || !s.canPair p then
    s.setRb LAMP_PAIR_STATUS 1 true
  else
    { s with pair := {
        formed := false, lower := p - 1, diversity := bit v 4, txUpper := bit v 8
        aligning := some 0, alignDue := s.clk + 200000 } }.setReg LAMP_PAIR_CTL kept

/-- PAIR_FORM (R117). -/
def execPairForm (t : Nat) (by_ : Ini) (v : Word) (s : State) : Out :=
  s.lampAccess t 1 by_ fun s => s.pairWrite v

/-- PAIR_ALIGN_COMPLETE (R117): the four steps have run and the pair is formed. -/
def execPairAlignComplete (t : Nat) (s : State) : Out :=
  s.when t 2 fun s =>
    if s.pair.aligning.isSome && decide (s.pair.alignDue ≤ s.clk) then
      { s with pair := { s.pair with formed := true, aligning := none } }
    else s

/-- PAIR_DISSOLVE (R120): PAIR = 0b00 is written with MODE and TX_LAMP of `v`. -/
def execPairDissolve (t : Nat) (by_ : Ini) (v : Word) (s : State) : Out :=
  s.lampAccess t 1 by_ fun s => s.pairWrite (setFld v 1 0 0)

/-- SEAM_ALIGN_COMPLETE (R128). -/
def execSeamAlignComplete (t : Nat) (s : State) : Out :=
  s.when t 4 fun s =>
    match s.pair.seamDue with
    | some d => if d ≤ s.clk then { s with pair := { s.pair with seamDue := none } } else s
    | none => s

end Sys2Proof.Machine
end

