-- ==== Sys2Proof/Machine/NetTime.lean ====
section
/-! DEFINITION. Network time: commands, slews, sources, the beacon servo, holdover and the pulse outputs (R62 to R79,
R463). -/
namespace Sys2Proof.Machine

/-- NTIM_SRC_CTL.MODE: 0 FREE, 1 PTP, 2 BEACON. -/
def State.ntMode (s : State) : Nat := s.rf NTIM_SRC_CTL 1 0

/-- The unapplied slew in ns, toward zero (R68). [DEDUCED, assumption 34] -/
def State.slewNs (s : State) : Int := s.slewFine.tdiv (2 ^ 40)

/-- NTIM_GUARD in ns (R74, R75). -/
def State.guard (s : State) : Int :=
  let g := s.reg NTIM_GUARD_CTL
  let base : Int := fld g 11 0 * 1000
  if s.ntim.holdover then
    min (base + ((fld g 31 24 : Int) * (s.now - s.ntim.holdFrom)).tdiv 1000000) (fld g 23 12 * 1000)
  else if s.ntim.guardSlew then base + (s.slewNs.natAbs : Int)
  else base

/-! ### Pulse outputs -/

/-- Pulse output `k`. -/
def State.ppsOf (s : State) (k : Nat) : Pps := tabGet {} s.pps k

/-- The state with output `k` replaced. -/
def State.setPps (s : State) (k : Nat) (p : Pps) : State := { s with pps := tabSet s.pps k p }

/-- NTIM_PPSk_START in network ns. [DEDUCED, assumption 38] -/
def State.ppsStart (s : State) (k : Nat) : Int :=
  ((s.rf (NTIM_PPS_START_SEC_HI k) 15 0 * 2 ^ 32 + (s.reg (NTIM_PPS_START_SEC_LO k)).toNat) * 1000000000
    + (s.reg (NTIM_PPS_START_NS k)).toNat : Nat)

/-- START, or the first START + n x PERIOD after `b` where START lies before `b` (R79). [DEDUCED, assumption 38] -/
def edgeFrom (start : Int) (period : Nat) (b : Int) : Option Int :=
  if b ≤ start then some start
  else if period = 0 then none
  else some (start + ((b - start) / period + 1) * period)

/-- PPS_OUT[k] as driven. -/
def State.ppsPin (s : State) (k : Nat) : Bool := (s.ppsOf k).pulseEnd.isSome != s.rb (NTIM_PPS_CTL k) 1

/-- Edges of output `k` strictly between `a` and `b` are not emitted (R69). -/
def State.ppsSkip (s : State) (k : Nat) (a b : Int) : State :=
  let p := s.ppsOf k
  match p.next with
  | none => s
  | some e =>
    if p.running && !p.stopping && decide (a < e) && decide (e < b) then
      let nx := if p.period = 0 then none else some (e + (b - e + p.period - 1) / p.period * p.period)
      (s.setPps k { p with next := nx, running := p.running && (nx.isSome || p.pulseEnd.isSome) }).setRb
        (NTIM_PPS_STATUS k) 1 true
    else s

/-! ### Steps -/

/-- A forward move from `a` to `b` (R69): pulses skipped, commands inside the interval missed, listens void. -/
def State.skipTo (s : State) (a b : Int) : State :=
  if b ≤ a then s
  else
    let s := (List.range 4).foldl (fun s k => s.ppsSkip k a b) s
    (List.range 3).foldl (fun s n =>
      let s := s.failQueued n (fun x => decide (a < x.s) && decide (x.s < b)) .deadlineMissed
      s.onLamp n fun l => { l with queue := l.queue.map fun (x : TxCmd) => { x with listen := none } }) s

/-- Network time becomes `ns`; a slew is cancelled (R66). -/
def State.setTime (s : State) (ns : Int) : State :=
  let a := s.now
  let s := (s.gclHold ns).fold
  let s := { s with ntim := { s.ntim with ofs := ns * 2 ^ 40, slewLeft := 0, guardSlew := false } }
  (s.setRb NTIM_STATUS 5 true).skipTo a ns

/-- Network time moves by `d` ns, fraction kept; a slew is cancelled (R66). -/
def State.stepTime (s : State) (d : Int) : State :=
  let a := s.now
  let s := (s.gclHold (a + d)).fold
  let s := { s with ntim := { s.ntim with ofs := s.ntim.ofs + d * 2 ^ 40, slewLeft := 0, guardSlew := false } }
  (s.setRb NTIM_STATUS 5 true).skipTo a (a + d)

/-- A slew of `d` ns starts and replaces any remainder (R66, R68). -/
def State.startSlew (s : State) (d : Int) : State :=
  let s := s.fold
  { s with ntim := { s.ntim with slewLeft := d * 2 ^ 40, slewPpm := s.rf NTIM_SLEW_CTL 9 0 } }

/-- NTIM_ARG_SEC_HI and NTIM_ARG_SEC_LO. -/
def State.argSec (s : State) : Nat := s.rf NTIM_ARG_SEC_HI 15 0 * 2 ^ 32 + (s.reg NTIM_ARG_SEC_LO).toNat

/-- NTIM_CMD written with OP `op` (R66, R67). -/
def State.ntimCmd (s : State) (op : Nat) : State :=
  let ns := (s.reg NTIM_ARG_NS).toNat
  if s.ntMode = 2 then s.setRb NTIM_STATUS 6 true
  else
    match op with
    | 1 =>
      if 1000000000 ≤ ns then s.setRb NTIM_STATUS 7 true
      else
        let s := s.setTime (s.argSec * 1000000000 + ns)
        { s with ntim := { s.ntim with valid := true } }
    | 2 =>
      if 1000000000 ≤ ns then s.setRb NTIM_STATUS 7 true else s.stepTime (sext 48 s.argSec * 1000000000 + ns)
    | 3 => s.startSlew (s.reg NTIM_ARG_NS).toInt
    | 4 =>
      let s := s.fold
      { s with ntim := { s.ntim with slewLeft := 0, guardSlew := false } }
    | _ => s.setRb NTIM_STATUS 7 true

/-- NTIM_SET (R66). -/
def execNtimSet (t : Nat) (by_ : Ini) (s : State) : Out := s.access t NTIM_CMD by_ (fun _ => false) fun s => s.ntimCmd 1
/-- NTIM_STEP (R66). -/
def execNtimStep (t : Nat) (by_ : Ini) (s : State) : Out := s.access t NTIM_CMD by_ (fun _ => false) fun s => s.ntimCmd 2
/-- SLEW (R66). -/
def execSlew (t : Nat) (by_ : Ini) (s : State) : Out := s.access t NTIM_CMD by_ (fun _ => false) fun s => s.ntimCmd 3
/-- CANCEL_SLEW (R66). -/
def execCancelSlew (t : Nat) (by_ : Ini) (s : State) : Out := s.access t NTIM_CMD by_ (fun _ => false) fun s => s.ntimCmd 4

/-- SLEW_COMPLETE (R64, R68). -/
def execSlewComplete (t : Nat) (s : State) : Out :=
  s.when t 0 fun s =>
    if s.slewFine = 0 then
      let s := s.fold
      { s with ntim := { s.ntim with guardSlew := false } }
    else s

/-- NTIM_RATE written (R64, R67). [DESIGN CHOICE, assumption 35] -/
def State.rateWrite (s : State) (v : Word) : State :=
  if s.ntMode = 2 then s.setRb NTIM_STATUS 6 true else s.fold.setReg NTIM_RATE v

/-- NTIM_RATE_WRITE (R64). -/
def execNtimRateWrite (t : Nat) (by_ : Ini) (v : Word) (s : State) : Out :=
  s.access t NTIM_RATE by_ (fun _ => false) fun s => s.rateWrite v

/-! ### Sources and holdover -/

/-- Holdover ends without a beacon: the guard returns to its base (R75, R463). [DEDUCED, assumption 37] -/
def State.endHold (s : State) : State :=
  { s with ntim := { s.ntim with holdover := false, guardSlew := false } }

/-- Holdover is declared in PTP mode from now (R75, R463). [DEDUCED, assumption 37] -/
def State.ptpHold (s : State) : State :=
  { s with ntim := { s.ntim with holdover := true, holdFrom := s.now } }

/-- NTIM_SRC_CTL written (R70, R75, R86, R463). -/
def State.srcWrite (s : State) (v : Word) : State :=
  let old := s.ntMode
  let new := if fld v 1 0 = 3 then old else fld v 1 0
  let hold := bit v 8
  let was := s.rb NTIM_SRC_CTL 8
  let s := s.setReg NTIM_SRC_CTL (BitVec.ofNat 32 (hold.toNat * 256 + new))
  if new = old then
    if old = 1 then (if hold && !was then s.ptpHold else if !hold then s.endHold else s) else s
  else
    let s := if old = 0 then s else s.endHold
    let s := { s with ntim := { s.ntim with
      missed := 0
      lastAccept := none
      windows := 0 } }
    if new = 1 && hold then s.ptpHold else s

/-- NTIM_MODE_WRITE (R463): NTIM_SRC_CTL is written. -/
def execNtimModeWrite (t : Nat) (by_ : Ini) (v : Word) (s : State) : Out :=
  s.access t NTIM_SRC_CTL by_ (fun _ => false) fun s => s.srcWrite v

/-- NTIM_HOLD_WRITE (R75): HOLD of NTIM_SRC_CTL is written, MODE unchanged. -/
def execNtimHoldWrite (t : Nat) (by_ : Ini) (hold : Bool) (s : State) : Out :=
  s.access t NTIM_SRC_CTL by_ (fun _ => false) fun s => s.srcWrite (BitVec.ofNat 32 (hold.toNat * 256 + s.ntMode))

/-- NTIM_BCN_PERIOD in ns. -/
def State.bcnPeriod (s : State) : Int := (s.reg NTIM_BCN_PERIOD).toNat * 1000

/-- Half-width of an acceptance window now (R72). -/
def State.bcnHalf (s : State) : Int :=
  s.rf NTIM_BCN_CTL 7 0 * 1000 + (s.guard - s.rf NTIM_GUARD_CTL 11 0 * 1000)

/-- BEACON_MISSED (R72, R74): the window of the next expected beacon has closed. -/
def execBeaconMissed (t : Nat) (s : State) : Out :=
  s.when t 0 fun s =>
    match s.ntim.lastAccept with
    | none => s
    | some l =>
      let half := min s.bcnHalf (s.bcnPeriod / 2)
      if s.ntMode = 2 && decide (l + (s.ntim.windows + 1) * s.bcnPeriod + half ≤ s.now) then
        let m := min 3 (s.ntim.missed + 1)
        let enter := m = 3 && s.ntim.missed = 2
        let s := { s with ntim := { s.ntim with
          missed := m
          windows := s.ntim.windows + 1
          holdover := s.ntim.holdover || enter
          holdFrom := if enter then l else s.ntim.holdFrom } }
        if enter then s.pulse (irqNo 2 0) else s
      else s

/-- The window test of R72 for a beacon stamped `rx`: a window that has closed as missed does not open again, and of
the others the one whose centre lies nearest judges the beacon. [DEDUCED, assumption 36] -/
def State.bcnInside (s : State) (rx : Int) : Bool :=
  match s.ntim.lastAccept with
  | none => true
  | some l =>
    let p := s.bcnPeriod
    let k : Int := max (s.ntim.windows + 1) ((2 * (rx - l) + p) / (2 * p))
    decide (((rx - l - k * p).natAbs : Int) ≤ s.bcnHalf)

/-- A beacon that decoded and whose tag verified is offered to the servo (R72, R73, R75): its sender, its time and its
receive stamp. An acceptance outside holdover leaves the guard at its base, whatever slew was in progress. [DEDUCED,
assumption 36; DESIGN CHOICE, assumption 146] -/
def State.beaconOffer (s : State) (member : Nat) (time rx : Int) : State :=
  if s.ntMode ≠ 2 || member ≠ s.rf NTIM_BCN_CTL 29 20 then s
  else if !s.bcnInside rx then s.bumpFld NTIM_BCN_STATUS 15 8
  else
    let s := s.bumpFld NTIM_BCN_STATUS 31 16
    let e := time + s.rf NTIM_BCN_PATH 19 0 - rx
    let step := decide (s.rf NTIM_BCN_CTL 15 8 * 1000 < e.natAbs)
    let prev := s.ntim.lastAccept
    let was := s.ntim.holdover
    let s := if step then s.stepTime e else s.startSlew e
    let s := { s with ntim := { s.ntim with
      valid := true
      holdover := false
      missed := 0
      windows := 0
      guardSlew := was && !step && e ≠ 0
      lastAccept := some (if step then rx + e else rx) } }
    let s := if was then s.pulse (irqNo 2 1) else s
    match prev with
    | none => s
    | some l =>
      let den := (rx - l) * 2 ^ s.rf NTIM_BCN_CTL 19 16
      let v := (s.reg NTIM_RATE).toInt + (e * 2 ^ 40).tdiv den
      let s := s.fold
      if den ≠ 0 ∧ -(2 ^ 31) ≤ v ∧ v < 2 ^ 31 then s.setReg NTIM_RATE (BitVec.ofInt 32 v)
      else
        let r := s.draw (2 ^ 32)
        r.2.setReg NTIM_RATE (BitVec.ofNat 32 r.1)

/-! ### Pulse output commands -/

/-- Output `k` takes the values of its registers: its next edge, or the end of an output that has no edge left.
[DEDUCED, assumption 38] -/
def State.ppsLoad (s : State) (k : Nat) : State :=
  let per := (s.reg (NTIM_PPS_PERIOD k)).toNat
  match edgeFrom (s.ppsStart k) per s.now with
  | some e => s.setPps k {
      running := true, period := per, width := (s.reg (NTIM_PPS_WIDTH k)).toNat, next := some e }
  | none => s.setPps k {}

/-- START, PERIOD or WIDTH of output `k` has been written (R79): a running output takes it after the pulse in
progress, and between two pulses at once. [DEDUCED, assumption 39] -/
def State.ppsParam (s : State) (k : Nat) : State :=
  let p := s.ppsOf k
  if p.running && p.pulseEnd.isNone then s.ppsLoad k else s

/-- NTIM_PPSk_CTL written (R79, R90). [DEDUCED, assumption 39] -/
def State.ppsWrite (s : State) (k : Nat) (v : Word) : State :=
  let p := s.ppsOf k
  let s := s.setReg (NTIM_PPS_CTL k) (BitVec.ofNat 32 (fld v 1 1 * 2))
  if bit v 0 then
    if p.running then s.setPps k { p with stopping := false }
    else
      let per := (s.reg (NTIM_PPS_PERIOD k)).toNat
      let w := (s.reg (NTIM_PPS_WIDTH k)).toNat
      if w = 0 || (per ≠ 0 && per ≤ w) then s.setRb (NTIM_PPS_STATUS k) 2 true
      else s.ppsLoad k
  else if p.running then
    s.setPps k (if p.pulseEnd.isSome then { p with stopping := true } else { p with running := false })
  else s

/-- PPS_ARM (R79). -/
def execPpsArm (t : Nat) (by_ : Ini) (k : Fin 4) (pol : Bool) (s : State) : Out :=
  s.access t (NTIM_PPS_CTL k.val) by_ (fun _ => false) fun s => s.ppsWrite k.val (BitVec.ofNat 32 (pol.toNat * 2 + 1))

/-- PPS_DISARM (R79). -/
def execPpsDisarm (t : Nat) (by_ : Ini) (k : Fin 4) (pol : Bool) (s : State) : Out :=
  s.access t (NTIM_PPS_CTL k.val) by_ (fun _ => false) fun s => s.ppsWrite k.val (BitVec.ofNat 32 (pol.toNat * 2))

/-- PPS_EDGE (R79): the next pulse of output `k` starts; the edge is a capture source (R83). -/
def execPpsEdge (t : Nat) (k : Fin 4) (s : State) : Out :=
  s.when t 0 fun s =>
    let p := s.ppsOf k.val
    match p.next with
    | none => s
    | some e =>
      if p.running && p.pulseEnd.isNone && decide (e ≤ s.now) then
        let s := s.setPps k.val { p with
          pulseEnd := some (e + p.width)
          next := if p.period = 0 then none else some (e + p.period) }
        s.capEdge (4 + k.val) (s.ppsPin k.val)
      else s

/-- PPS_PULSE_END (R79): writes made meanwhile take effect now. -/
def execPpsPulseEnd (t : Nat) (k : Fin 4) (s : State) : Out :=
  s.when t 0 fun s =>
    let p := s.ppsOf k.val
    match p.pulseEnd with
    | none => s
    | some e =>
      if e ≤ s.now then
        let s := if p.stopping || p.period = 0 then s.setPps k.val {} else s.ppsLoad k.val
        s.capEdge (4 + k.val) (s.ppsPin k.val)
      else s

/-- The read-only views of the NTIM registers but the latched ones. -/
def State.ntimView (s : State) (a : Nat) : Option Word :=
  if a = NTIM_SLEW_LEFT then some (BitVec.ofInt 32 s.slewNs)
  else if a = NTIM_STATUS then
    some (BitVec.ofNat 32 (s.rf a 7 5 * 32 + (decide (s.slewFine ≠ 0)).toNat * 8 + s.ntim.holdover.toNat * 4
      + s.ntim.valid.toNat))
  else if a = NTIM_BCN_STATUS then some (setFld (s.reg a) 1 0 s.ntim.missed)
  else if a = NTIM_GUARD then some (BitVec.ofInt 32 s.guard)
  else if 0x42000100 ≤ a && a < 0x42000180 then
    let k := (a - 0x42000100) / 0x20
    if a = NTIM_PPS_CTL k then some (BitVec.ofNat 32 (s.rf a 1 1 * 2 + (s.ppsOf k).running.toNat))
    else if a = NTIM_PPS_STATUS k then some (BitVec.ofNat 32 (s.rf a 2 1 * 2 + (s.ppsOf k).running.toNat))
    else none
  else none

end Sys2Proof.Machine
end

