-- ==== Sys2Proof/Machine/LantRx.lean ====
section
/-! DEFINITION. The Lantern hardware: classification, commit against the replay window, drift, acknowledgement, records and
received beacons (R189, R200 to R207, R213 to R216). -/
namespace Sys2Proof.Machine

/-! ### Classification (R200) -/

/-- A frame discarded and counted. -/
def State.rxDiscard (s : State) (i cnt : Nat) : State := (s.dropRx i).bump cnt

/-- The frame's cipher job enters the pending table, and its key is fetched (R315). -/
def State.rxSubmit (s : State) (i : Nat) (f : RxFrame) : State :=
  let s := s.setRx i { f with stage := .cipher }
  let s := { s with ciph := { s.ciph with frames := s.ciph.frames ++ [i] } }
  if f.beacon || !s.domOn 15 then s
  else
    match s.keyrefOf f.keyref f.epoch with
    | (true, r) => (s.fetchHalf r (f.epoch % 2)).1
    | _ => s

/-- Steps 4 to 7 of R200 for the frame of context `i`. [DEDUCED, assumption 86] -/
def State.rxLookup (s : State) (i : Nat) (f : RxFrame) : State :=
  match s.dirFind f.devid with
  | none => s.rxDiscard i LANT_CNT_FENCED
  | some none => (s.lantEvent 1 [f.devid, (f.stamp % 1000000000).toNat, wrap 32 (f.stamp / 1000000000)]).rxDiscard i LANT_CNT_UNKNOWN
  | some (some n) =>
    match s.nbrFetch n with
    | (s, none) => s.rxDiscard i LANT_CNT_FENCED
    | (s, some e) =>
      if !eActive e then
        (s.lantEvent 1 [f.devid, (f.stamp % 1000000000).toNat, wrap 32 (f.stamp / 1000000000)]).rxDiscard i LANT_CNT_UNKNOWN
      else
        let cur := f.epoch == eEpoch e
        let nxt := f.epoch == (eEpoch e + 1) % 256 && eBit e 1 28
        let back := (eHigh e + 2 ^ 24 - f.seq) % 2 ^ 24
        if !cur && !nxt then s.rxDiscard i LANT_CNT_EPOCH
        else if cur && eBit e 1 26 && decide (64 ≤ back) && decide (back ≤ 2 ^ 23) then s.rxDiscard i LANT_CNT_STALE
        else s.rxSubmit i { f with index := n, keyref := eKeyref e, nextKey := !cur }

/-- The addressing block of the frame of context `i` is read (R200). -/
def State.addressing (s : State) (i : Nat) : State :=
  match s.rxFrame i with
  | none => s
  | some f =>
    if f.stage ≠ .fresh || (f.cws.lookup 0).isNone then s
    else if f.type = 1 || f.type = 2 then s.rxDiscard i LANT_CNT_FOREIGN
    else if !f.lengthOk || !geometryOk f.hdr f.length then s.rxDiscard i LANT_CNT_BADLEN
    else if 0xFFFFFC00 ≤ f.devid then s.rxSubmit i { f with beacon := true }
    else if !s.rb NBR_CTL 31 then s.rxDiscard i LANT_CNT_UNKNOWN
    else s.rxLookup i f

/-- ADDRESSING_BLOCK_READ (R200). -/
def execAddressingBlockRead (t : Nat) (i : Fin 3072) (s : State) : Out := s.when t 13 fun s => s.addressing i.val

/-! ### Drift and quality (R206, R207) -/

/-- Round to the nearest of n / d, halves up. -/
def nearest (n : Int) (d : Int) : Int := (2 * n + d) / (2 * d)

/-- What R206 computes for a frame with stamp `t` and SCLK `c`: dc, dc_ns and err. -/
def driftErr (e : List Word) (t : Int) (c : Nat) : Int × Int × Int :=
  let dt := t - eTref e
  let num := dt * 2 ^ 15 * (2 ^ 32 - eDrift e)
  let den : Int := 1000000000 * 2 ^ 32
  let d0 : Int := ((c + 2 ^ 32 - (eWord e 8).toNat) % 2 ^ 32 : Nat)
  let dc := d0 + nearest (num - d0 * den) (den * 2 ^ 32) * 2 ^ 32
  let ns := dc * 1000000000 / 2 ^ 15
  (dc, ns, dt - (ns + (ns * eDrift e).tdiv (2 ^ 32)))

/-- The reference of the entry moved to a frame. -/
def eRef (e : List Word) (t : Int) (c upd : Nat) : List Word :=
  eSet ((eSetTref e t).set 8 (BitVec.ofNat 32 c)) 1 23 20 upd

/-- The drift update of a new_high frame (R206). [DEDUCED, assumption 85] -/
def State.driftUpdate (s : State) (i : Nat) (e : List Word) (t : Int) (c : Nat) : State × List Word :=
  let upd := eFld e 1 23 20
  if upd = 0 then (s, eRef e t c 1)
  else
    let (dc, ns, err) := driftErr e t c
    if dc ≤ 0 || decide (s.rf NBR_CTL 7 0 * 10000 < err.natAbs) then
      let sat := clampI (-(2 ^ 31)) (2 ^ 31 - 1) err
      ((s.bump LANT_CNT_RESYNC).lantEvent 5 [(eWord e 0).toNat, i, wrap 32 sat], eRef e t c 1)
    else
      let k := min (upd - 1) (s.rf NBR_CTL 27 24)
      let d := clampI (-(2 ^ 23 - 1)) (2 ^ 23 - 1) (eDrift e + (err * 2 ^ (32 - k)).tdiv ns)
      (s, eSet (eRef e t c (min 15 (upd + 1))) 9 31 8 (wrap 24 d))

/-- FOFS and LQI_AVG (R207): the first frame's values as they are; `first` says that it is. -/
def smooth (e : List Word) (f : RxFrame) (first : Bool) : List Word :=
  let fo := sfld (eWord e 10) 31 16
  let lq : Int := eFld e 9 7 0
  let fo' := if first then f.cfo else fo + (f.cfo - fo).tdiv 4
  let lq' := if first then (f.lqi : Int) else lq + ((f.lqi : Int) - lq).tdiv 8
  eSet (eSet e 10 31 16 (wrap 16 fo')) 9 7 0 (wrap 8 lq')

/-- CLASS, MOD4, BT3, MIC16 and LAMP copied from a frame. -/
def copyLink (e : List Word) (f : RxFrame) : List Word :=
  eSet e 10 7 0 (f.cls * 32 + f.mod4.toNat * 16 + f.bt3.toNat * 8 + (hdrMic16 f.hdr).toNat * 4 + f.lamp)

/-- A 16-bit counter of word 0x3C advanced. -/
def eCount (e : List Word) (hi lo : Nat) : List Word := eSet e 15 hi lo (min 0xFFFF (eFld e 15 hi lo + 1))

/-! ### Commit (R202) -/

/-- What the replay window makes of a sequence number. -/
inductive RxKind where
  | newHigh | newLate | dupLatest | dupOld | stale
  deriving DecidableEq, Repr

/-- The kind of a sequence number, and the entry with its window moved (R202). [DEDUCED, assumption 86] -/
def windowKind (e : List Word) (seq : Nat) : RxKind × List Word :=
  if !eBit e 1 26 then (.newHigh, eSet (eSet (eSetWin e 1) 2 23 0 seq) 1 26 26 1)
  else
    let d := (seq + 2 ^ 24 - eHigh e) % 2 ^ 24
    let b := (eHigh e + 2 ^ 24 - seq) % 2 ^ 24
    if d = 0 then (.dupLatest, e)
    else if d < 2 ^ 23 then
      (.newHigh, eSet (eSetWin e (if d < 64 then eWin e * 2 ^ d % 2 ^ 64 / 2 * 2 + 1 else 1)) 2 23 0 seq)
    else if b < 64 && (eWin e).testBit b then (.dupOld, e)
    else if b < 64 then (.newLate, eSetWin e (eWin e ||| 2 ^ b))
    else (.stale, e)

/-- A sensor acknowledgement whose tag verified (R213). -/
def State.sensorAck (s : State) (e : List Word) (seq : Nat) : State × List Word :=
  if eBit e 1 25 && seq == eDseq e then
    match s.msgHead e with
    | some (k, some m) =>
      (((s.lantEvent 3 [(eWord e 0).toNat, k, eFld m 1 31 16]).bump LANT_CNT_DL_DONE), eSet (popMsg e m) 1 25 25 0)
    | _ => (s.bump LANT_CNT_DL_DONE, eSet e 1 25 25 0)
  else (s.bump LANT_CNT_DUP_DROP, e)

/-- The acknowledgement that answers a frame (R189, R191): its header word with the CRC, and its coded stream. -/
def ackHeader (f : RxFrame) : Word :=
  hdrWithCrc (BitVec.ofNat 32 (2 ^ 28 + 3 * 2 ^ 25 + (hdrMic16 f.hdr).toNat * 2 ^ 13 + pairId f.devid f.seq * 64))

/-- The acknowledgement of frame `f` with FLAGS `fl` is encrypted and held for t0 + 225 us (R203, R204). [DEDUCED,
assumption 72] -/
def State.ackBuild (s : State) (i : Nat) (f : RxFrame) (fl : Nat) : State :=
  match s.encryptNow (s.keyrefOf f.keyref f.epoch) f.epoch true (micLen f.hdr) 2 with
  | (s, .ok key) =>
    let st := sealFrame key (ackHeader f) f.devid f.epoch f.seq [fl, 0]
    (s.setRx i { f with stage := .ack, ackFlags := fl, ackImage := st }).event (32 * 4 + 13) 2
  | (s, .error c) =>
    let s := s.dropRx i
    match c with
    | .keySpent | .keyGone => s.bump LANT_CNT_KEY
    | .fenced => s.bump LANT_CNT_FENCED
    | _ => s

/-- The record that a forwarded frame makes (R216). -/
def State.recordOf (s : State) (f : RxFrame) (acked late visitor : Bool) : List Byte :=
  let sec := wrap 48 (f.stamp / 1000000000)
  let words := [f.import_.isSome.toNat * 2 ^ 24 + f.lqi * 2 ^ 16 + acked.toNat * 2 ^ 15 + late.toNat * 2 ^ 14
      + f.paired.toNat * 2 ^ 13 + f.combined.toNat * 2 ^ 12 + f.offRaster.toNat * 2 ^ 11 + visitor.toNat * 2 ^ 10
      + f.cls * 32 + f.mod4.toNat * 16 + f.bt3.toNat * 8 + f.lamp,
    f.devid, f.epoch * 2 ^ 24 + f.seq, wrap 30 (f.stamp % 1000000000), sec % 2 ^ 32,
    wrap 16 f.cfo * 2 ^ 16 + sec / 2 ^ 32, wrap 16 f.fde * 2 ^ 16 + f.plain.length,
    s.rf LANT_CTL 9 0 * 2 ^ 22 + wrap 22 (roundDiv f.chan 100000)]
  words.flatMap (leBytes 4) ++ f.plain

/-- The commit of an uplink against its entry `e` of index `n` (R202, R204). -/
def State.commitUplink (s : State) (i n : Nat) (f : RxFrame) (e : List Word) : State :=
  let late := f.late || decide (f.t0 + 215000 < s.now)
  let s := if late && !f.late then (s.bump LANT_CNT_LATE).event (32 * 5 + 6) else s
  let fl := if eHead e = 0xFFFF then 0 else 1
  let first := eFld e 1 23 20 == 0
  let w := windowKind e f.seq
  let e := w.2
  let may := !late && !eBit e 1 29 && s.rb LANT_CTL 30
  let acked := may && (match w.1 with
    | .newHigh | .newLate => true
    | .dupLatest => eBit e 1 27
    | _ => false)
  let flags := if w.1 = .dupLatest then eFld e 5 31 24 else fl
  let r : State × List Word := match w.1 with
    | .newHigh =>
      let e := eSet (eSet e 5 31 24 fl) 1 27 27 1
      let r := s.driftUpdate n e f.stamp (beNat (f.plain.take 4))
      (r.1.bump LANT_CNT_ACCEPT, eCount (copyLink (smooth r.2 f first) f) 15 0)
    | .newLate => (s.bump LANT_CNT_ACCEPT, eCount (smooth e f first) 15 0)
    | .dupLatest =>
      let e := eCount (smooth e f first) 31 16
      if acked then ((s.bump LANT_CNT_DUP_ACK).event (32 * 5 + 5), e) else (s.bump LANT_CNT_DUP_DROP, e)
    | .dupOld => (s.bump LANT_CNT_DUP_DROP, eCount e 31 16)
    | .stale => (s.bump LANT_CNT_STALE, e)
  let s := r.1.nbrPut n r.2
  let new := w.1 = .newHigh || w.1 = .newLate
  let s := if new && s.rb LANT_CTL 31 then
      { s with lant := { s.lant with records := s.lant.records ++ [s.recordOf f acked late (eBit e 1 29)] } }
    else s
  if acked then s.ackBuild i { f with late := late } flags else s.dropRx i

/-- The verified frame of context `i` is committed (R199, R202). [DEDUCED, assumption 73] -/
def State.commit (s : State) (i : Nat) (f : RxFrame) : State :=
  match s.nbrFetch f.index with
  | (s, none) => s.rxDiscard i LANT_CNT_FENCED
  | (s, some e) =>
    let s := s.event (32 * 5 + 3)
    if !eActive e || eKeyref e ≠ f.keyref || (eWord e 0).toNat ≠ f.devid then s.rxDiscard i LANT_CNT_UNKNOWN
    else
      let adv := f.nextKey && eEpoch e == (f.epoch + 255) % 256 && eBit e 1 28
      let r : State × List Word := if adv then
          (s.lantEvent 2 [f.devid, f.index, f.epoch],
            eSet (eSet (eSet (eSet (eSet (eSet e 2 31 24 f.epoch) 1 28 28 0) 1 26 26 0) 5 23 0 0) 1 27 27 0) 1 25 25 0)
        else (s, e)
      let s := r.1.nbrPut f.index r.2
      if f.epoch ≠ eEpoch r.2 then s.rxDiscard i LANT_CNT_EPOCH
      else if f.type = 3 then
        let a := s.sensorAck r.2 f.seq
        (a.1.nbrPut f.index a.2).dropRx i
      else s.commitUplink i f.index f r.2

/-- COMMIT (R202). -/
def execCommit (t : Nat) (i : Fin 3072) (s : State) : Out :=
  s.when t 13 fun s =>
    match s.rxFrame i.val with
    | some f => if f.stage = .verified && !f.beacon then s.commit i.val f else s
    | none => s

/-- LATE_DECISION (R16, R204): an uplink has no decision by t0 + 215 us. -/
def execLateDecision (t : Nat) (i : Fin 3072) (s : State) : Out :=
  s.when t 13 fun s =>
    match s.rxFrame i.val with
    | some f =>
      if f.stage = .ack || f.late || f.beacon || f.type ≠ 0 || decide (s.now ≤ f.t0 + 215000) then s
      else ((s.setRx i.val { f with late := true }).bump LANT_CNT_LATE).event (32 * 5 + 6)
    | none => s

/-- The transmit command of a frame's acknowledgement (R203). -/
def State.ackCmd (s : State) (i : Nat) (f : RxFrame) : TxCmd :=
  let ofs := roundDiv (f.chan + f.cfo * 8000) 8000
  let base := s.lensOf f.lamp
  let lam := s.txLamp f.lamp ofs
  let prof := s.rf LANT_CTL (18 + 4 * lam) (16 + 4 * lam)
  { owner := .ackHw i, ack := true
    profA := s.reg (LAMP_PROF_A lam prof), profB := s.reg (LAMP_PROF_B lam prof)
    ofs := ofs, chan := s.centreOf base + 8 * ofs
    s := f.t0 + 250000, d := f.t0 + 250000, img := 0
    own := some (imageOf ⟨f.cls, f.mod4, f.bt3, hdrMic16 f.hdr⟩ (ackHeader f) f.ackImage)
    dur := 0, t0 := f.t0, bin := f.bin }

/-- ACK_TRANSMIT_COMMAND (R15, R203): at t0 + 225 us the command goes to the lamp; one that the lamp does not accept is
counted by the lamp (R105). -/
def execAckTransmitCommand (t : Nat) (i : Fin 3072) (s : State) : Out :=
  s.when t 13 fun s =>
    match s.rxFrame i.val with
    | some f =>
      if f.stage ≠ .ack || decide (s.now < f.t0 + 225000) then s
      else
        let x := s.ackCmd i.val f
        let lam := s.txLamp f.lamp x.ofs
        let s := (s.dropRx i.val).event (32 * 5 + 4)
        match s.txAccept lam x with
        | (s, .ok) => s
        | (s, c) => s.txFail lam x c
    | none => s

/-- The SEQ of the last beacon of member `m` that was passed on (R215). -/
def State.bcnLast (s : State) (m : Nat) : Option Nat := s.lant.bcnLast.lookup m

/-- A beacon of member `m` with SEQ `q` is passed on. -/
def State.passBcn (s : State) (m q : Nat) : State :=
  { s with lant := { s.lant with bcnLast := tabSet s.lant.bcnLast m q } }

/-- BEACON_RECEIVE (R215): a decrypted beacon passes the sequence check and is offered to the servo. -/
def execBeaconReceive (t : Nat) (i : Fin 3072) (s : State) : Out :=
  s.when t 13 fun s =>
    match s.rxFrame i.val with
    | some f =>
      if f.stage ≠ .verified || !f.beacon then s
      else
        let s := s.dropRx i.val
        let member := f.devid % 1024
        let mine := member == s.rf NTIM_BCN_CTL 29 20
        if mine && (s.bcnLast member).any (fun q => !seqLater f.seq q) then s.bump LANT_CNT_BCN_OLD
        else
          let s := if mine then s.passBcn member f.seq else s
          let p := natsOf f.plain
          let time : Int := (beVal (p.take 6) * 1000000000 + beVal ((p.drop 6).take 4) : Nat)
          s.beaconOffer member time f.stamp
    | none => s

/-- The read-only view of LANT_STATUS: STATE of Lantern `k` (R218). -/
def State.lantState (s : State) (k : Nat) : Word :=
  BitVec.ofNat 32 ((s.core (64 + k)).fault.toNat * 256 + s.coreState (64 + k))

end Sys2Proof.Machine
end

