-- ==== Sys2Proof/Machine/LantInst.lean ====
section
/-! DEFINITION. The S profile instructions: time, radio commands, PLACE, BUILD and NBR (R208 to R214, R280 to R287). -/
namespace Sys2Proof.Machine

/-- tm register `k`. -/
def WCore.tmr (c : WCore) (k : BitVec 2) : BitVec 64 := tabGet 0 c.tm k.toNat
/-- A tm register written. -/
def WCore.setTm (c : WCore) (k : BitVec 2) (v : BitVec 64) : WCore := { c with tm := tabSet c.tm k.toNat v }

/-! ### Time (R280, R281) -/

/-- TNOW: tmk := network time at issue. -/
def execTnow (t : Nat) (co : Core) (k : BitVec 2) (s : State) : Out :=
  let s := s.at t
  s.issuePure co (.tnow k) fun _ c => c.setTm k (BitVec.ofInt 64 s.now)

/-- TGET: d := part p of tmk, zero-extended. -/
def execTget (co : Core) (d : BitVec 6) (k p : BitVec 2) (s : State) : Out :=
  s.issuePure co (.tget d k p) fun _ c => c.res d (BitVec.ofNat 24 ((c.tmr k).toNat / 2 ^ (24 * p.toNat))) 1

/-- TPUT: part p of tmk := d. -/
def execTput (co : Core) (d : BitVec 6) (k p : BitVec 2) (s : State) : Out :=
  s.issuePure co (.tput d k p) fun _ c =>
    let w := if p = 2 then 2 ^ 16 else 2 ^ 24
    let v := (c.tmr k).toNat
    let lo := 2 ^ (24 * p.toNat)
    c.setTm k (BitVec.ofNat 64 (v % lo + (c.dr d).toNat % w * lo + v / (lo * w) * (lo * w)))

/-- TADD: tmk := tmj + sext(d), times 1,000 when U is 1, mod 2^64. -/
def execTadd (co : Core) (k j : BitVec 2) (d : BitVec 6) (u : Bool) (s : State) : Out :=
  s.issuePure co (.tadd k j d u) fun _ c =>
    c.setTm k (c.tmr j + BitVec.ofInt 64 ((c.dr d).toInt * if u then 1000 else 1))

/-- TSUB: d := tmk - tmj saturated to 24 bits; Z N of the exact difference, V when it saturated. -/
def execTsub (co : Core) (d : BitVec 6) (k j : BitVec 2) (s : State) : Out :=
  s.issuePure co (.tsub d k j) fun _ c =>
    let x := (c.tmr k - c.tmr j).toInt
    ((((c.flag 23 (x == 0)).flag 22 (decide (x < 0))).setV (ovf24 x))).res d (sat24 true x) 1

/-- TMOV: tmk := tmj. -/
def execTmov (co : Core) (k j : BitVec 2) (s : State) : Out :=
  s.issuePure co (.tmov k j) fun _ c => c.setTm k (c.tmr j)

/-- Network time has reached a tm value (R281). -/
def State.tmReached (s : State) (v : BitVec 64) : Bool := decide ((BitVec.ofInt 64 s.now - v).toNat < 2 ^ 63)

/-- TWAITU (R281): a target already reached completes at once; until then issue is held at this pc. -/
def execTwaitu (t : Nat) (co : Core) (k : BitVec 2) (s : State) : Out :=
  .next ((s.at t).issue co (.twaitu k) fun s =>
    let key := coreKey co
    let c := s.core key
    if s.tmReached (c.tmr k) then s.stepCore key else s.setCore key { c with wait := some (.time (c.tmr k)) })

/-- TWAITU_COMPLETE (R281): the wait of a Lantern ends once its target is reached. -/
def execTwaituComplete (t : Nat) (k : Fin 6) (s : State) : Out :=
  s.when t 13 fun s =>
    let c := s.core (64 + k.val)
    match c.wait with
    | some (.time v) =>
      if s.tmReached v && s.coreIn (64 + k.val) then s.setCore (64 + k.val) { c.drain with wait := none }.next else s
    | _ => s

/-! ### Radio commands (R282 to R284) -/

/-- Word `i` of the parameter block at `pk`. -/
def WCore.param (c : WCore) (key : Nat) (pk : BitVec 4) (i : Nat) : Nat := (c.ld key ((c.ptr pk).toNat + i)).toNat

/-- Image address in words `i` and `i + 1` of the parameter block. -/
def WCore.imgOf (c : WCore) (key : Nat) (pk : BitVec 4) (i : Nat) : Nat :=
  c.param key pk (i + 1) % 64 * 2 ^ 30 + c.param key pk i * 64

/-- Lantern and lamp of an S core. -/
def lanternOf (key : Nat) : Nat := key - 64

/-- The partition rule (R210): the instants from `a` to `b` lie wholly within lamp `n`'s owned partitions. -/
def State.partOwned (s : State) (n : Nat) (a b : Int) : Bool :=
  let len : Int := 1000 * (max 1 (s.rf LANT_PART 15 0) : Nat)
  let mask := (s.reg (LANT_PART_LO n)).toNat + (s.reg (LANT_PART_HI n)).toNat * 2 ^ 32
  let p := a / len
  (List.range 65).all fun i => decide (b / len < p + i) || mask.testBit (((p + i) % 64).toNat)

/-- A radio command given a tag and its acceptance code (R282). [DEDUCED, assumption 90] -/
def State.tagGive (s : State) (l : Nat) : State × Nat :=
  let n := tabGet 0 s.rtagCnt l
  ({ s with
    rtagCnt := tabSet s.rtagCnt l (n + 1)
    rtags := tabSet s.rtags (l * 16 + n % 16) none }, n)

/-- The code and tag of an RCMD delivered to `dd`, and the Lantern goes on. -/
def State.rcmdEnd (s : State) (key : Nat) (dd : BitVec 6) (c : Code) (tag : Nat) : State :=
  let v := c.val + if c = .ok then tag % 16 * 256 else 0
  s.setCore key ((s.core key).put dd (BitVec.ofNat 24 v)).next

/-- The transmit command of a parameter block. -/
def State.rcmdTx (s : State) (key : Nat) (c : WCore) (pk : BitVec 4) (tmS tmD : BitVec 2) : TxCmd :=
  let l := lanternOf key
  let w0 := c.param key pk 0
  let ofs := sext 27 (w0 % 8 * 2 ^ 24 + c.param key pk 1)
  let lam := s.txLamp (l / 2) ofs
  let prof := w0 / 2 ^ 19 % 8
  { owner := .lantern l (tabGet 0 s.rtagCnt l), ack := false
    profA := s.reg (LAMP_PROF_A lam prof), profB := s.reg (LAMP_PROF_B lam prof)
    ofs := ofs, chan := s.centreOf (s.lensOf (l / 2)) + 8 * ofs
    s := (c.tmr tmS).toInt, d := (c.tmr tmD).toInt, img := c.imgOf key pk 2, dur := 0 }

/-- The fields that R282 keeps at 0. -/
def WCore.rcmdZero (c : WCore) (key : Nat) (pk : BitVec 4) : Bool :=
  c.param key pk 0 / 8 % 2 ^ 16 == 0 && c.param key pk 3 / 64 == 0

/-- A transmission handed to the lamp: its code, after R105, R210 and R107. -/
def State.rcmdHand (s : State) (lam : Nat) (x : TxCmd) : State × Code :=
  match s.txCheck lam x with
  | .error c => (s, c)
  | .ok dur =>
    if !s.partOwned lam x.s (x.d + dur) then (s.bump LANT_CNT_PART, .refused)
    else s.txPlace lam { x with dur := dur }

/-- RCMD_TRANSMIT (R282): KIND transmit, or a reserved KIND, which ends with BAD_ARGUMENT. -/
def execRcmdTransmit (t : Nat) (co : Core) (dd : BitVec 6) (pk : BitVec 4) (tmS tmD : BitVec 2) (s : State) : Out :=
  .next ((s.at t).issueUnless co (.rcmd dd pk tmS tmD) (fun c => c.param (coreKey co) pk 0 / 2 ^ 22 == 2) fun s =>
    let key := coreKey co
    let c := s.core key
    let kind := c.param key pk 0 / 2 ^ 22
    if kind ≠ 0 || !c.rcmdZero key pk then s.rcmdEnd key dd .badArgument 0
    else
      let x := s.rcmdTx key c pk tmS tmD
      match s.rcmdHand (s.txLamp (lanternOf key / 2) x.ofs) x with
      | (s, .ok) =>
        let g := s.tagGive (lanternOf key)
        g.1.rcmdEnd key dd .ok g.2
      | (s, c) => s.rcmdEnd key dd c 0)

/-- A gap offer meets the reservation of an accepted command (R284). [DEDUCED, assumption 89] -/
def State.gapClash (s : State) (lam : Nat) (a b : Int) : Bool :=
  let hit := fun (x : TxCmd) => decide (a < x.resTo) && decide (x.resFrom < b)
  (s.lamp lam).queue.any hit || (match (s.lamp lam).run with
    | some r => hit r.cmd
    | none => false)

/-- RCMD_GAP_OFFER (R282, R284): judged by R105 but for the image, which it has none of. [DEDUCED, assumption 89] -/
def execRcmdGapOffer (t : Nat) (co : Core) (dd : BitVec 6) (pk : BitVec 4) (tmS tmD : BitVec 2) (s : State) : Out :=
  .next ((s.at t).issueUnless co (.rcmd dd pk tmS tmD) (fun c => c.param (coreKey co) pk 0 / 2 ^ 22 != 2) fun s =>
    let key := coreKey co
    let c := s.core key
    if !c.rcmdZero key pk then s.rcmdEnd key dd .badArgument 0
    else
      let x := s.rcmdTx key c pk tmS tmD
      let lam := s.txLamp (lanternOf key / 2) x.ofs
      match s.txJudge lam x (.ok 0) with
      | .error c => s.rcmdEnd key dd c 0
      | .ok _ =>
        if s.gapClash lam x.s x.d then s.rcmdEnd key dd .refused 0
        else
          let g := s.tagGive (lanternOf key)
          (g.1.onLamp lam fun l => { l with gaps := l.gaps ++ [{ owner := x.owner, s := x.s, d := x.d, usable := x.d }] }
            ).rcmdEnd key dd .ok g.2)

/-- What RSTAT reads of a tag (R283): none while the command is pending. -/
def State.tagRead (s : State) (l tag : Nat) : Option Code :=
  let n := tabGet 0 s.rtagCnt l
  let last := n - 1 - (n - 1 + 16 - tag) % 16
  if n = 0 || n - 1 < (n - 1 + 16 - tag) % 16 || last < tabGet 0 s.rtagBase l then some .badArgument
  else tabGet (some .badArgument) s.rtags (l * 16 + tag)

/-- RSTAT (R283): the state of a command, as a move gives it; with WAIT issue is held at this pc until it is final. -/
def execRstat (t : Nat) (co : Core) (dd ds : BitVec 6) (wait : Bool) (s : State) : Out :=
  .next ((s.at t).issue co (.rstat dd ds wait) fun s =>
    let key := coreKey co
    let c := s.core key
    let tag := (c.dr ds).toNat % 16
    match s.tagRead (lanternOf key) tag with
    | some r =>
      let v := BitVec.ofNat 24 r.val
      s.setCore key (if wait then c.put dd v else c.res dd v 1).next
    | none =>
      if wait then s.setCore key { c with wait := some (.radio tag dd) }
      else s.setCore key (c.res dd 0x100 1).next)

/-! ### PLACE (R208, R285) -/

/-- Symbols as ns at a class's rate, to the nearest. [DEDUCED, assumption 88] -/
def symNs (n cls : Nat) : Nat := (n * 2000000000 + clsRs cls) / (2 * clsRs cls)

/-- What PLACE computes (R208): S, D, U, WIDE and the frequency offset in units of 8 Hz. -/
structure Placed where
  s : Int
  d : Int
  u : Int
  wide : Bool
  ofs : Int
  deriving DecidableEq, Repr

/-- The instant at which a sensor's clock reads `w`, and dc (R208). [DEDUCED, assumption 88] -/
def syncAt (e : List Word) (w : Nat) : Int × Nat :=
  let dc := (w + 2 ^ 32 - (eWord e 8).toNat) % 2 ^ 32
  let ns : Int := (dc * 1000000000 / 2 ^ 15 : Nat)
  (eTref e + ns + (ns * eDrift e).tdiv (2 ^ 32), dc)

/-- R208 for entry `e`, sensor clock `w` and class `cls`; none is BAD_ARGUMENT. -/
def State.placeOf (s : State) (e : List Word) (w cls : Nat) : Option Placed :=
  let (ts, dc) := syncAt e w
  let upd := eFld e 1 23 20
  if upd = 0 || 2 ^ 31 ≤ dc then none
  else
    let st := ts - symNs 64 cls
    let el := ts - eTref e
    let u := s.guard + if upd < 3 then (el * s.rf NBR_CTL 23 16).tdiv 1000000 else (el * s.rf NBR_CTL 15 8).tdiv 100000000
    let lw : Int := eFld e 10 15 8 * 8000
    some ⟨st, st + max 0 (lw - u), u, decide (lw < u), roundDiv (sfld (eWord e 13) 31 8 * 25 + 2 * sfld (eWord e 10) 31 16) 2⟩

/-- The entry that an instruction names, or its code (R285 to R287): `ok` is what the entry must be. -/
def State.instEntry (s : State) (idx : Nat) (ok : List Word → Bool) : State × Except Code (List Word) :=
  if !s.rb NBR_CTL 31 then (s, .error .refused)
  else if 262143 < idx then (s, .error .badArgument)
  else
    match s.nbrFetch idx with
    | (s, none) => (s, .error .fenced)
    | (s, some e) => if ok e then (s, .ok e) else (s, .error .badArgument)

/-- The result pair of PLACE. -/
def WCore.putPlace (c : WCore) (r : BitVec 5) (code : Code) (p : Option Placed) : WCore :=
  let ofs := (p.map fun x => wrap 27 x.ofs).getD 0
  let wide := (p.map fun x => x.wide.toNat).getD 0
  (c.put (pairLo r) (BitVec.ofNat 24 (code.val + wide * 256 + ofs / 2 ^ 24 * 512))).put (pairHi r) (BitVec.ofNat 24 ofs)

/-- PLACE (R208, R285). -/
def execPlace (t : Nat) (co : Core) (r : BitVec 5) (di : BitVec 6) (b : BitVec 5) (ovr : Bool) (cls : BitVec 3)
    (tmS tmD tmU : BitVec 2) (s : State) : Out :=
  .next ((s.at t).issue co (.place r di b ovr cls tmS tmD tmU) fun s =>
    let key := coreKey co
    let c := s.core key
    let s := s.event (32 * 5 + 10)
    match s.instEntry (c.dr di).toNat eActive with
    | (s, .error x) => s.setCore key (c.putPlace r x none).next
    | (s, .ok e) =>
      match s.placeOf e (c.pairWord b) (if ovr then cls.toNat else eFld e 10 7 5) with
      | none => s.setCore key (c.putPlace r .badArgument none).next
      | some p =>
        let c := ((c.setTm tmS (BitVec.ofInt 64 p.s)).setTm tmD (BitVec.ofInt 64 p.d)).setTm tmU (BitVec.ofInt 64 p.u)
        s.setCore key (c.putPlace r .ok (some p)).next)

/-! ### BUILD (R209 to R214, R286) -/

/-- The link that BUILD's word 0 names. -/
def linkOf (w0 : Nat) : Link := ⟨w0 / 2 ^ 17 % 8, w0.testBit 16, w0.testBit 15, w0.testBit 14⟩
/-- The link of an entry. -/
def linkOfEntry (e : List Word) : Link := ⟨eFld e 10 7 5, eBit e 10 4, eBit e 10 3, eBit e 10 2⟩

/-- The image written; a bus error is FENCED. -/
def State.putImage (s : State) (a : Nat) (bs : List Byte) : State × Code :=
  match s.store a bs with
  | some s => (s.event (32 * 4 + 13) 2, .ok)
  | none => (s, .fenced)

/-- The code of a BUILD delivered to `dd`. -/
def State.buildEnd (s : State) (key : Nat) (dd : BitVec 6) (c : Code) : State :=
  s.setCore key ((s.core key).put dd (BitVec.ofNat 24 c.val)).next

/-- The fields that R286 keeps at 0. -/
def WCore.buildZero (c : WCore) (key : Nat) (pk : BitVec 4) : Bool :=
  c.param key pk 1 / 2 ^ 18 == 0 && c.param key pk 3 / 64 == 0

/-- A frame sealed under the entry's key with the next DSEQ, and its image written (R192, R209): `out` is DL_OUT. -/
def State.buildFrame (s : State) (n : Nat) (e : List Word) (l : Link) (type ksize rate ncw : Nat) (p : List Nat)
    (urg out : Bool) (img : Nat) : State × Code :=
  if eDseq e = 0xFFFFFF then (s, .keySpent)
  else
    let devid := (eWord e 0).toNat
    match s.encryptNow (s.keyrefOf (eKeyref e) (eEpoch e)) (eEpoch e) urg (if l.mic16 then 16 else 8) p.length with
    | (s, .error c) => (s, c)
    | (s, .ok key) =>
      let seq := eDseq e + 1
      let s := s.nbrPut n (eSet (eSet e 5 23 0 seq) 1 25 25 out.toNat)
      let hdr := headerOf type ksize rate ncw l.mic16 devid seq
      s.putImage img (imageOf l hdr (sealFrame key hdr devid (eEpoch e) seq p))

/-- A BUILD that names an entry: the checks of R286, then `k`. [DEDUCED, assumption 91] -/
def State.buildEntry (s : State) (key : Nat) (pk : BitVec 4) (k : State → Nat → List Word → State × Code) : State × Code :=
  let c := s.core key
  let n := c.param key pk 1
  if !c.buildZero key pk then (s, .badArgument)
  else
    match s.instEntry n eActive with
    | (s, .error x) => (s, x)
    | (s, .ok e) => if eBit e 1 29 then (s, .refused) else k s n e

/-- BUILD_POLL (R189, R191, R209): TYPE 1; a TYPE that is no frame of BUILD ends with BAD_ARGUMENT. [DEDUCED,
assumption 72] -/
def execBuildPoll (t : Nat) (co : Core) (dd : BitVec 6) (pk : BitVec 4) (tm : BitVec 2) (s : State) : Out :=
  .next ((s.at t).issueUnless co (.build dd pk tm)
      (fun c => c.param (coreKey co) pk 0 / 2 ^ 21 == 2 || c.param (coreKey co) pk 0 / 2 ^ 21 == 4) fun s =>
    let key := coreKey co
    let c := s.core key
    let w0 := c.param key pk 0
    if w0 / 2 ^ 21 ≠ 1 then s.buildEnd key dd .badArgument
    else
      let r := (s.event (32 * 5 + 7)).buildEntry key pk fun s n e =>
        s.buildFrame n e (if w0.testBit 20 then linkOf w0 else linkOfEntry e) 1 0 0 1
          [(w0.testBit 9).toNat, w0 % 256] (w0.testBit 8) false (c.imgOf key pk 2)
      r.1.buildEnd key dd r.2)

/-- Messages that have reached MAX_ATTEMPTS or their expiry leave the head of the queue, each with event 0x04 (R212); at
most `f`. -/
def State.dropMsgs (s : State) : Nat → List Word → State × List Word
  | 0, e => (s, e)
  | f + 1, e =>
    match s.msgHead e with
    | some (k, some m) =>
      let exp := eFld m 3 15 0 * 2 ^ 32 + (eWord m 2).toNat
      if eFld m 0 7 0 ≤ eFld m 0 15 8 || (exp ≠ 0 && decide ((exp * 1000000000 : Nat) ≤ s.now)) then
        (s.lantEvent 4 [(eWord e 0).toNat, k, eFld m 1 31 16]).dropMsgs f (popMsg e m)
      else (s, e)
    | _ => (s, e)

/-- Fewest codewords of `k` information bits that hold `n` bytes of ciphertext and its tag (R164, R191). -/
def fewest (k n mic : Nat) : Nat := (10 + n + mic + k / 8 - 1) / (k / 8)

/-- BUILD_DOWNLINK (R209, R212): the head message of the entry's queue. -/
def execBuildDownlink (t : Nat) (co : Core) (dd : BitVec 6) (pk : BitVec 4) (tm : BitVec 2) (s : State) : Out :=
  .next ((s.at t).issueUnless co (.build dd pk tm) (fun c => c.param (coreKey co) pk 0 / 2 ^ 21 != 2) fun s =>
    let key := coreKey co
    let c := s.core key
    let w0 := c.param key pk 0
    let r := (s.event (32 * 5 + 8)).buildEntry key pk fun s n e =>
      let d := s.dropMsgs 65535 e
      let s := d.1.nbrPut n d.2
      match s.msgHead d.2 with
      | none => (s, .noBuffer)
      | some (_, none) => (s, .fenced)
      | some (k, some m) =>
        let len := eFld m 1 15 0
        match s.load (s.msgAt k + 16) len with
        | none => (s, .fenced)
        | some p =>
          let l := if w0.testBit 20 then linkOf w0 else linkOfEntry d.2
          let ks := w0 / 2 ^ 12 % 4
          let b := s.buildFrame n d.2 l 2 ks (w0 / 2 ^ 10 % 4) (fewest (ksizeK ks) len (if l.mic16 then 16 else 8))
            (natsOf p) (w0.testBit 8) true (c.imgOf key pk 2)
          if b.2 = .ok then (b.1.storeDrop (s.msgAt k + 1) (leBytes 1 (eFld m 0 15 8 + 1)), .ok) else b
    r.1.buildEnd key dd r.2)

/-- The key slot and EPOCH of LANT_BCN_CTL have served for every SEQ: another beacon would repeat a nonce (R165).
[DESIGN CHOICE, assumption 160] -/
def State.bcnSpent (s : State) : Bool :=
  (s.lant.bcnFirst.lookup (s.rf LANT_BCN_CTL 10 0 * 256 + s.rf LANT_BCN_CTL 31 24)).any fun n =>
    decide (n + 2 ^ 24 ≤ s.lant.bcnSent)

/-- A beacon takes the next SEQ (R214). [DESIGN CHOICE, assumption 160] -/
def State.bcnNext (s : State) : State :=
  let k := s.rf LANT_BCN_CTL 10 0 * 256 + s.rf LANT_BCN_CTL 31 24
  let l := s.lant
  ({ s with lant := { l with
    bcnSent := l.bcnSent + 1
    bcnFirst := if (l.bcnFirst.lookup k).isSome then l.bcnFirst else tabSet l.bcnFirst k l.bcnSent } }).setReg
      LANT_BCN_SEQ (BitVec.ofNat 32 ((s.rf LANT_BCN_SEQ 23 0 + 1) % 2 ^ 24))

/-- A beacon built for the stamp point `st` (R166, R214). [DEDUCED, assumption 91] -/
def State.buildBeacon (s : State) (w0 : Nat) (st : Int) (img : Nat) : State × Code :=
  if st < s.now then (s, .deadlineMissed)
  else if s.bcnSpent then (s, .keySpent)
  else
    let epoch := s.rf LANT_BCN_CTL 31 24
    match s.encryptNow (false, s.rf LANT_BCN_CTL 10 0) epoch (w0.testBit 8) 8 12 with
    | (s, .error c) => (s, c)
    | (s, .ok key) =>
      let seq := (s.rf LANT_BCN_SEQ 23 0 + 1) % 2 ^ 24
      let s := s.bcnNext
      let member := s.rf LANT_CTL 9 0
      let devid := 0xFFFFFC00 + member
      let hdr := headerOf 4 0 0 1 false devid seq
      let p := beList 6 (wrap 48 (st / 1000000000)) ++ beList 4 (st % 1000000000).toNat ++
        beList 2 (s.ntim.holdover.toNat * 2 ^ 15 + member)
      s.putImage img (imageOf { linkOf w0 with mic16 := false } hdr (sealFrame key hdr devid epoch seq p))

/-- BUILD_BEACON (R214). -/
def execBuildBeacon (t : Nat) (co : Core) (dd : BitVec 6) (pk : BitVec 4) (tm : BitVec 2) (s : State) : Out :=
  .next ((s.at t).issueUnless co (.build dd pk tm) (fun c => c.param (coreKey co) pk 0 / 2 ^ 21 != 4) fun s =>
    let key := coreKey co
    let c := s.core key
    let w0 := c.param key pk 0
    let s := s.event (32 * 5 + 9)
    if !w0.testBit 20 || !c.buildZero key pk then s.buildEnd key dd .badArgument
    else if !s.rb NBR_CTL 31 then s.buildEnd key dd .refused
    else
      let st := (c.tmr tm).toInt + symNs 64 (linkOf w0).cls
      let r := s.buildBeacon w0 st (c.imgOf key pk 2)
      r.1.buildEnd key dd r.2)

/-! ### NBR (R287) -/

/-- The code of an NBR delivered to `dc`. -/
def State.nbrEnd (s : State) (key : Nat) (dc : BitVec 6) (c : Code) : State :=
  s.setCore key ((s.core key).put dc (BitVec.ofNat 24 c.val)).next

/-- NBR_INSTR_READ (R287): word `w` of an entry to pair `r`. -/
def execNbrInstrRead (t : Nat) (co : Core) (r : BitVec 5) (di : BitVec 6) (w : BitVec 4) (dc : BitVec 6) (s : State) : Out :=
  .next ((s.at t).issue co (.nbr r di false w dc) fun s =>
    let key := coreKey co
    match s.instEntry ((s.core key).dr di).toNat (fun e => eState e != 0) with
    | (s, .error c) => s.nbrEnd key dc c
    | (s, .ok e) => (s.setCore key ((s.core key).putPair r (eWord e w.toNat).toNat)).nbrEnd key dc .ok)

/-- NBR_INSTR_WRITE (R287): pair `r` to WAKE_NEXT, word 11, of an active entry. -/
def execNbrInstrWrite (t : Nat) (co : Core) (r : BitVec 5) (di : BitVec 6) (w : BitVec 4) (dc : BitVec 6) (s : State) : Out :=
  .next ((s.at t).issue co (.nbr r di true w dc) fun s =>
    let key := coreKey co
    let c := s.core key
    let i := (c.dr di).toNat
    match s.instEntry i (fun e => eActive e && w == 11) with
    | (s, .error x) => s.nbrEnd key dc x
    | (s, .ok e) => (s.nbrPut i (e.set 11 (BitVec.ofNat 32 (c.pairWord r)))).nbrEnd key dc .ok)

end Sys2Proof.Machine
end

