-- ==== Sys2Proof/Machine/Mantle.lean ====
section
/-! DEFINITION. Mantle: jobs, lanes, decodes and encodes, the soft store, pairing, export and import (R170 to R188). -/
namespace Sys2Proof.Machine

/-! ### Jobs -/

def MJob.kind (j : MJob) : Nat := fld j.w0 31 28
def MJob.maxit (j : MJob) : Nat := fld j.w0 23 18
/-- LAST of a decode, URGENT of an encode (R174). -/
def MJob.last (j : MJob) : Bool := bit j.w0 17
def MJob.task (j : MJob) : Nat := fld j.w0 11 0
def MJob.cwidx (j : MJob) : Nat := fld j.w1 31 27
def MJob.ctx (j : MJob) : Nat := fld j.w1 11 0
/-- A decode. -/
def MJob.dec (j : MJob) : Bool := decide (j.kind ≤ 1)

/-- The class of a job in the queue's order (R173). -/
def MJob.order (j : MJob) : Nat := if j.kind = 0 then 0 else if j.last then 1 else 2

/-- The local time whose low 32 bits are `w`, at or before now. -/
def State.localOf (s : State) (w : Word) : Nat := s.raw - (BitVec.ofNat 32 s.raw - w).toNat

/-- What Lens measured for the frame of context `i` with sync mark `sync`, now; without SET_SYNC the stamp is that of the
sync mark. -/
def State.measOf (s : State) (i : Nat) (sync : Word) : RxMeas :=
  let c := s.ctx i
  { bt3 := c.bt3, stamp := if c.sync.isSome then c.stamp else s.netOf (s.localOf sync), cfo := c.cfo, fde := c.fde
    lqi := c.lqi, chan := c.chan, bin := c.firstBin, offRaster := c.offRaster }

/-- A job as its descriptor at `a` reads (R174). [DEDUCED, assumption 63] -/
def State.readJob (s : State) (a : Nat) : Option MJob :=
  (s.load a 64).map fun bs =>
    let w := fun (k : Nat) => leNat ((bs.drop (4 * k)).take 4)
    { addr := a
      w0 := BitVec.ofNat 32 (w 0)
      w1 := BitVec.ofNat 32 (w 1)
      inA := (w 3 % 16 * 2 ^ 32 + w 2) / 4 * 4
      outA := (w 5 % 16 * 2 ^ 32 + w 4) / 4 * 4
      hdr := BitVec.ofNat 32 (w 6)
      syncLt := BitVec.ofNat 32 (w 7)
      meas := s.measOf (w 1 % 4096) (BitVec.ofNat 32 (w 7)) }

/-- What a completion reports in words 0x20 and 0x24 (R174). -/
structure MReport where
  code : Code := .ok
  iters : Nat := 0
  parity : Bool := false
  crc : Bool := false
  combined : Bool := false
  fromStore : Bool := false
  stored : Bool := false
  unsat : Nat := 0
  word : Word := 0

/-- Word 0x20 of a completion. -/
def MReport.word20 (r : MReport) : Nat :=
  r.code.val * 2 ^ 24 + r.iters * 2 ^ 18 + r.parity.toNat * 2 ^ 17 + r.crc.toNat * 2 ^ 16 + r.combined.toNat * 2 ^ 15
    + r.fromStore.toNat * 2 ^ 14 + r.stored.toNat * 2 ^ 13 + min 255 r.unsat

/-- A job completes (R175): words 0x20 and 0x24, then the task's dependence counter. [DEDUCED, assumption 65] -/
def State.jobReport (s : State) (j : MJob) (r : MReport) : State :=
  (s.storeDrop (j.addr + 0x20) (leBytes 4 r.word20 ++ leBytes 4 r.word.toNat)).advance j.task 1

/-- A job leaves the lanes. -/
def State.jobOff (s : State) (j : MJob) : State :=
  { s with mant := { s.mant with run := s.mant.run.filter fun x => !(x == j) } }

/-! ### The soft store -/

/-- Store base (R178). -/
def State.storeBase (s : State) : Nat := s.rf MANT_STORE_HI 3 0 * 2 ^ 32 + (s.reg MANT_STORE_LO).toNat

/-- Symbols of a frame after its sync mark as ns: (96 + NCW x n / b) / Rs, rounded to 1 ns (R179, R203). -/
def bodyNs (hdr : Word) (mod4 : Bool) (cls : Nat) : Nat :=
  ((96 + paySymbols hdr mod4) * 2000000000 + clsRs cls) / (2 * clsRs cls)

/-- The slot of an entry by its key. [DESIGN CHOICE, assumption 62] -/
def State.slotOf (s : State) (ctx : Nat) (sync : Word) : Option Nat :=
  (s.mant.store.find? fun (e : Nat × SoftEntry) => e.2.ctx == ctx && e.2.syncLt == sync).map (·.1)

/-- The entry in a slot. -/
def State.entryAt (s : State) (k : Nat) : Option SoftEntry :=
  (s.mant.store.find? fun (e : Nat × SoftEntry) => e.1 == k).map (·.2)

/-- The entry in slot `k` replaced. -/
def State.setEntry (s : State) (k : Nat) (e : SoftEntry) : State :=
  { s with mant := { s.mant with store := tabSet s.mant.store k e } }

/-- Every codeword of the frame has decoded. -/
def SoftEntry.whole (e : SoftEntry) : Bool :=
  (List.range (hdrNcw e.hdr)).all fun j => match e.cws.lookup j with
    | some (.bits _) => true
    | _ => false

/-- Slot `k` lies in ranks in service (R178, R460). [DEDUCED, assumption 150] -/
def State.slotOk (s : State) (k : Nat) : Bool := s.areaIn (s.storeBase + k * 0x4000) 0x4000

/-- The entry in slot `k` closes once every codeword has decoded or every role has ended (R178, R179). A second copy
has no role in R179's table: its entry stays until its LAST job. [DEDUCED, assumption 151] -/
def State.closeEntry (s : State) (k : Nat) : State :=
  match s.entryAt k with
  | none => s
  | some e =>
    let roles := e.unbound || e.bound.isSome || e.hold || e.exp || (hdrPair e.hdr = 2 && !e.lastDone)
    if e.whole || !roles then { s with mant := { s.mant with store := tabDel s.mant.store k } } else s

/-- A store entry for a valid header, where R178 asks for one; a frame that cannot be stored is counted, and one whose
slot lies in a fenced rank is not stored. [DEDUCED, assumption 150] -/
def State.openEntry (s : State) (j : MJob) (hdr : Word) : State × Bool :=
  let en := s.rb MANT_PAIR_CTL 31
  let imp := s.rb MANT_EXP_CTL 30
  let exp := bit j.w1 22
  if !((en && hdrPair hdr ≠ 0) || exp || imp) then (s, false)
  else
    match (List.range 4096).find? fun k => (s.entryAt k).isNone with
    | some k =>
      if 16384 < hdrNcw hdr * (hdrPay hdr).n then ((s.bump MANT_CNT_UNSTORED).pulse (irqNo 6 3), false)
      else if !s.slotOk k then (s, false)
      else
        let cls := fld j.w1 26 24
        let mod4 := bit j.w1 23
        (s.setEntry k {
          ctx := j.ctx, syncLt := j.syncLt, hdr := hdr, cls := cls, mod4 := mod4
          t0 := j.syncLt + BitVec.ofNat 32 (bodyNs hdr mod4 cls)
          stamp := s.netOf (s.localOf j.syncLt)
          lqi := j.meas.lqi
          meas := j.meas
          unbound := en && hdrPair hdr = 1
          hold := imp
          exp := exp }, true)
    | none => ((s.bump MANT_CNT_UNSTORED).pulse (irqNo 6 3), false)

/-- First copies with the latest t0 first, for a second copy whose sync mark is `sync` (R180). -/
def latestFirst (sync : Word) (l : List (Nat × SoftEntry)) : List Nat :=
  (l.mergeSort fun a b => decide ((sync - a.2.t0).toInt ≤ (sync - b.2.t0).toInt)).map (·.1)

/-- A first copy is free to bind to context `ctx`: it is unbound, or a second copy of a higher context has bound it in
this fabric cycle (R180). -/
def State.freeFor (s : State) (ctx : Nat) (e : SoftEntry) : Bool :=
  (e.unbound && e.bound.isNone) ||
    (match e.bound with
      | some (c, _) => decide (ctx < c) && fabCycle e.boundAt == fabCycle s.clk
      | none => false)

/-- The first copies that a second copy binds (R180): latest t0 first, TRIES at most. -/
def State.bindCands (s : State) (j : MJob) (hdr : Word) : List Nat :=
  let win := s.rf MANT_PAIR_CTL 14 0 * 1000
  let same : Word := 0xFFFF3FC0
  let ok := s.mant.store.filter fun (e : Nat × SoftEntry) =>
    s.freeFor j.ctx e.2 && hdrPair e.2.hdr = 1 && (e.2.hdr &&& same) == (hdr &&& same) &&
      decide (0 < (j.syncLt - e.2.t0).toInt) && decide ((j.syncLt - e.2.t0).toInt ≤ win)
  (latestFirst j.syncLt ok).take (s.rf MANT_PAIR_CTL 27 24)

/-- The first copies bound to a second copy, in binding order (R180, R181). -/
def State.boundTo (s : State) (ctx : Nat) (sync : Word) : List Nat :=
  latestFirst sync (s.mant.store.filter fun (e : Nat × SoftEntry) => e.2.bound == some (ctx, sync))

/-- BINDING (R180): the candidates of a second copy lose their unbound role and become bound to it; each binding is
counted once. -/
def State.bindCopies (s : State) (j : MJob) (hdr : Word) : State :=
  if hdrPair hdr ≠ 2 || !s.rb MANT_PAIR_CTL 31 then s
  else
    (s.bindCands j hdr).foldl (fun s k => match s.entryAt k with
      | some e =>
        let s := if e.bound.isSome then s else (s.bump MANT_CNT_PAIR_BOUND).event (32 * 4 + 8)
        s.setEntry k { e with unbound := false, bound := some (j.ctx, j.syncLt), boundAt := s.clk }
      | none => s) s

/-- DEC_HDR (R163): the header decode at descriptor `a` completes. -/
def execDecHdr (t : Nat) (a : Nat) (s : State) : Out :=
  s.when t 14 fun s =>
    match s.mant.run.find? fun j => j.addr == a && j.kind == 0 with
    | none => s
    | some j =>
      let s := s.jobOff j
      if j.maxit = 0 then s.jobReport j { code := .badArgument }
      else
        match s.load j.inA 96 with
        | none => s.jobReport j { code := .fenced }
        | some bs =>
          let cap := min 32 (min j.maxit (s.rf MANT_CTL 13 8))
          let d := hdrCode.decode (bs.map llrOf) cap
          let bytes := bytesOf d.bits
          let w : Word := BitVec.ofNat 32 (beNat bytes)
          let crc := fld w 5 0 == crc6 w
          let valid := d.unsat == 0 && crc
          let s := (s.storeDrop j.outA bytes).event (32 * 4 + 5) d.iters
          let s := if d.unsat = 0 && d.iters < cap then s.event (32 * 4 + 6) else s
          let s := if d.unsat ≠ 0 then s.event (32 * 4 + 7) else s
          let base : MReport := { iters := d.iters, parity := d.unsat == 0, crc := crc, unsat := d.unsat, word := w }
          if !valid then ((s.bump MANT_CNT_HDR_FAIL).event (32 * 4 + 2)).jobReport j base
          else
            match hdrBad w with
            | some c => (s.bump MANT_CNT_HDR_VER).jobReport j { base with code := c }
            | none =>
              let s := (s.bump MANT_CNT_HDR_OK).event (32 * 4 + 1)
              let o := s.openEntry j w
              (o.1.bindCopies j w).jobReport j { base with stored := o.2 }

/-! ### Payload codewords -/

/-- A decoded payload codeword joins the frame that it belongs to. -/
def RxFrame.grow (f : RxFrame) (j : Nat) (b : List Byte) (paired combined : Bool) : RxFrame :=
  { f with cws := tabSet f.cws j b, paired := f.paired || paired, combined := f.combined || combined }

/-- A frame of which a codeword is missing and which Lantern has not verified: no later codeword of it comes once
another frame of its context delivers one. [DESIGN CHOICE, assumption 152] -/
def RxFrame.stranded (f : RxFrame) : Bool := !f.whole && (f.stage == .fresh || f.stage == .cipher)

/-- A decoded payload codeword reaches the Lantern hardware (R200): its frame grows, or begins behind the frames of
its context that are not done (R10). A frame of which a fenced lane has lost a codeword takes none (R26). [DESIGN
CHOICE, assumption 152] -/
def State.rxCodeword (s : State) (ctx : Nat) (sync : Word) (hdr : Word) (cls : Nat) (mod4 : Bool) (m : RxMeas) (j : Nat)
    (b : List Byte) (paired combined : Bool) : State :=
  let fresh : RxFrame := {
    hdr := hdr, syncLt := sync, cls := cls, mod4 := mod4, bt3 := m.bt3, lamp := ctx / 1024, stamp := m.stamp
    cfo := m.cfo, fde := m.fde, lqi := m.lqi, chan := m.chan, bin := m.bin, offRaster := m.offRaster
    t0 := m.stamp + bodyNs hdr mod4 cls }
  let put := fun (f : RxFrame) => f.grow j b paired combined
  if s.lant.dead.lookup ctx == some sync then s
  else
    match s.rxFrame ctx with
    | none => s.setRx ctx (put fresh)
    | some f =>
      if f.syncLt == sync then s.onFrame ctx sync put
      else if s.lant.behind.any fun x => x.1 == ctx && x.2.syncLt == sync then s.onFrame ctx sync put
      else
        let l := s.lant.behind.filter fun x => !(x.1 == ctx && x.2.stranded)
        let s := { s with lant := { s.lant with behind := l ++ [(ctx, put fresh)] } }
        if f.stranded then s.dropRx ctx else s

/-- Decoded codewords that wait in Mantle's output buffer: those of frames that the cipher engine has not admitted. -/
def State.outHeld (s : State) : Nat :=
  ((s.lant.rx.map (·.2)) ++ s.lant.behind.map (·.2)).foldl (fun n f =>
    if f.stage = .fresh || f.stage = .cipher then n + f.cws.length else n) 0

/-- The cipher engine is full and Mantle's output buffer too: the lanes stall (R10). [DESIGN CHOICE, assumption 152]
-/
def State.lanesStall (s : State) : Bool := decide (64 ≤ s.runLanes.ciph.run.length) && decide (Config.outBuffer ≤ s.outHeld)

/-- How a payload codeword was got. -/
structure PayOut where
  bytes : List Byte
  ok : Bool
  rep : MReport

/-- The decode of one codeword's own or combined LLRs. -/
def payDecode (c : Ldpc) (llr : List Int) (maxit : Nat) (combined : Bool) : PayOut :=
  let d := c.decode llr maxit
  ⟨bytesOf d.bits, d.unsat == 0, { iters := d.iters, parity := d.unsat == 0, combined := combined, unsat := d.unsat }⟩

/-- LLRs of two copies added in the 10-bit domain (R182). -/
def combineLlr (a b : List Int) : List Int := (a.zip b).map fun e => clampI (-511) 511 (e.1 + e.2)

/-- The events and counters of a finished decode. -/
def State.payCount (s : State) (r : MReport) (cap : Nat) : State :=
  let s := s.event (32 * 4 + 5) r.iters
  let s := if r.parity && r.iters < cap && !r.fromStore then s.event (32 * 4 + 6) else s
  if !r.parity then s.event (32 * 4 + 7) else s

/-- What the soft store holds of codeword `idx` of the entry in slot `k`; nothing while the slot's rank is fenced
(R460). [DEDUCED, assumption 150] -/
def State.storedCw (s : State) (k idx : Nat) : Option SoftCw :=
  if s.slotOk k then (s.entryAt k).bind fun e => e.cws.lookup idx else none

/-- R181: the candidates of a bound second copy in order, then its own LLRs. -/
def State.payTry (s : State) (c : Ldpc) (idx : Nat) (own : List Int) (cap : Nat) : List Nat → State × PayOut
  | [] => (s, payDecode c own cap false)
  | k :: ks =>
    match s.storedCw k idx with
    | some (.bits b) => (s, ⟨b, true, { parity := true, fromStore := true }⟩)
    | some (.llrs l) =>
      let p := payDecode c (combineLlr l own) cap true
      if p.ok then ((s.bump MANT_CNT_PAIR_OK).event (32 * 4 + 9), p)
      else (((s.bump MANT_CNT_PAIR_FAIL).event (32 * 4 + 10)).payCount p.rep cap).payTry c idx own cap ks
    | none => s.payTry c idx own cap ks

/-- A 4-bit LLR of an export (R183). -/
def quant (q : Nat) (l : Int) : Nat := wrap 4 (clampI (-7) 7 (roundDiv l (2 ^ q)))

/-- Two 4-bit values to a byte, the earlier in the upper nibble. -/
def nibbles : List Nat → List Byte
  | a :: b :: r => BitVec.ofNat 8 (a * 16 + b) :: nibbles r
  | _ => []

/-- The soft-export body of an entry (R183). -/
def State.exportBody (s : State) (e : SoftEntry) : List Byte :=
  let q := s.rf MANT_EXP_CTL 11 8
  let idx := List.range (hdrNcw e.hdr)
  let mask := fun (p : SoftCw → Bool) => (idx.filter fun j => ((e.cws.lookup j).map p).getD false).foldl
    (fun a j => a + 2 ^ j) 0
  let st := e.stamp.toNat
  let sec := st / 1000000000
  let words := [0x01000000 + s.rf LANT_CTL 9 0, e.hdr.toNat, st % 1000000000, sec % 2 ^ 32,
    q * 2 ^ 20 + e.mod4.toNat * 2 ^ 19 + e.cls * 2 ^ 16 + sec / 2 ^ 32 % 2 ^ 16,
    mask (fun c => match c with
      | .llrs _ => true
      | .bits _ => false),
    mask (fun c => match c with
      | .bits _ => true
      | .llrs _ => false), e.lqi]
  words.flatMap (leBytes 4) ++ idx.flatMap fun j =>
    match e.cws.lookup j with
    | some (.bits b) => b
    | some (.llrs l) => nibbles (l.map (quant q))
    | none => []

/-- A codeword of the entry has failed. -/
def SoftEntry.failed (e : SoftEntry) : Bool :=
  e.cws.any fun c => match c.2 with
    | .llrs _ => true
    | .bits _ => false

/-- The export role of a frame ends: its message has been handed on or dropped, or none is sent (R179). -/
def State.expDone (s : State) (ctx : Nat) (sync : Word) : State :=
  match s.slotOf ctx sync with
  | none => s
  | some k =>
    match s.entryAt k with
    | none => s
    | some e => (s.setEntry k { e with exp := false }).closeEntry k

/-- EXPORT_BUILD (R184): once the LAST job of an exportable frame has completed and a codeword has failed, its message is
built; one that is too long, or that no member is to get, ends the role. -/
def State.exportBuild (s : State) (k : Nat) : State :=
  match s.entryAt k with
  | none => s
  | some e =>
    if !(e.exp && e.lastDone && !e.built && e.failed && s.rb MANT_EXP_CTL 31) then s
    else
      let body := s.exportBody e
      let peers := (List.range 4).filterMap fun p =>
        if s.rb (MANT_EXP_PEER p) 31 then some (s.rf (MANT_EXP_PEER p) 9 0) else none
      let s := s.setEntry k { e with built := true }
      if 8192 < body.length then ((s.bump MANT_CNT_EXP_BIG).pulse (irqNo 6 2)).expDone e.ctx e.syncLt
      else if peers.isEmpty then s.expDone e.ctx e.syncLt
      else
        let x : Export := ⟨e.ctx, e.syncLt, body, s.netOf (s.localOf e.syncLt) + bodyNs e.hdr e.mod4 e.cls, peers⟩
        { s with mant := { s.mant with exports := s.mant.exports ++ [x] } }

/-- The LAST job of a frame has completed: the first copies bound to it close, and its export is built (R179, R184);
with EXP_EN 0 none is built and the role ends. [DEDUCED, assumption 151] -/
def State.frameLast (s : State) (ctx : Nat) (sync : Word) : State :=
  let s := (s.boundTo ctx sync).foldl (fun s k => match s.entryAt k with
    | some e => (s.setEntry k { e with bound := none }).closeEntry k
    | none => s) s
  match s.slotOf ctx sync with
  | none => s
  | some k =>
    match s.entryAt k with
    | none => s
    | some e => ((s.setEntry k { e with lastDone := true, exp := e.exp && s.rb MANT_EXP_CTL 31 }).exportBuild k).closeEntry k

/-- A job completes (R175): its report, and for a payload decode what follows for its frame: the LAST job's effects, an
export that can now be built, an entry that can close (R178, R179, R184). -/
def State.jobDone (s : State) (j : MJob) (r : MReport) : State :=
  let s := s.jobReport j r
  if j.kind ≠ 1 then s
  else if j.last then s.frameLast j.ctx j.syncLt
  else
    match s.slotOf j.ctx j.syncLt with
    | some k => (s.exportBuild k).closeEntry k
    | none => s

/-- DEC_PAY (R171, R181): the payload decode at descriptor `a` completes; a payload whose header R163 turns away is not
decoded. -/
def execDecPay (t : Nat) (a : Nat) (s : State) : Out :=
  s.when t 14 fun s =>
    match (if s.lanesStall then none else s.mant.run.find? fun j => j.addr == a && j.kind == 1) with
    | none => s
    | some j =>
      let s := s.jobOff j
      let c := hdrPay j.hdr
      if j.maxit = 0 || hdrNcw j.hdr ≤ j.cwidx then s.jobDone j { code := .badArgument }
      else
        match hdrBad j.hdr, s.load j.inA c.n with
        | some c, _ => s.jobDone j { code := c }
        | none, none => s.jobDone j { code := .fenced }
        | none, some bs =>
          let own := bs.map llrOf
          let cap := min 32 (min j.maxit (s.rf MANT_CTL 13 8))
          let slot := s.slotOf j.ctx j.syncLt
          let r := s.payTry c j.cwidx own cap (s.boundTo j.ctx j.syncLt)
          let p := r.2
          let s := (r.1.payCount p.rep cap).storeDrop j.outA p.bytes
          let s := if p.ok then (s.bump MANT_CNT_CW_OK).event (32 * 4 + 3) else (s.bump MANT_CNT_CW_FAIL).event (32 * 4 + 4)
          let s := match slot with
            | some k => (match s.entryAt k with
              | some e => if s.slotOk k then s.setEntry k { e with
                  cws := tabSet e.cws j.cwidx (if p.ok then .bits p.bytes else .llrs own) } else s
              | none => s)
            | none => s
          let s := if p.ok then
              s.rxCodeword j.ctx j.syncLt j.hdr (fld j.w1 26 24) (bit j.w1 23) j.meas j.cwidx p.bytes
                (hdrPair j.hdr ≠ 0) (p.rep.combined || p.rep.fromStore)
            else s
          s.jobDone j { p.rep with stored := slot.isSome }

/-- ENC_HDR (R177): the header encode at descriptor `a` completes. -/
def execEncHdr (t : Nat) (a : Nat) (s : State) : Out :=
  s.when t 14 fun s =>
    match s.mant.run.find? fun j => j.addr == a && j.kind == 2 with
    | none => s
    | some j =>
      let s := s.jobOff j
      let w := hdrWithCrc j.hdr
      match hdrBad j.hdr with
      | some c => s.jobReport j { code := c, word := w }
      | none =>
        let s := s.storeDrop j.outA (bytesOf (hdrCode.encode (bitsOf (beBytes 4 w.toNat))).toList)
        (s.event (32 * 4 + 13)).jobReport j { word := w }

/-- ENC_PAY (R177): the payload encode at descriptor `a` completes. -/
def execEncPay (t : Nat) (a : Nat) (s : State) : Out :=
  s.when t 14 fun s =>
    match s.mant.run.find? fun j => j.addr == a && j.kind == 3 with
    | none => s
    | some j =>
      let s := s.jobOff j
      let c := payCode (fld j.w0 27 26) (fld j.w0 25 24)
      match s.load j.inA (c.k / 8) with
      | none => s.jobReport j { code := .fenced }
      | some bs =>
        let s := s.storeDrop j.outA (bytesOf (c.encode (bitsOf bs)).toList)
        (s.event (32 * 4 + 13)).jobReport j {}

/-- A payload codeword, or the header codeword, of a frame is lost with its lane (R26): the frame ends without an
acknowledgement and is counted once. -/
def State.frameLost (s : State) (ctx : Nat) (sync : Word) : State :=
  if s.lant.dead.lookup ctx == some sync then s
  else
    let s := { s with lant := { s.lant with
      dead := tabSet s.lant.dead ctx sync
      behind := s.lant.behind.filter fun x => !(x.1 == ctx && x.2.syncLt == sync) } }
    let s := match s.rxFrame ctx with
      | some f => if f.syncLt == sync then s.dropRx ctx else s
      | none => s
    s.bump LANT_CNT_FENCED

/-- Lane `l` is fenced (R26): its jobs complete with FENCED, and the frames lost are counted. [DEDUCED, assumption 65]
-/
def State.laneFence (s : State) (l : Nat) : State :=
  (s.mant.run.filter fun j => j.lane == some l).foldl (fun s j =>
    ((s.jobOff j).jobDone j { code := .fenced }).frameLost j.ctx j.syncLt) s

/-! ### Submission and withdrawal -/

/-- A job is taken into the queue; an unlisted KIND completes at once with BAD_ARGUMENT, and every job with REFUSED
while EN is 0 (R174, R175). -/
def State.jobQueue (s : State) (a : Nat) : State :=
  match s.readJob a with
  | none => s
  | some j =>
    if !s.rb MANT_CTL 0 then s.jobDone j { code := .refused }
    else if 3 < j.kind then s.jobDone j { code := .badArgument }
    else ({ s with mant := { s.mant with queue := s.mant.queue ++ [j] } }).event (32 * 4)

/-- MANT_SUBMIT written with `v` (R173): while the queue is full, or an earlier write is held, the fabric holds the
write and the writer stalls. [DEDUCED, assumption 63] -/
def State.mantSubmit (s : State) (by_ : Ini) (v : Word) : State :=
  let a := fld v 29 0 * 64
  if (s.mant.queue.length < 512 && s.mant.waiting.isEmpty) || !s.rb MANT_CTL 0 then s.jobQueue a
  else
    let s := { s with mant := { s.mant with waiting := s.mant.waiting ++ [(iniIdx by_, a, s.clk)] } }
    match by_ with
    | .wick c => s.setCore c.val { s.core c.val with fstHeld := some (MANT_SUBMIT, v.toNat) }
    | .lantern k => s.setCore (64 + k.val) { s.core (64 + k.val) with fstHeld := some (MANT_SUBMIT, v.toNat) }
    | _ => s

/-- The oldest held MANT_SUBMIT write is performed if the queue has room; the fabric cycles held are counted (R457).
[DEDUCED, assumption 64] -/
def State.mantAdmitOne (s : State) : State :=
  match s.mant.waiting with
  | [] => s
  | (who, a, since) :: rest =>
    if 512 ≤ s.mant.queue.length && s.rb MANT_CTL 0 then s
    else
      let s := ({ s with mant := { s.mant with waiting := rest } }).event (32 * 4 + 14) (fabCycle (s.clk - since))
      (s.heldDone who).jobQueue a

/-- Held MANT_SUBMIT writes are performed while the queue has room (R173). [DEDUCED, assumption 64] -/
def State.mantAdmit (s : State) : State := s.mant.waiting.foldl (fun s _ => s.mantAdmitOne) s

/-- MANT_CTL written (R187): with EN 0 the held writes are performed and end with REFUSED. -/
def State.mantCtl (s : State) (v : Word) : State :=
  (s.setReg MANT_CTL (v &&& 1 ||| BitVec.ofNat 32 (max 1 (min 32 (fld v 13 8)) * 256))).mantAdmit

/-- MANT_SUBMIT (R173). -/
def execMantSubmit (t : Nat) (by_ : Ini) (v : Word) (s : State) : Out :=
  s.access t MANT_SUBMIT by_ (fun _ => false) fun s => s.mantSubmit by_ v

/-- Codewords that lane `l` holds, and whether one is a LAST decode. -/
def State.laneLoad (s : State) (l : Nat) : Nat := (s.mant.run.filter fun j => j.lane == some l).length
def State.laneLast (s : State) (l : Nat) : Bool := s.mant.run.any fun j => j.lane == some l && j.last && j.dec

/-- The lane or encoder that takes a job now (R173). -/
def State.laneFor (s : State) (j : MJob) : Option Nat :=
  if j.dec then
    let cand := (List.range 24).filter fun l =>
      s.inService (0x10 + l) && decide (s.laneLoad l < 4) && !(j.last && j.kind == 1 && s.laneLast l)
    cand.foldl (fun b l => match b with
      | none => some l
      | some m => if s.laneLoad l < s.laneLoad m then some l else b) none
  else [24, 25].find? fun e => s.laneLoad e = 0

/-- The next job to dispatch: by class, decodes and encodes apart, the head of each only. -/
def State.nextJob (s : State) : Option (MJob × Nat) :=
  [(0, true), (1, true), (1, false), (2, true), (2, false)].findSome? fun (c : Nat × Bool) =>
    match s.mant.queue.find? fun j => j.order = c.1 && j.dec == c.2 with
    | some j => (s.laneFor j).map fun l => (j, l)
    | none => none

/-- MANT_JOB_DISPATCH (R173). -/
def execMantJobDispatch (t : Nat) (s : State) : Out :=
  s.when t 14 fun s =>
    match s.nextJob with
    | none => s
    | some (j, l) =>
      ({ s with mant := { s.mant with
        queue := s.mant.queue.erase j
        run := s.mant.run ++ [{ j with lane := some l }] } }).mantAdmit

/-- Bytes of a job's OUT (R174). -/
def MJob.outLen (j : MJob) : Nat :=
  match j.kind with
  | 0 => 4
  | 1 => (hdrPay j.hdr).k / 8
  | 2 => 12
  | _ => (payCode (fld j.w0 27 26) (fld j.w0 25 24)).n / 8

/-- A withdrawn job leaves OUT undefined (R176). -/
def State.scribble (s : State) (a n : Nat) : State := (s.drawBytes n).2.storeDrop a (s.drawBytes n).1

/-- MANT_ABORT written with `v` (R176). -/
def State.mantAbort (s : State) (by_ : Ini) (v : Word) : State :=
  let a := fld v 29 0 * 64
  match (s.mant.run ++ s.mant.queue).find? fun j => j.addr == a with
  | none => s.result by_ MANT_ABORT_RES .tooLate
  | some j =>
    let s := { s with mant := { s.mant with run := s.mant.run.erase j } }
    let s := if j.lane.isSome then s
      else { s with mant := { s.mant with queue := s.mant.queue.filter fun x => x.addr != a } }
    ((s.scribble j.outA j.outLen).result by_ MANT_ABORT_RES .ok).mantAdmit

/-- MANT_ABORT (R176). -/
def execMantAbort (t : Nat) (by_ : Ini) (v : Word) (s : State) : Out :=
  s.access t MANT_ABORT by_ (fun _ => false) fun s => s.mantAbort by_ v

/-! ### Roles, exports and imports -/

/-- A 32-bit local instant has passed. -/
def State.passed (s : State) (w : Word) : Bool := decide (0 ≤ (BitVec.ofNat 32 s.raw - w).toInt)

/-- STORE_ENTRY_EXPIRY (R179): roles of the entry in slot `k` whose time has come end; the importer's 2 ms run on its
own network time (R185), and an export that is not built by then never is. [DEDUCED, assumption 151] -/
def execStoreEntryExpiry (t : Nat) (k : Fin 4096) (s : State) : Out :=
  s.when t 14 fun s =>
    match s.entryAt k.val with
    | none => s
    | some e =>
      let win := BitVec.ofNat 32 (s.rf MANT_PAIR_CTL 14 0 * 1000 + 81000000)
      let ub := e.unbound && !s.passed (e.t0 + win)
      let late := decide (e.stamp + bodyNs e.hdr e.mod4 e.cls + 2000000 < s.now)
      (s.setEntry k.val { e with
        unbound := ub
        hold := e.hold && !late
        exp := e.exp && (e.built || !late)
        lastDone := e.lastDone || s.passed (e.t0 + win) }).closeEntry k.val

/-- EXP_LATE (R185): messages not handed on in time are dropped, one count each. -/
def execExpLate (t : Nat) (s : State) : Out :=
  s.when t 14 fun s =>
    let lim := 2000000 - (s.rf MANT_EXP_CTL 29 20 * 1000 : Nat)
    let late := s.mant.exports.filter fun x => decide (x.t0 + lim < s.now)
    let s := { s with mant := { s.mant with exports := s.mant.exports.filter fun x => !decide (x.t0 + lim < s.now) } }
    late.foldl (fun s x => ((s.bump MANT_CNT_EXP_LATE).pulse (irqNo 6 2)).expDone x.ctx x.syncLt) s

/-- The store lies wholly within ranks in service (R178, R460). -/
def State.storeOk (s : State) : Bool := s.areaIn s.storeBase 0x4000000

/-- A write of `v` to register `a` sets bit `n`, which is 0, while the store does not lie in ranks in service: the write is
ignored (R178). -/
def State.storeBars (s : State) (a n : Nat) (v : Word) : Bool := bit v n && !s.rb a n && !s.storeOk

/-- MANT_PAIR_CTL written (R178, R188). -/
def State.pairCtl (s : State) (v : Word) : State :=
  if s.storeBars MANT_PAIR_CTL 31 v then s
  else
    s.setReg MANT_PAIR_CTL (BitVec.ofNat 32 ((bit v 31).toNat * 2 ^ 31 + max 1 (min 4 (fld v 27 24)) * 2 ^ 24
      + max 1000 (min 20000 (fld v 14 0))))

/-- MANT_EXP_CTL written (R178, R188). -/
def State.expCtl (s : State) (v : Word) : State :=
  if s.storeBars MANT_EXP_CTL 31 v || s.storeBars MANT_EXP_CTL 30 v then s
  else
    s.setReg MANT_EXP_CTL (BitVec.ofNat 32 ((bit v 31).toNat * 2 ^ 31 + (bit v 30).toNat * 2 ^ 30
      + min 1000 (fld v 29 20) * 2 ^ 20 + min 5 (fld v 11 8) * 256 + fld v 7 0))

/-- MANT_PAIR_ENABLE (R178): MANT_PAIR_CTL, or MANT_EXP_CTL when `exp`, is written. -/
def execMantPairEnable (t : Nat) (by_ : Ini) (exp : Bool) (v : Word) (s : State) : Out :=
  s.access t (if exp then MANT_EXP_CTL else MANT_PAIR_CTL) by_ (fun _ => false) fun s => if exp then s.expCtl v else s.pairCtl v

/-- The LLRs of a body's codeword: nibbles, 0x8 read as -7, scaled by 2^QSHIFT (R183, R186). -/
def importLlr (q : Nat) (bs : List Byte) : List Int :=
  bs.flatMap fun b => [b.toNat / 16, b.toNat % 16].map fun n => max (-7) (sext 4 n) * 2 ^ q

/-- What an import gives each codeword of an entry, in index order; none where one is not recovered (R186). -/
def importCws (e : SoftEntry) (cap : Nat) (q llrMask decMask : Nat) : List Nat → List Byte → List (Option (List Byte))
  | [], _ => []
  | j :: js, body =>
    let c := hdrPay e.hdr
    let hasD := decMask / 2 ^ j % 2 = 1
    let hasL := llrMask / 2 ^ j % 2 = 1
    let len := if hasD then c.k / 8 else if hasL then c.n / 2 else 0
    let part := body.take len
    let got := match e.cws.lookup j with
      | some (.bits b) => some b
      | some (.llrs l) =>
        if hasD then some part
        else if hasL then
          let p := payDecode c (combineLlr l (importLlr q part)) cap true
          if p.ok then some p.bytes else none
        else none
      | none => none
    got :: importCws e cap q llrMask decMask js (body.drop len)

/-- IMP_RING base. -/
def State.impRing (s : State) : Nat := s.rf MANT_IMP_RING_HI 3 0 * 2 ^ 32 + (s.reg MANT_IMP_RING_LO).toNat

/-- A soft-export body arrives (R186). [DEDUCED, assumption 66] -/
def State.importBody (s : State) (body : List Byte) : State :=
  let w := fun (k : Nat) => leNat ((body.drop (4 * k)).take 4)
  let drop := (s.bump MANT_CNT_IMP_DROP).pulse (irqNo 6 1)
  let stamp : Int := ((w 4 % 65536 * 2 ^ 32 + w 3) * 1000000000 + w 2 : Nat)
  let tol := s.rf MANT_EXP_CTL 7 0 * 1000
  let hit := s.mant.store.find? fun (e : Nat × SoftEntry) =>
    e.2.hold && e.2.hdr.toNat == w 1 &&
      decide (s.now ≤ e.2.stamp + bodyNs e.2.hdr e.2.mod4 e.2.cls + 2000000) && decide ((e.2.stamp - stamp).natAbs ≤ tol)
  if !s.rb MANT_EXP_CTL 30 then s
  else if w 0 / 2 ^ 24 ≠ 1 then drop
  else
    match hit with
    | none => drop
    | some (k, e) =>
      let q := w 4 / 2 ^ 20 % 16
      let cws := importCws e (min 32 (s.rf MANT_CTL 13 8)) q (w 5) (w 6) (List.range (hdrNcw e.hdr)) (body.drop 0x20)
      if cws.any Option.isNone then (s.bump MANT_CNT_IMP_FAIL).pulse (irqNo 6 1)
      else
        let wr := s.rf MANT_IMP_IDX 21 16
        if (wr + 1) % 64 = s.rf MANT_IMP_IDX 5 0 then drop
        else
          let st := e.stamp.toNat
          let sec := st / 1000000000
          let bytes := cws.flatMap fun c => c.getD []
          let rec_ := [e.hdr.toNat, st % 1000000000, sec % 2 ^ 32, sec / 2 ^ 32 % 2 ^ 16, e.ctx * 2 ^ 16 + w 0 % 1024].flatMap
            (leBytes 4) ++ List.replicate 44 0 ++ bytes
          match s.store (s.impRing + wr * 0x8000) rec_ with
          | none => drop
          | some s =>
            let s := (s.setRf MANT_IMP_IDX 21 16 ((wr + 1) % 64)).pulse (irqNo 6 0)
            let s := ((s.advance (s.rf MANT_IMP_TASK 11 0) 1).bump MANT_CNT_IMP_OK).event (32 * 4 + 12)
            let s := { s with mant := { s.mant with store := tabDel s.mant.store k } }
            let n := List.range (hdrNcw e.hdr)
            let s := (n.zip cws).foldl (fun s (x : Nat × Option (List Byte)) =>
              s.rxCodeword e.ctx e.syncLt e.hdr e.cls e.mod4 e.meas x.1 (x.2.getD []) (hdrPair e.hdr ≠ 0) true) s
            s.onFrame e.ctx e.syncLt fun f => { f with
              import_ := some (w 0 % 1024), stamp := e.stamp, t0 := e.stamp + bodyNs e.hdr e.mod4 e.cls }

/-- IMPORT (R186). -/
def execImportBody (t : Nat) (body : List Byte) (s : State) : Out := s.when t 14 fun s => s.importBody body

/-- The read-only views of the MANT registers. -/
def State.mantView (s : State) (a : Nat) : Option Word :=
  if a = MANT_LANES then
    some (BitVec.ofNat 32 ((List.range 24).foldl (fun b l => if s.inService (0x10 + l) then b + 2 ^ l else b) 0))
  else if a = MANT_QLEVEL then some (BitVec.ofNat 32 s.mant.queue.length)
  else none

end Sys2Proof.Machine
end

