-- ==== Sys2Proof/Machine/View.lean ====
section
/-! DEFINITION. What a register shows, and the level of every interrupt source (R84, R255, R256, R451 to R456). -/
namespace Sys2Proof.Machine

/-- The registers of a Wick core (R255, R256). -/
def State.wickView (s : State) (a : Nat) : Option Word :=
  if a < 0x45000000 ∨ 0x45400000 ≤ a then
    (if a = WICK_LOAD_PROG then some (BitVec.ofNat 32 (match s.loader with
      | some l => (l.written.getD l.words.length) % 2 ^ 18
      | none => 0)) else none)
  else
    let k := (a - 0x45000000) / 0x10000
    let c := s.core k
    match a % 0x10000 with
    | 0 => some (BitVec.ofNat 32 (c.running && s.inService (coreUnit k)).toNat)
    | 4 => some (BitVec.ofNat 32 (c.startRefused.toNat * 2 ^ 17 + c.fault.toNat * 2 ^ 16 + c.faultCode * 256
        + c.loaded.toNat * 8 + s.coreState k))
    | 8 => some (BitVec.ofNat 32 (c.pc % 16384))
    | 0x0C => some (BitVec.ofNat 32 (c.faultPc % 16384))
    | 0x10 => some (BitVec.ofNat 32 c.entry)
    | 0x30 => some (BitVec.ofNat 32 c.rrb.val)
    | _ => none

/-- LANTk_CTL and LANTk_STATUS (R218, R220). -/
def State.lantView (s : State) (a : Nat) : Option Word :=
  if 0x47000400 ≤ a ∧ a < 0x47000580 then
    let k := (a - 0x47000400) / 0x40
    match (a - 0x47000400) % 0x40 with
    | 0 => some (BitVec.ofNat 32 ((s.core (64 + k)).running && s.inService (coreUnit (64 + k))).toNat)
    | 4 => some (s.lantState k)
    | _ => none
  else if a = LANT_BCN_LAST then
    some (((s.bcnLast (s.rf NTIM_BCN_CTL 29 20)).map fun q => BitVec.ofNat 32 (2 ^ 31 + q)).getD 0)
  else none

/-- The low registers of two-register quantities, TMR_LT and mtime (R65, R84, R431). -/
def State.timeView (s : State) (a : Nat) : Option Word :=
  if a = NTIM_RAW_LO ∨ a = TMR_LT_LO ∨ a = ACLINT_MTIME_LO then some (BitVec.ofNat 32 s.raw)
  else if a = ACLINT_MTIME_HI then some (BitVec.ofNat 32 (s.raw / 2 ^ 32))
  else if a = NTIM_NOW_NS then some (BitVec.ofInt 32 (s.now % 1000000000))
  else none

/-- Performance counters and their shadows (R451). -/
def State.pcntView (s : State) (a : Nat) : Option Word :=
  if 0x4D001000 ≤ a ∧ a < 0x4D002000 then
    (if a % 8 = 0 then some ((tabGet 0 s.pcnt ((a - 0x4D001000) / 8)).setWidth 32) else none)
  else if 0x4D002000 ≤ a ∧ a < 0x4D003000 then
    let v := tabGet 0 s.pcntShd ((a - 0x4D002000) / 8)
    some (if a % 8 = 0 then v.setWidth 32 else BitVec.ofNat 32 (v.toNat / 2 ^ 32))
  else none

/-- EMAC_MDIO_RES's BUSY. -/
def State.mdioView (s : State) (by_ : Ini) (a : Nat) : Option Word :=
  if a = EMAC_MDIO_RES then some (setBit (s.latch by_ a) 8 s.mdio.isSome) else none

/-- The views of every block. -/
def State.viewOf (s : State) (a : Nat) : Option Word :=
  match a / 0x1000000 with
  | 0x40 => s.boardView a <|> s.timeView a
  | 0x41 => s.pwrView a
  | 0x42 => s.timeView a <|> s.ntimView a <|> s.tmrView a
  | 0x43 => s.lampView a
  | 0x44 => s.lensView a
  | 0x45 => s.wickView a
  | 0x46 => s.mantView a
  | 0x47 => s.lantView a <|> s.nbrView a
  | 0x48 => s.ciphView a <|> s.secView a
  | 0x49 => s.chndView a
  | 0x4A => s.dmcView a
  | 0x4B => if a < 0x4B080000 then s.emacView a else s.fwdView a
  | 0x4C => s.tmgrView a
  | 0x4D => s.pcntView a
  | _ => none

/-- What register `a` shows, apart from the copies kept per initiator. [DEDUCED, assumption 11] -/
def State.view (s : State) (a : Nat) : Word := (s.viewOf a).getD (s.reg a)

/-! ### Interrupt levels (R455, R456) -/

/-- Any of registers `f 0` to `f (n - 1)` has a bit of `m`. -/
def State.anyBit (s : State) (n : Nat) (f : Nat → Nat) (m : Word) : Bool :=
  (List.range n).any fun i => s.view (f i) &&& m != 0

/-- Channels 4g to 4g + 3 with TRIG_IRQ and a status bit. -/
def State.tmrLevel (s : State) (g : Nat) : Bool :=
  (List.range 4).any fun i => s.rb (TMR_CH_CTL (4 * g + i)) 20 && s.rf (TMR_CH_STATUS (4 * g + i)) 2 0 != 0

/-- The lamp sources at offset `o`. -/
def State.lampLevel (s : State) (o : Nat) : Bool :=
  if o = 12 then s.anyBit 1 (fun _ => LAMP_PAIR_STATUS) 6
  else
    let n := o / 4
    match o % 4 with
    | 0 => s.rb (LAMP_STATUS n) 15
    | 2 => s.rb (LAMP_STATUS n) 14 || s.rb (LAMP_CAL_STATUS n) 24
    | _ => false

/-- The level of the L source at offset `o` of block `b`; P sources and unlisted offsets have none. [DEDUCED,
assumption 11] -/
def State.level (s : State) (b o : Nat) : Bool :=
  match b with
  | 0 =>
    match o with
    | 0 => s.rb SYS_SUPPLY 2
    | 1 => s.rb SYS_SUPPLY 3
    | 3 => s.rb SYS_CLOCK 7
    | 4 => s.rb SYS_BUSERR_HI 31
    | 6 => s.reg SYS_UNIT_DIV_LO != 0 || s.reg SYS_UNIT_DIV_HI != 0
    | _ => false
  | 1 => if o = 1 then s.reg PWR_BANK_LOST != 0 else if o = 2 then s.anyBit 24 PWR_DOM_STATUS 4 else false
  | 2 =>
    if o = 2 then s.rf NTIM_STATUS 7 6 != 0
    else if o = 3 then s.anyBit 4 NTIM_PPS_STATUS 6
    else if 4 ≤ o && o < 12 then s.tmrLevel (o - 4)
    else false
  | 3 => if o < 13 then s.lampLevel o else false
  | 5 => if o < 8 then (List.range 8).any fun i => (s.core (8 * o + i)).fault || (s.core (8 * o + i)).startRefused else false
  | 7 => if 2 ≤ o && o < 8 then (s.core (64 + o - 2)).fault else false
  | 8 =>
    match o with
    | 0 => s.rf SEC_TAMPER_STATUS 7 2 != 0
    | 1 => s.rb CIPH_STATUS 31
    | 4 => s.rb CIPH_STATUS 29
    | _ => false
  | 9 => if o = 2 then s.rb CHND_STATUS 31 else false
  | 10 => if o = 3 then s.rb DMC_ECC_LOG 31 else if o = 4 then s.rb DMC_STATUS 6 else false
  | 11 =>
    if 5 ≤ o && o < 10 then
      s.rb (EMAC_STATUS (o - 5)) 1 || s.reg (EMAC_STAT_HALF (o - 5)) &&& s.reg (EMAC_STAT_IEN (o - 5)) != 0
    else if o = 12 then s.reg EMAC_WAKE_STATUS != 0
    else false
  | 12 => if o = 4 then s.rb TMGR_STATUS 31 else false
  | 13 => s.reg (PCNT_WRAP o) != 0
  | 14 => if o = 4 then s.rb HIF_MBX_STATUS 1 else false
  | _ => false

/-- Source `n` is pending at the interrupt controller: a pulse held, or a level asserted, and not in service.
[DEDUCED, assumption 133] -/
def State.irqPending (s : State) (n : Nat) : Bool :=
  n != 0 && !s.irqServed.getLsbD n && (s.irqPend.getLsbD n || (decide (n ≤ 240) && s.level ((n - 1) / 16) ((n - 1) % 16)))

end Sys2Proof.Machine
end

