-- ==== Sys2Proof/Machine/Control.lean ====
section
/-! DEFINITION. Unit SETs, the mailbox's commands, boot from outside, the NOR, and background work (R430 to R446). -/
namespace Sys2Proof.Machine

/-! ### Unit SETs (R446) -/

/-- The unit is fenced (R26). -/
def State.unitFence (s : State) (u : Nat) : State :=
  if u ≤ 2 then s.lampFence u
  else if u ≤ 0x0F then (List.range 8).foldl (fun s i => s.fenceCore (8 * (u - 8) + i)) s
  else if u ≤ 0x27 then s.laneFence (u - 0x10)
  else if u ≤ 0x2B then s.cipherFence (u - 0x28)
  else if u ≤ 0x34 then s.emacFence (u - 0x30)
  else (s.trainFenced (u - 0x38)).fenceRankHw (u - 0x38)

/-- The unit's previous SET has not closed. -/
def State.setOpen (s : State) (u : Nat) : Bool :=
  s.dmc.training.any fun g => g.set.isSome && 0x38 + g.cur == u

/-- A SET of unit `u` with epoch `e` (R446); `owner` closes a rank's training (R447). [DEDUCED, assumption 32;
DEDUCED, assumption 167] -/
def State.unitSet (s : State) (u e : Nat) (intent : Bool) (owner : Nat) : State × Code :=
  if !isUnit u then (s, .badArgument)
  else if s.setOpen u || (intent && decide (0x38 ≤ u) && s.dmc.training.isSome) || e ≠ s.nextEpoch u then (s, .refused)
  else if !intent then (((s.unitFence u).setMgmt u e false).setDp u e 0 false false, .ok)
  else if !s.domOn (unitDomain u) then ((s.setMgmt u e true).setFailed u e 1, .fenced)
  else if 0x38 ≤ u then
    let r := u - 0x38
    let g : Training := { ranks := 1#2 <<< r, cur := r, steps := 0, set := some e, owner }
    let s := (s.setMgmt u e true).setRb DMC_RANK_CTL r false
    ({ s with dmc := { s.dmc with training := some g } }, .inSteps)
  else ((s.setMgmt u e true).setDp u e 0 false true, .ok)

/-- SYS_UNIT_CMD written (R452). -/
def State.unitCmd (s : State) (by_ : Ini) (v : Word) : State :=
  let u := fld v 5 0
  let a := s.reg SYS_UNIT_ARG
  let r := if fld v 31 28 = 1 then s.unitSet u (fld a 31 16) (bit a 0) (iniIdx by_) else (s, Code.badArgument)
  let s := r.1.setLatch by_ SYS_UNIT_RES (BitVec.ofNat 32 (r.1.nextEpoch u * 65536 + r.2.val))
  if r.2 = .inSteps then s else s.pulse (irqNo 0 7)

/-- UNIT_SET (R446). -/
def execUnitSet (t : Nat) (via : UnitVia) (s : State) : Out :=
  match via with
  | .reg by_ v => s.access t SYS_UNIT_CMD by_ (fun _ => false) fun s => s.unitCmd by_ v
  | .mailbox => s.when t 18 fun s => s.mbxServe 0x10 fun c s =>
    let u := c.word 0 % 64
    let r := s.unitSet u (c.word 1 / 65536) (c.word 1 % 2 == 1) (256 + c.tag)
    if r.2 = .inSteps then r.1.mbxOpen c
    else (r.1.mbxDone c r.2 [BitVec.ofNat 32 (r.1.nextEpoch u)]).pulse (irqNo 0 7)

/-! ### Fuses and bus errors -/

/-- SYS_SVN_BURN written (R435). -/
def State.svnBurn (s : State) (v : Word) : State :=
  let n := fld v 6 0
  if n ≤ s.board.svn || 64 < n then s else s.onBoard fun b => { b with svn := n }

/-- SYS_SVN_BURN (R435). -/
def execSysSvnBurn (t : Nat) (by_ : Ini) (v : Word) (s : State) : Out :=
  s.access t SYS_SVN_BURN by_ (fun _ => false) fun s => s.svnBurn v

/-- STORE_BUS_ERROR (R430). -/
def execStoreBusError (t : Nat) (a : BitVec 36) (s : State) : Out := s.when t 0 fun s => s.storeError a.toNat

/-! ### Mailbox commands (R437 to R444) -/

/-- HIF_MBX_CMD_IDX.TAIL written by the host (R437). -/
def State.tailWrite (s : State) (v : Nat) : State :=
  if s.rb HIF_MBX_STATUS 0 then (s.setRf HIF_MBX_CMD_IDX 7 0 v).pulse (irqNo 14 0) else s.setRb HIF_MBX_STATUS 1 true

/-- MAILBOX_TAIL_WRITE (R437). -/
def execMailboxTailWrite (t : Nat) (v : BitVec 8) (s : State) : Out :=
  s.access t HIF_MBX_CMD_IDX .host (fun _ => false) fun s => s.tailWrite v.toNat

/-- HELLO (R439). -/
def execHello (t : Nat) (s : State) : Out :=
  s.when t 18 fun s => s.mbxServe 1 fun c s =>
    let own := s.rf HIF_MBX_VER 15 0
    if c.word 0 / 256 % 256 = own / 256 then
      (s.onMbx fun m => { m with minor := some (min (c.word 0 % 256) (own % 256)) }).mbxDone c .ok [BitVec.ofNat 32 own]
    else s.mbxDone c .versionMismatch [BitVec.ofNat 32 own]

/-- GET_INFO (R438): SYS_IDENT, serial number, protocol version, BOOT_MEAS. -/
def execGetInfo (t : Nat) (s : State) : Out :=
  s.when t 18 fun s => s.mbxServe 2 fun c s =>
    s.mbxDone c .ok ([identWord, Config.serial.setWidth 32, (Config.serial >>> 32).setWidth 32,
      BitVec.ofNat 32 (s.rf HIF_MBX_VER 15 0)] ++ (List.range 8).map fun i => s.reg (SYS_BOOT_MEAS i))

/-- MBX_ABORT (R309, R438, R440): no command of the mailbox that returns IN_STEPS has an abort. -/
def execMbxAbort (t : Nat) (s : State) : Out :=
  s.when t 18 fun s => s.mbxServe 3 fun c s =>
    s.mbxDone c (if (s.mbx.opened.lookup (c.word 0 % 65536)).isSome then .refused else .tooLate) []

/-- BOOT (R434). -/
def execBoot (t : Nat) (s : State) : Out :=
  s.when t 18 fun s => s.mbxServe 4 fun c s =>
    let a := c.word 0
    let h := if inSram a && inSram (a + 63) then (s.load a 64).getD [] else []
    match headerCode h s.board.svn with
    | some x => (s.bootStatus 3 x).mbxDone c x []
    | none =>
      match (if inSram (a + imgLen h + 135) then s.load a (imgLen h + 136) else none) with
      | none => (s.bootStatus 3 .badArgument).mbxDone c .badArgument []
      | some img =>
        let r := s.romVerify 3 img
        let s := r.1.mbxDone c r.2 []
        if r.2 = .ok then s.setRb HIF_MBX_STATUS 0 false else s

/-- UNIT_GET (R438): the records of a unit. -/
def execUnitGet (t : Nat) (s : State) : Out :=
  s.when t 18 fun s => s.mbxServe 0x11 fun c s =>
    let u := c.word 0 % 64
    if isUnit u then s.mbxDone c .ok [s.reg (SYS_UNIT_MGMT u), s.reg (SYS_UNIT_DP u)] else s.mbxDone c .badArgument []

/-- Payload words `i` and `i + 1` as an address. -/
def MbxCmd.addr (c : MbxCmd) (i : Nat) : Nat := c.word i + c.word (i + 1) * 2 ^ 32

/-- Section `i` of the calibration store. -/
def calSection (i : Nat) : Nat := 0x0010000 + 0x10000 * i

/-- CAL_READ (R444). -/
def execCalRead (t : Nat) (s : State) : Out :=
  s.when t 18 fun s => s.mbxServe 0x20 fun c s =>
    if 4 ≤ c.word 0 then s.mbxDone c .badArgument []
    else
      match s.store (c.addr 1) (cellsRead norZero s.nor (calSection (c.word 0)) 65536) with
      | some s => s.mbxDone c .ok []
      | none => s.mbxDone c .fenced []

/-- CAL_WRITE (R440, R444): bits 3 to 0 of the first payload word name the sections; their contents follow one another
at the address. -/
def execCalWrite (t : Nat) (s : State) : Out :=
  s.when t 18 fun s => s.mbxServe 0x21 fun c s =>
    let secs := (List.range 4).filter fun i => c.word 0 / 2 ^ i % 2 = 1
    if secs.isEmpty || decide (16 ≤ c.word 0) then s.mbxDone c .badArgument []
    else if s.calWr.isSome then s.mbxDone c .refused []
    else
      match s.load (c.addr 1) (65536 * secs.length) with
      | none => s.mbxDone c .fenced []
      | some bs =>
        let data := (List.range secs.length).map fun i => (bs.drop (65536 * i)).take 65536
        { s with calWr := some { secs, data, tag := c.tag } }.mbxOpen c

/-- The NOR with `bs` at `a`. -/
def State.norPut (s : State) (a : Nat) (bs : List Byte) : State := { s with nor := cellsWrite norZero s.nor a bs }

/-- A 64 KiB sector erased. -/
def State.norWipe (s : State) (a : Nat) : State :=
  { s with nor := s.nor.filter fun c => !(decide (a ≤ c.1) && decide (c.1 < a + 0x10000)) }

/-- One step of CAL_WRITE (R440): a section is erased at its first step and programmed at its twentieth. [DEDUCED,
assumption 125] -/
def State.calWriteStep (s : State) : State :=
  match s.calWr with
  | none => s
  | some w =>
    match w.secs, w.data with
    | i :: is, d :: ds =>
      let s := if w.step = 0 then (s.norWipe (calSection i)).bump SYS_CNT_NOR_ERASE else s
      if w.step < 19 then { s with calWr := some { w with step := w.step + 1 } }
      else
        let s := s.norPut (calSection i) d
        if is.isEmpty then { s with calWr := none }.mbxClose w.tag .ok []
        else { s with calWr := some { w with secs := is, data := ds, step := 0 } }
    | _, _ => { s with calWr := none }.mbxClose w.tag .ok []

/-! ### The journal (R445) -/

/-- The state with the journal's position changed. -/
def State.onJrn (s : State) (f : Journal → Journal) : State := { s with jrn := f s.jrn }

/-- The record of sequence number `q` in a sector from offset `o` on: its address and length. -/
def State.jrnFind (s : State) (k q : Nat) : Nat → Nat → Option (Nat × Nat)
  | 0, _ => none
  | f + 1, o =>
    match s.jrnLen (jrnSector k + o) with
    | none => none
    | some len =>
      if s.norWord (jrnSector k + o + 12 + len) ≠ 0x0000C0DE then none
      else if s.norWord (jrnSector k + o + 4) = q then some (jrnSector k + o, len)
      else s.jrnFind k q f (o + 16 + len)

/-- JOURNAL_READ (R438): the record of the sequence number in the first payload word is copied to the address. -/
def execJournalRead (t : Nat) (s : State) : Out :=
  s.when t 18 fun s => s.mbxServe 0x30 fun c s =>
    let ks := (List.range s.jrn.used).map fun i => (s.jrn.first + i) % 1520
    match ks.findSome? fun k => s.jrnFind k (c.word 0) 4096 16 with
    | none => s.mbxDone c .badArgument []
    | some (a, len) =>
      match s.store (c.addr 1) (cellsRead norZero s.nor (a + 12) len) with
      | some s => s.mbxDone c .ok [BitVec.ofNat 32 len]
      | none => s.mbxDone c .fenced []

/-- A record of `data` with sequence number `q`; without its commit word where power is lost before it. [DESIGN
CHOICE, assumption 121] -/
def jrnRecord (q : Nat) (data : List Byte) (cut : Bool) : List Byte :=
  let head := leBytes 4 (0x4A520000 + data.length) ++ leBytes 4 q
  head ++ leBytes 4 (crc32 (natsOf (head ++ data))) ++ data ++ (if cut then [] else leBytes 4 0x0000C0DE)

/-- A record is appended (R445); `cut` says that power is lost before the commit word. -/
def State.jrnAppend (s : State) (data : List Byte) (cut : Bool) : State :=
  let close (s : State) (c : Code) : State := s.onJrn fun j => { j with code := some c }
  if data.isEmpty || decide (4080 < data.length) then close s .badArgument
  else
    let need := 16 + data.length
    let open_ := s.jrn.used = 0 || decide (0x10000 < s.jrn.off + need)
    if open_ && s.jrn.used = 1520 then close s .noBuffer
    else
      let s := if open_ then
          let k := (s.jrn.first + s.jrn.used) % 1520
          let n := s.norWord (jrnSector k)
          (s.norPut (jrnSector k) (leBytes 4 (if n = 0xFFFFFFFF then 0 else n) ++ leBytes 4 s.jrn.seq)).onJrn fun j =>
            { j with used := j.used + 1, off := 16 }
        else s
      let k := (s.jrn.first + s.jrn.used + 1519) % 1520
      let s := s.norPut (jrnSector k + s.jrn.off) (jrnRecord s.jrn.seq data cut)
      close (s.onJrn fun j => { j with off := j.off + need, seq := (j.seq + 1) % 2 ^ 32 }) .ok

/-- JOURNAL_APPEND (R445). -/
def execJournalAppend (t : Nat) (data : List Byte) (cut : Bool) (s : State) : Out :=
  s.when t 0 fun s => s.jrnAppend data cut

/-- NOR_ERASE (R441, R445): the oldest sector is erased when fewer than four are, within the second's budget. -/
def execNorErase (t : Nat) (s : State) : Out :=
  s.when t 0 fun s =>
    let sec := s.clk / 1000000000
    let n := if s.bg.norSec = sec then s.bg.norN else 0
    if s.jrn.used < 1517 || decide (s.rf SYS_NOR_CTL 7 0 ≤ n) then s
    else
      let a := jrnSector s.jrn.first
      let e := s.norWord a
      let e := (if e = 0xFFFFFFFF then 0 else e) + 1
      let s := ((s.norWipe a).norPut a (leBytes 4 e)).bump SYS_CNT_NOR_ERASE
      let s := if s.rf SYS_NOR_WEAR 16 0 < e then s.setReg SYS_NOR_WEAR (BitVec.ofNat 32 (min 0x1FFFF e)) else s
      { s.onJrn fun j => { j with first := (j.first + 1) % 1520, used := j.used - 1 } with
        bg := { s.bg with norSec := sec, norN := n + 1 } }

/-! ### Background work (R441 to R443) -/

/-- SRAM_SCRUB (R442): the next granule of shared SRAM; `ecc` is what the read finds, `written` says that the granule was
written before the correcting write. -/
def execSramScrub (t : Nat) (ecc : Ecc) (written : Bool) (s : State) : Out :=
  s.when t 21 fun s =>
    let ms := s.clk / 1000000
    let n := if s.bg.sramMs = ms then s.bg.sramN else 0
    if !s.rb SYS_SSCRUB_CTL 31 || decide (s.rf SYS_SSCRUB_CTL 11 0 ≤ n) then s
    else
      let pos := s.bg.sramPos
      let g := (0x08000000 + pos * 64) / 64
      let ecc := if s.bg.sramBad.contains g then Ecc.uncorrectable 0 0 else ecc
      let s := { s with bg := { s.bg with sramMs := ms, sramN := n + 1, sramPos := (pos + 1) % 262144 } }
      let s := match ecc with
        | .clean => s
        | .correctable _ _ => if written then s else (s.bump SYS_CNT_SSCRUB_CE).event (32 * 12 + 16)
        | .uncorrectable _ _ =>
          { (s.bump SYS_CNT_SSCRUB_UE).pulse (irqNo 0 5) with
            bg := { s.bg with sramBad := g :: s.bg.sramBad.filter fun x => x != g } }
      if pos = 262143 then s.bump SYS_CNT_SSCRUB_PASS else s

/-- A word of a telemetry record: a register of domain `d`, or a free value while the domain is not on. [DEDUCED,
assumption 126] -/
def State.telemWord (s : State) (d a : Nat) : Nat × State :=
  if s.domOn d then ((s.view a).toNat, s) else s.draw (2 ^ 32)

/-- The registers of a telemetry record with their domains (R443). -/
def telemRegs : List (Nat × Nat) :=
  [(0, SYS_SUPPLY), (0, SYS_THERMAL), (1, LAMP_TEMP 0), (2, LAMP_TEMP 1), (3, LAMP_TEMP 2), (4, LENS_USAGE 0),
   (4, LENS_USAGE 1), (4, LENS_USAGE 2), (14, MANT_QLEVEL)]

/-- The telemetry record of this instant (R443). [DEDUCED, assumption 126] -/
def State.telemRecord (s : State) : List Byte × State :=
  let net := s.now
  let sec := net / 1000000000
  let time := leBytes 4 (net % 1000000000).toNat ++ leBytes 4 (sec % 2 ^ 32).toNat ++ leBytes 4 (sec / 2 ^ 32 % 2 ^ 16).toNat
  let r := telemRegs.foldl (fun (x : List Byte × State) e =>
    let w := x.2.telemWord e.1 e.2
    (x.1 ++ leBytes 4 w.1, w.2)) (time, s)
  let w := r.2.telemWord 15 CIPH_STATUS
  (r.1 ++ leBytes 4 (w.1 % 128) ++ List.replicate 12 0, w.2)

/-- TELEMETRY_SAMPLE (R441, R443). -/
def execTelemetrySample (t : Nat) (s : State) : Out :=
  s.when t 0 fun s =>
    let due := match s.bg.telemAt with
      | some a => decide (a + s.rf SYS_TELEM_CTL 9 0 * 1000000 ≤ s.clk)
      | none => true
    if !s.rb SYS_TELEM_CTL 31 || !due then s
    else
      let s := { s with bg := { s.bg with telemAt := some s.clk } }
      let r := s.telemRecord
      let s := r.2
      let wr := s.rf SYS_TELEM_IDX 25 16
      let base := s.rf SYS_TELEM_HI 3 0 * 2 ^ 32 + s.rf SYS_TELEM_LO 31 16 * 65536
      if (wr + 1) % 1024 = s.rf SYS_TELEM_IDX 9 0 then s.bump SYS_CNT_TELEM_DROP
      else
        match s.store (base + 64 * wr) r.1 with
        | some s => (s.setRf SYS_TELEM_IDX 25 16 ((wr + 1) % 1024)).pulse (irqNo 0 8)
        | none => s.bump SYS_CNT_TELEM_DROP

/-- BG_CAL_SECOND (R441, R443): a second ends; the lamps with a calibration still due are counted, and the budget of
steps begins anew. [DEDUCED, assumption 127] -/
def execBgCalSecond (t : Nat) (s : State) : Out :=
  s.when t 0 fun s =>
    (List.range 3).foldl (fun s n =>
      if !s.domOn (1 + n) then s
      else
        let late := (s.lamp n).calDue != 0
        let s := s.onLamp n fun l => { l with bgSecond := 0 }
        if late then s.bump (SYS_BG_CAL_LATE n) else s) s

/-! ### Console images (R433) -/

/-- The console answers `b`. [DESIGN CHOICE, assumption 128] -/
def State.conReply (s : State) (b : Byte) : State := { s with boot := { s.boot with reply := some b } }

/-- The stream has ended: the image is checked and verified as slot 2; one that fails is dropped, and a new stream may
follow. [DESIGN CHOICE, assumption 128] -/
def State.conEnd (s : State) : State :=
  let img := s.boot.bytes
  let s := ({ s with boot := { phase := .console } }).conReply 0x06
  match headerCode (img.take 64) s.board.svn with
  | some c => s.bootStatus 2 c
  | none => (s.romVerify 2 (img.take (imgLen img + 136))).1

/-- CONSOLE_IMAGE_BLOCK (R433): a block with its index; `crcOk` says that its CRC-32 agrees. An empty block ends the
stream. -/
def execConsoleImageBlock (t : Nat) (idx : BitVec 32) (data : List Byte) (crcOk : Bool) (s : State) : Out :=
  s.when t 0 fun s =>
    if s.boot.phase != .console then s
    else if !crcOk || idx.toNat ≠ s.boot.next || (!data.isEmpty && decide (data.length ≠ 1024)) then s.conReply 0x15
    else if data.isEmpty then s.conEnd
    else { s with boot := { s.boot with next := s.boot.next + 1, bytes := s.boot.bytes ++ data } }.conReply 0x06

end Sys2Proof.Machine
end

