-- ==== Sys2Proof/Machine/Cluster.lean ====
section
/-! DEFINITION. The Bilolabry cluster protocol, performance-counter snapshots and interrupt claims (R431, R448 to R451). -/
namespace Sys2Proof.Machine

/-- The state with the cluster protocol changed. -/
def State.onClu (s : State) (f : Clu → Clu) : State := { s with clu := f s.clu }

/-! ### Messages (R448) -/

/-- The member id of this module. -/
def State.member (s : State) : Nat := s.rf LANT_CTL 9 0

/-- A message goes to peer `k`. [DESIGN CHOICE, assumption 129] -/
def State.cluSend (s : State) (k type_ : Nat) (code : Option Code) (body : List Byte) : State :=
  s.onClu fun c => { c with sent := c.sent ++ [{ peer := k, type_, code, body }] }

/-- The peer counts as absent. -/
def State.peerAbsent (s : State) (k : Nat) : State :=
  (s.setRb (CLU_PEER k) 0 false).onClu fun c => { c with minor := tabDel c.minor k }

/-- The peer speaks our MAJOR: the lower MINOR is used and VER_OK is set. -/
def State.peerOk (s : State) (k minor : Nat) : State :=
  (s.setRb (CLU_PEER k) 0 true).onClu fun c => { c with minor := tabSet c.minor k (min minor 0) }

/-- A message of another cluster is dropped (R448). [DESIGN CHOICE, assumption 129] -/
def State.cluIn (s : State) (h : CluHdr) (k : State → State) : State := if h.cluster = Config.clusterId then k s else s

/-- The version bytes of a HELLO or HELLO_ACK: this revision speaks 1.0. -/
def cluVersion : List Byte := [0, 1]

/-- CLUSTER_HELLO (R448): sent to peer `k`, or received from it with header `h`. -/
def execClusterHello (t : Nat) (k : Fin 4) (h : Option CluHdr) (s : State) : Out :=
  s.when t 17 fun s =>
    match h with
    | none => s.cluSend k.val 1 none cluVersion
    | some h => s.cluIn h fun s =>
      if h.src.toNat = s.member then (s.peerAbsent k.val).cluSend k.val 2 (some .badArgument) cluVersion
      else if h.major ≠ 1 then (s.peerAbsent k.val).cluSend k.val 2 (some .versionMismatch) cluVersion
      else (s.peerOk k.val h.minor.toNat).cluSend k.val 2 (some .ok) cluVersion

/-- HELLO_ACK (R448): received from peer `k` with a completion code. -/
def execHelloAck (t : Nat) (k : Fin 4) (h : CluHdr) (code : BitVec 8) (s : State) : Out :=
  s.when t 17 fun s => s.cluIn h fun s =>
    if h.major = 1 ∧ code = 0 then s.peerOk k.val h.minor.toNat else s.peerAbsent k.val

/-- KEEPALIVE (R448): a message of TYPE `ty` other than those with a row of their own; one of an unknown TYPE is counted
and ignored. -/
def execKeepalive (t : Nat) (k : Fin 4) (h : CluHdr) (ty : BitVec 8) (s : State) : Out :=
  s.when t 17 fun s => s.cluIn h fun s =>
    if ty = 5 then s.onClu fun c => { c with heard := tabSet c.heard k.val s.clk }
    else s.onClu fun c => { c with unknown := c.unknown + 1 }

/-! ### Partition masks (R450) -/

/-- The masks as a list by lamp. -/
def maskList (m : Masks) : List (BitVec 64) := [m.l0, m.l1, m.l2]

/-- Partitions that some lamp claims. -/
def claimed (m : List (BitVec 64)) : BitVec 64 := m.foldl (· ||| ·) 0

/-- The masks that this member keeps beside a peer's: a partition that both claim goes to the lower member id.
[DEDUCED, assumption 130] -/
def State.settle (s : State) (mine theirs : List (BitVec 64)) (peer : Nat) : List (BitVec 64) :=
  if s.member < peer then mine else mine.map fun m => m &&& ~~~(claimed theirs)

/-- The masks in force. -/
def State.ownMasks (s : State) : List (BitVec 64) :=
  (List.range 3).map fun n => (s.reg (LANT_PART_HI n)).zeroExtend 64 <<< 32 ||| (s.reg (LANT_PART_LO n)).zeroExtend 64

/-- The masks that this member claims: those on offer or agreed, else those in force. [DEDUCED, assumption 130] -/
def State.claims (s : State) : List (BitVec 64) := (s.clu.deal.map (·.masks)).getD s.ownMasks

/-- Masks as the body of a message. -/
def maskBytes (l : List (BitVec 64)) : List Byte := l.flatMap fun m => leBytes 8 m.toNat

/-- T, or the next whole second for a commit that comes after T. -/
def State.applyAt (s : State) (at_ : Nat) : Nat :=
  if (at_ : Int) * 1000000000 < s.now then (s.now / 1000000000).toNat + 1 else at_

/-- MASK_PROPOSE (R450): own masks `m` for T are offered to peer `k`, or peer `k` offers its own. -/
def execMaskPropose (t : Nat) (k : Fin 4) (h : Option CluHdr) (partLen : BitVec 16) (m : Masks) (at_ : BitVec 48)
    (s : State) : Out :=
  s.when t 17 fun s =>
    match h with
    | none =>
      if !s.rb (CLU_PEER k.val) 0 then s
      else
        let deal : MaskDeal := { partLen := s.rf LANT_PART 15 0, masks := (maskList m), at_ := at_.toNat, agreed := false }
        (s.onClu fun c => { c with deal := some deal }).cluSend k.val 3 none
          (leBytes 4 deal.partLen ++ maskBytes deal.masks ++ leBytes 8 deal.at_)
    | some h => s.cluIn h fun s =>
      if !s.rb (CLU_PEER k.val) 0 then s
      else if partLen.toNat ≠ s.rf LANT_PART 15 0 then s.cluSend k.val 4 (some .refused) []
      else
        let masks := s.settle s.claims (maskList m) h.src.toNat
        let deal : MaskDeal := { partLen := partLen.toNat, masks, at_ := s.applyAt at_.toNat, agreed := true }
        (s.onClu fun c => { c with deal := some deal }).cluSend k.val 4 (some .ok) (maskBytes masks)

/-- MASK_COMMIT (R450): peer `k` agrees to the deal on offer with its masks, or refuses it. -/
def execMaskCommit (t : Nat) (k : Fin 4) (h : CluHdr) (code : BitVec 8) (m : Masks) (s : State) : Out :=
  s.when t 17 fun s => s.cluIn h fun s =>
    match s.clu.deal with
    | none => s
    | some d =>
      if !s.rb (CLU_PEER k.val) 0 then s
      else if code ≠ 0 then s.onClu fun c => { c with deal := none }
      else
        let deal : MaskDeal := { d with
          masks := s.settle d.masks (maskList m) h.src.toNat, at_ := s.applyAt d.at_, agreed := true }
        s.onClu fun c => { c with deal := some deal }

/-- MASK_APPLY (R450): network time has reached T of an agreed deal. -/
def execMaskApply (t : Nat) (s : State) : Out :=
  s.when t 17 fun s =>
    match s.clu.deal with
    | none => s
    | some d =>
      if !d.agreed || !s.reached ((d.at_ : Int) * 1000000000) || !s.domOn 13 then s
      else
        let s := ((List.range 3).zip d.masks).foldl (fun s (x : Nat × BitVec 64) =>
          (s.setReg (LANT_PART_LO x.1) (x.2.setWidth 32)).setReg (LANT_PART_HI x.1) ((x.2 >>> 32).setWidth 32)) s
        s.onClu fun c => { c with deal := none }

/-! ### Soft exports (R184, R185, R449) -/

/-- The bytes that a soft-export body takes, as its header and masks say (R183). -/
def bodyLen (h : List Byte) : Nat :=
  let w := fun (k : Nat) => leNat ((h.drop (4 * k)).take 4)
  let hdr := BitVec.ofNat 32 (w 1)
  let c := hdrPay hdr
  0x20 + ((List.range (hdrNcw hdr)).map fun j =>
    if w 6 / 2 ^ j % 2 = 1 then c.k / 8 else if w 5 / 2 ^ j % 2 = 1 then c.n / 2 else 0).foldl (· + ·) 0

/-- CLU_IMPORT written (R449). -/
def State.cluImport (s : State) (v : Word) : State :=
  let a := v.toNat * 16
  let bad := s.bump CLU_CNT_IMP_BAD
  if !(inSram a || inDram a) then bad
  else
    match (s.load a 0x20).bind fun h => s.load a (bodyLen h) with
    | none => bad
    | some body => if s.domOn 14 then s.importBody body else s

/-- CLU_IMPORT (R449). -/
def execCluImport (t : Nat) (by_ : Ini) (v : Word) (s : State) : Out :=
  s.access t CLU_IMPORT by_ (fun _ => false) fun s => s.cluImport v

/-- CLU_PEERk_ADDR as 16 bytes. -/
def State.peerAddr (s : State) (k : Nat) : List Byte :=
  (List.range 4).flatMap fun w => beBytes 4 (s.reg (CLU_PEER_ADDR k w)).toNat

/-- The IPv6 packet of a SOFT_EXPORT to peer `k`. Traffic class, flow label, hop limit and source port are free
values. [DEDUCED, assumption 131] -/
def State.exportPacket (s : State) (k : Nat) (body : List Byte) : List Byte × State :=
  let a := s.draw (2 ^ 28)
  let b := a.2.draw 256
  let c := b.2.draw 65536
  let head := leBytes 4 0x424C0100
    ++ leBytes 4 (0x10000000 + s.member * 2 ^ 10 + s.rf (MANT_EXP_PEER k) 9 0)
    ++ leBytes 4 Config.clusterId.toNat ++ leBytes 4 s.clu.seq
  let payload := head ++ body
  let src := s.localAddr (s.rf CLU_CTL 3 0)
  let dst := s.peerAddr k
  let n := payload.length + 8
  let ports := beBytes 2 c.1 ++ beBytes 2 (s.rf FWD_CTL 15 0)
  let sum := udpSum src dst (ports ++ beBytes 2 n ++ beBytes 2 0 ++ payload)
  (beBytes 4 (6 * 2 ^ 28 + a.1) ++ beBytes 2 n ++ [(17 : Byte)] ++ beBytes 1 b.1 ++ src ++ dst ++ ports ++ beBytes 2 n
    ++ beBytes 2 sum ++ payload, c.2)

/-- An IPv6 packet of the module's own goes through the router (R383, R449); its PCP is a free value. -/
def State.routeOwn (s : State) (ip : List Byte) : State :=
  let d := s.draw 8
  let s := d.2
  match s.lookup false (ipDst false ip) ip.length with
  | (.punt r, s) =>
    let m := s.drawBytes 12
    let x := m.2.freeMeta 0
    x.2.puntPacket r x.1 (m.1 ++ beBytes 2 0x86DD ++ ip)
  | (.black, s) => s.bump FWD_CNT_BLACKHOLE
  | (.vlan, s) => s.bump FWD_CNT_VLAN_DROP
  | (.go r mac, s) =>
    let h := s.egressHead r mac d.1 0x86DD
    let data := padFrame (h.1 ++ ip)
    h.2.offer { src := .transit, port := r.port, queue := s.pcpQueue r.port d.1, data, vid := s.egressVid r.port data }

/-- The copy of the oldest export for peer `k` is handed to the router (R184, R185, R449): nothing is sent to a peer
with VER_OK 0. [DEDUCED, assumption 131] -/
def State.exportSend (s : State) (k : Nat) : State :=
  let m := s.rf (MANT_EXP_PEER k) 9 0
  let lim := 2000000 - (s.rf MANT_EXP_CTL 29 20 * 1000 : Nat)
  match s.mant.exports with
  | x :: rest =>
    if !x.peers.contains m || decide (x.t0 + lim < s.now) then s
    else
      let left := x.peers.filter fun p => p != m
      let keep := if left.isEmpty then rest else { x with peers := left } :: rest
      let s := { s with mant := { s.mant with exports := keep } }
      let s := if left.isEmpty then s.expDone x.ctx x.syncLt else s
      if !s.rb (CLU_PEER k) 0 then s
      else
        let p := s.exportPacket k x.body
        let s := (p.2.routeOwn p.1).onClu fun c => { c with seq := (c.seq + 1) % 2 ^ 32 }
        ((s.cluSend k 0x10 none x.body).bump MANT_CNT_EXP_SENT).event (32 * 4 + 11)
  | [] => s

/-- SOFT_EXPORT (R449): the oldest export goes to peer `k`, or an export from peer `k` has arrived, and firmware hands on
its body's address `v`. -/
def execSoftExport (t : Nat) (k : Fin 4) (h : Option (CluHdr × Word)) (s : State) : Out :=
  s.when t 17 fun s =>
    match h with
    | none => if s.domOn 14 then s.exportSend k.val else s
    | some (h, v) => s.cluIn h fun s => s.cluImport v

/-! ### Performance counters (R451) -/

/-- The initiator may write performance-counter registers (R451). [DEDUCED, assumption 132] -/
def mayWritePcnt (by_ : Ini) : Bool :=
  match by_ with
  | .hart _ p => p == .machine
  | _ => false

/-- PCNT_CTL written. -/
def State.pcntCtl (s : State) (v : Word) : State :=
  let s := if bit v 1 then { s with pcntShd := s.pcnt } else s
  s.setReg PCNT_CTL (v &&& 1)

/-- SNAP (R451): PCNT_CTL is written with SNAP, and with FREEZE `freeze`. -/
def execSnap (t : Nat) (by_ : Ini) (freeze : Bool) (s : State) : Out :=
  s.access t PCNT_CTL by_ (fun _ => !mayWritePcnt by_) fun s => s.pcntCtl (BitVec.ofNat 32 (2 + freeze.toNat))

/-! ### Interrupt claims (R431, R456) -/

/-- A source enabled in context `c`. -/
def State.irqEnabled (s : State) (c n : Nat) : Bool := s.rb (PLIC_ENABLE c (n / 32)) (n % 32)

/-- The source that a claim in context `c` takes: the highest priority, then the lowest number; 0 for none. [PRESUMED,
assumption 18] -/
def State.claimBest (s : State) (c : Nat) : Nat :=
  ((List.range 256).foldl (fun (b : Nat × Nat) n =>
    let p := s.rf (PLIC_PRIORITY n) 2 0
    if s.irqPending n && s.irqEnabled c n && decide (b.2 < p) then (n, p) else b) (0, 0)).1

/-- A claim in context `c` (R456): the pulse is cleared, and the source is in service until its completion. -/
def State.claim (s : State) (c : Nat) : Nat × State :=
  let n := s.claimBest c
  if n = 0 then (0, s)
  else (n, { s with irqPend := s.irqPend &&& ~~~(1#256 <<< n), irqServed := s.irqServed ||| (1#256 <<< n) })

/-- A completion of source `n` in context `c`; one of a source that the context does not enable is ignored. [PRESUMED,
assumption 18] -/
def State.irqComplete (s : State) (c n : Nat) : State :=
  if n < 256 && s.irqEnabled c n then { s with irqServed := s.irqServed &&& ~~~(1#256 <<< n) } else s

/-- INTERRUPT_CLAIM (R431, R456): hart `h` in machine or supervisor mode. -/
def execInterruptClaim (t : Nat) (h : Fin 4) (sup : Bool) (s : State) : Out :=
  s.when t 0 fun s =>
    let r := s.claim (2 * h.val + sup.toNat)
    r.2.answer (.hart h (if sup then .supervisor else .machine)) (.data r.1)

end Sys2Proof.Machine
end

