-- ==== Sys2Proof/Machine/WickRun.lean ====
section
/-! DEFINITION. Cores from outside: start, halt, the memory windows, and the image loader (R220, R229, R232, R247 to
R251). -/
namespace Sys2Proof.Machine

/-! ### Start and halt (R220, R251) -/

/-- RUN = 1 is written for core `k`: it starts at ENTRY, or the write is ignored for want of an image (R250). -/
def State.coreRun (s : State) (k : Nat) : State :=
  let c := s.core k
  if c.running || !s.coreIn k then s
  else if !c.loaded then (if isW k then s.setCore k { c with startRefused := true } else s)
  else
    let s := if isW k then s else { s with rtagBase := tabSet s.rtagBase (k - 64) (tabGet 0 s.rtagCnt (k - 64)) }
    s.setCore k { c.begin k c.entry with st := .running, task := none, frames := [] }

/-- RUN = 0 is written for core `k`: it halts, and its runs are withdrawn (R251, R310). -/
def State.coreStop (s : State) (k : Nat) : State :=
  if !(s.core k).running then s
  else
    let s := s.haltTasks k
    s.setCore k (s.core k).halt

/-- RUN written. [DEDUCED, assumption 61] -/
def State.runWrite (s : State) (k : Nat) (run : Bool) : State := if run then s.coreRun k else s.coreStop k

/-- LANTERN_RUN (R220): LANTk_CTL is written. -/
def execLanternRun (t : Nat) (by_ : Ini) (k : Fin 6) (run : Bool) (s : State) : Out :=
  s.access t (LANT_RUN k.val) by_ (fun _ => false) fun s => s.runWrite (64 + k.val) run

/-- WICK_RUN (R251): WICKn_CTL is written with RUN 1. -/
def execWickRun (t : Nat) (by_ : Ini) (n : Fin 64) (s : State) : Out :=
  s.access t (WICK_CTL n.val) by_ (fun s => !s.inService (coreUnit n.val)) fun s => s.runWrite n.val true

/-- WICK_HALT_REQUEST (R251): WICKn_CTL is written with RUN 0. -/
def execWickHaltRequest (t : Nat) (by_ : Ini) (n : Fin 64) (s : State) : Out :=
  s.access t (WICK_CTL n.val) by_ (fun s => !s.inService (coreUnit n.val)) fun s => s.runWrite n.val false

/-! ### The memory windows (R229, R232) -/

/-- An address register steps by 1 where INC is set. -/
def State.incAddr (s : State) (a hi : Nat) : State := if s.rb a 31 then s.setRf a hi 0 (s.rf a hi 0 + 1) else s

/-- WICKn_DMEM_DATA read. -/
def State.dmemRead (s : State) (n : Nat) : Word × State :=
  let v := (s.core n).ld n (s.rf (WICK_DMEM_ADDR n) 15 0)
  (v.signExtend 32, s.incAddr (WICK_DMEM_ADDR n) 15)

/-- WICKn_DMEM_DATA written. -/
def State.dmemWrite (s : State) (n : Nat) (v : Word) : State :=
  (s.setCore n ((s.core n).st' n (s.rf (WICK_DMEM_ADDR n) 15 0) (v.setWidth 24))).incAddr (WICK_DMEM_ADDR n) 15

/-- WICKn_IMEM_DATA read. -/
def State.imemRead (s : State) (n : Nat) : Word × State :=
  (tabGet 0 (s.core n).imem (s.rf (WICK_IMEM_ADDR n) 13 0), s.incAddr (WICK_IMEM_ADDR n) 13)

/-- WICKn_IMEM_DATA written, on a core that is not running. -/
def State.imemWrite (s : State) (n : Nat) (v : Word) : State :=
  let c := s.core n
  (s.setCore n { c with imem := tabSet c.imem (s.rf (WICK_IMEM_ADDR n) 13 0) v }).incAddr (WICK_IMEM_ADDR n) 13

/-- DMEM_DATA_ACCESS (R229): a read, or a write of `w`. -/
def execDmemDataAccess (t : Nat) (by_ : Ini) (n : Fin 64) (w : Option Word) (s : State) : Out :=
  match w with
  | some v =>
    s.access t (WICK_DMEM_DATA n.val) by_ (fun s => !s.inService (coreUnit n.val)) fun s => s.dmemWrite n.val v
  | none =>
    let s := s.at t
    if !s.hears by_ then .next s
    else if !s.pmpOk by_ .read (WICK_DMEM_DATA n.val) 4 then .next (s.answer by_ .fault)
    else if !s.domOn (coreDomain n.val) || !s.inService (coreUnit n.val) then .next (s.answer by_ .error)
    else
      let r := s.dmemRead n.val
      .next (r.2.answer by_ (.data r.1.toNat))

/-- The address of some WICKn_IMEM_DATA. -/
def imemWindow (a : Nat) : Bool :=
  decide (a / 0x1000000 = 0x45) && decide (a < 0x45400000) && decide (a % 0x10000 = 0x2C)

/-- A program that runs on a Wick core or a Lantern accesses: it reaches no instruction memory (R232). -/
def fromCode : Ini → Bool
  | .wick _ | .lantern _ => true
  | _ => false

/-- WICKn_IMEM_DATA does not answer: it does so on a core that does not run, and not to Wick code (R232, R255).
[DEDUCED, assumption 162] -/
def State.imemShut (s : State) (by_ : Ini) (n : Nat) : Bool := fromCode by_ || (s.core n).running

/-- IMEM_DATA_WRITE (R232): a bus error while the core runs. -/
def execImemDataWrite (t : Nat) (by_ : Ini) (n : Fin 64) (v : Word) (s : State) : Out :=
  s.access t (WICK_IMEM_DATA n.val) by_ (fun s => !s.inService (coreUnit n.val) || s.imemShut by_ n.val) fun s =>
    s.imemWrite n.val v

/-! ### The image loader (R247 to R250) -/

/-- The 32-bit word at byte offset `o` of an image. -/
def imgAt (w : List Nat) (o : Nat) : Nat :=
  ((w.getD (o / 4) 0 + w.getD (o / 4 + 1) 0 * 2 ^ 32) / 2 ^ (8 * (o % 4))) % 2 ^ 32

/-- A section of an image (R247). -/
structure Sect where
  req : Bool
  kind : Nat
  dest : Nat
  count : Nat
  offset : Nat
  /-- Words 1 and 2 keep their upper bits 0. -/
  clean : Bool

/-- Section `i`. -/
def sectOf (w : List Nat) (i : Nat) : Sect :=
  let o := 0x20 + 16 * i
  let d := imgAt w (o + 4)
  let c := imgAt w (o + 8)
  { req := imgAt w o / 2 ^ 31 == 1, kind := imgAt w o / 2 ^ 24 % 128, dest := d % 65536, count := c % 131072
    offset := imgAt w (o + 12), clean := d < 65536 && c < 131072 }

/-- NSECT. -/
def nsect (w : List Nat) : Nat := imgAt w 0x0C % 256

/-- Words of memory that a section's kind addresses on core `k`. -/
def sectRoom (k kind : Nat) : Option Nat :=
  match kind with
  | 1 => some (imemSize k)
  | 2 | 3 => some (if isW k then 65536 else 16384)
  | _ => none

/-- The arguments of a section agree (R248). -/
def Sect.ok (x : Sect) (w : List Nat) (k : Nat) : Bool :=
  x.clean && decide (1 ≤ x.count) && decide (x.count ≤ 65536)
    && (x.kind == 3 || decide (x.offset + 4 * x.count ≤ 4 * w.length))
    && (match sectRoom k x.kind with
      | some m => decide (x.dest + x.count ≤ m)
      | none => true)
    && (x.kind != 2 || (List.range x.count).all fun j => decide (imgAt w (x.offset + 4 * j) < 2 ^ 24))

/-- CRC of an image with its CRC word taken as 0. -/
def imgCrc (w : List Nat) : Nat :=
  crc32 ((List.range w.length).flatMap fun i =>
    (leBytes 4 (if i = 5 then 0 else w.getD i 0)).map BitVec.toNat)

/-- The checks of R248 for target `k`, in the order of its table; none when the image is good. -/
def imgCheck (w : List Nat) (k : Nat) : Option Code :=
  let n := nsect w
  let ss := (List.range n).map (sectOf w)
  if imgAt w 0 != 0x584C4A2E || imgCrc w != imgAt w 0x14 || imgAt w 0x0C != n || n == 0 || decide (64 < n)
      || decide (4 * w.length < 0x20 + 16 * n) || !(ss.all fun x => x.ok w k) then some .badArgument
  else if imgAt w 4 / 2 ^ 24 != 1 || decide (1 < imgAt w 4 / 256 % 256)
      || imgAt w 4 % 256 != (if isW k then 0x57 else 0x53)
      || ss.any (fun x => x.req && (x.kind == 0 || decide (3 < x.kind))) then some .versionMismatch
  else none

/-- What the second pass writes, in order: instruction memory or data memory, address, value. -/
def imgWrites (w : List Nat) : List (Bool × Nat × Nat) :=
  ((List.range (nsect w)).map (sectOf w)).flatMap fun x =>
    (List.range x.count).filterMap fun j =>
      match x.kind with
      | 1 => some (true, x.dest + j, imgAt w (x.offset + 4 * j))
      | 2 => some (false, x.dest + j, imgAt w (x.offset + 4 * j))
      | 3 => some (false, x.dest + j, 0)
      | _ => none

/-- A core with one word of an image written. -/
def WCore.loadWord (c : WCore) (x : Bool × Nat × Nat) : WCore :=
  if x.1 then { c with imem := tabSet c.imem x.2.1 (BitVec.ofNat 32 x.2.2) }
  else { c with dmem := tabSet c.dmem x.2.1 (BitVec.ofNat 24 x.2.2) }

/-- A load closes (R249, R250): LOADED follows the code. [DEDUCED, assumption 60] -/
def State.loadClose (s : State) (l : LoadOp) (c : Code) : State :=
  let s := l.keys.foldl (fun s k =>
    let x := s.core k
    s.setCore k (if c = .ok then { x with loaded := true, entry := imgAt l.words 8 % 16384 }
      else { x with loaded := false })) s
  let latches := tabSet s.latches (l.by_ * 0x10000000000 + WICK_LOAD_RES) (BitVec.ofNat 32 c.val)
  { s with loader := none, latches }.pulse (irqNo 5 8)

/-- The targets that WICK_LOAD_CMD names. -/
def State.loadKeys (s : State) (v : Word) : List Nat :=
  if bit v 8 then (if fld v 2 0 < 6 then [64 + fld v 2 0] else [])
  else
    (List.range 64).filter fun n => if n < 32 then s.rb WICK_LOAD_MASK_LO n else s.rb WICK_LOAD_MASK_HI (n - 32)

/-- WICK_LOAD_CMD written (R249, R256). [DEDUCED, assumption 60] -/
def State.loadCmd (s : State) (by_ : Ini) (v : Word) : State :=
  let keys := s.loadKeys v
  if fld v 31 28 ≠ 1 || keys.isEmpty then s.result by_ WICK_LOAD_RES .badArgument
  else if s.loader.isSome || keys.any (fun k => (s.core k).running) then s.result by_ WICK_LOAD_RES .refused
  else
    let src := s.rf WICK_LOAD_SRC_HI 3 0 * 2 ^ 32 + (s.reg WICK_LOAD_SRC_LO).toNat
    let l : LoadOp := { by_ := iniIdx by_, keys, src }
    if keys.all s.coreIn then { s.result by_ WICK_LOAD_RES .inSteps with loader := some l }
    else s.loadClose l .fenced

/-- LENGTH in words, where it is legal. -/
def imgWords (len : Nat) : Option Nat :=
  if len % 4 = 0 ∧ 0x20 ≤ len ∧ len ≤ 0x100000 then some (len / 4) else none

/-- A step of the first pass: at most 2,048 words are read; the last one checks the image. -/
def State.loadRead (s : State) (l : LoadOp) : State :=
  match s.load l.src 0x20 with
  | none => s.loadClose l .fenced
  | some h =>
    match imgWords (leNat ((h.drop 0x10).take 4)) with
    | none => s.loadClose l .badArgument
    | some n =>
      let m := min 2048 (n - l.words.length)
      match s.load (l.src + 4 * l.words.length) (4 * m) with
      | none => s.loadClose l .fenced
      | some bs =>
        let l := { l with words := l.words ++ (List.range m).map fun i => leNat ((bs.drop (4 * i)).take 4) }
        if l.words.length < n then { s with loader := some l }
        else
          match l.keys.findSome? (imgCheck l.words) with
          | some c => s.loadClose l c
          | none => { s with loader := some { l with written := some 0 } }

/-- A step of the second pass: at most 2,048 words are written into every target. -/
def State.loadWrite (s : State) (l : LoadOp) (n : Nat) : State :=
  if !(l.keys.all s.coreIn) || (s.load l.src (4 * l.words.length)).isNone then s.loadClose l .fenced
  else
    let rest := (imgWrites l.words).drop n
    let now := rest.take 2048
    let s := l.keys.foldl (fun s k => s.setCore k (now.foldl WCore.loadWord (s.core k))) s
    if rest.length ≤ 2048 then s.loadClose l .ok
    else { s with loader := some { l with written := some (n + 2048) } }

/-- One step of a running load. -/
def State.loadStep (s : State) : State :=
  match s.loader with
  | none => s
  | some l =>
    match l.written with
    | none => s.loadRead l
    | some n => s.loadWrite l n

/-- IMAGE_LOAD (R249): WICK_LOAD_CMD is written. -/
def execImageLoad (t : Nat) (by_ : Ini) (v : Word) (s : State) : Out :=
  s.access t WICK_LOAD_CMD by_ (fun _ => false) fun s => s.loadCmd by_ v

end Sys2Proof.Machine
end

