-- ==== Sys2Proof/Machine/Registers.lean ====
section
/-! DEFINITION. The fabric as an initiator sees it: reads and writes of any address (R3 to R6, R20 to R22, R65, R436,
R451, R454, R459). A register whose write is a command of its own is handed to that command's operation. -/
namespace Sys2Proof.Machine

/-! ### Write limits: out-of-range values are stored at the nearer limit -/

/-- Field [hi:lo] of `v` brought within [mn, mx]. -/
def clampF (hi lo mn mx : Nat) (v : Word) : Word := setFld v hi lo (max mn (min mx (fld v hi lo)))

/-- The same of a two's complement field. -/
def clampS (hi lo : Nat) (mn mx : Int) (v : Word) : Word := setFld v hi lo (wrap (hi + 1 - lo) (clampI mn mx (sfld v hi lo)))

/-- SYS, PWR, NTIM and DMC registers with limits (R84, R362, R425, R452). -/
def clampSys (a : Nat) : Word → Word :=
  if a = SYS_SSCRUB_CTL ∨ a = DMC_SCRUB_CTL then clampF 11 0 1 4095
  else if a = SYS_BG_CAL ∨ a = SYS_NOR_CTL then clampF 7 0 1 255
  else if a = SYS_TELEM_CTL then clampF 9 0 1 1000
  else if a = PWR_ACK_TIMEOUT then clampF 15 0 1 65535
  else if a = NTIM_SLEW_CTL then clampF 9 0 1 1000
  else if a = NTIM_BCN_PERIOD then clampF 31 0 100000 60000000
  else if a = NTIM_BCN_PATH then clampF 19 0 0 1000000
  else id

/-- Lamp registers with limits, by offset in the window (R121, R124). -/
def clampLamp (o : Nat) : Word → Word :=
  if o = 0x0C then clampF 4 0 0 30
  else if o = 0x10 then clampF 5 0 0 60
  else if o = 0x18 then fun v => clampF 4 0 0 23 (clampF 9 5 0 23 (clampF 14 10 0 23 (clampF 19 15 0 19 (clampF 24 20 0 19
    (clampF 29 25 0 19 v)))))
  else if 0x100 ≤ o ∧ o < 0x140 ∧ o % 8 = 0 then fun v => clampS 23 16 (-120) (-40) (clampF 15 0 5 65535 v)
  else id

/-- Lens registers with limits, by offset in the window (R152, R153). -/
def clampLens (o : Nat) : Word → Word :=
  if o = 4 then clampS 31 0 (-400000) 400000
  else if o = 8 then clampF 12 0 0 4000
  else if o = 0x0C then fun v => clampF 15 8 16 255 (clampF 7 0 16 255 v)
  else if 0x20 ≤ o ∧ o < 0x40 then clampF 27 24 1 15
  else id

/-- MANT, LANT and CHND registers with limits (R187, R218, R311, R312). -/
def clampAir (a : Nat) : Word → Word :=
  if a = MANT_CTL then clampF 13 8 1 32
  else if a = LANT_PART then clampF 15 0 1 65535
  else if 0x49000040 ≤ a ∧ a < 0x49000058 then (if a % 8 = 0 then clampF 26 16 0 1024 else clampF 23 20 1 15)
  else if 0x49000300 ≤ a ∧ a < 0x49000340 then clampF 7 0 1 255
  else id

/-- XON is stored as XOFF - 1 if it is not below XOFF (R393). -/
def clampPause (v : Word) : Word := if fld v 7 0 < fld v 15 8 then v else setFld v 7 0 (fld v 15 8 - 1)

/-- Ring sizes, and the buffers of a receive ring. -/
def clampRing (rx : Bool) (v : Word) : Word :=
  let v := clampF 3 0 4 12 v
  if rx then clampF 23 16 1 255 v else v

/-- EMAC registers with limits, by offset in the window (R393). -/
def clampEmac (o : Nat) : Word → Word :=
  if o = 8 then clampF 9 0 400 1000
  else if o = 0x40 then clampPause
  else if o = 0x48 then clampF 11 0 1 4094
  else if 0x200 ≤ o ∧ o < 0x230 ∧ o % 16 = 8 then clampRing true
  else if 0x300 ≤ o ∧ o < 0x380 ∧ o % 16 = 8 then clampRing false
  else id

/-- FWD and TMGR registers with limits (R395, R409, R410). -/
def clampNet (a : Nat) : Word → Word :=
  if a = FWD_ENC_LIM then fun v => clampF 31 18 1 16383 (clampF 13 0 256 8960 v)
  else if a = FWD_PUNT_CFG then clampRing true
  else if 0x4C000100 ≤ a ∧ a < 0x4C000300 ∧ a % 16 = 0 then fun v => clampF 29 16 64 16383 (clampF 13 0 1 16383 v)
  else if 0x4C040000 ≤ a ∧ a < 0x4C048000 then
    (if a % 0x2000 = 0 then clampF 8 0 1 256 else if a % 0x2000 = 4 then clampF 31 0 1000 1000000000 else id)
  else id

/-- The value that a write of `v` to register `a` stores, before its access codes. -/
def regClamp (a : Nat) (v : Word) : Word :=
  match a / 0x1000000 with
  | 0x40 | 0x41 | 0x42 | 0x4A => clampSys a v
  | 0x43 => clampLamp (a % 0x100000) v
  | 0x44 => if a < 0x44030000 then clampLens (a % 0x10000) v else v
  | 0x46 | 0x47 | 0x49 => clampAir a v
  | 0x4B => if a < 0x4B050000 then clampEmac (a % 0x10000) v else clampNet a v
  | 0x4C => clampNet a v
  | _ => v

/-- R5: RW bits take the value, W1C bits that are written 1 clear, every other bit stays. -/
def mergeWrite (old v : Word) (rw w1c : Nat) : Word :=
  (old &&& ~~~(BitVec.ofNat 32 rw) &&& ~~~(v &&& BitVec.ofNat 32 w1c)) ||| (v &&& BitVec.ofNat 32 rw)

/-- A write under the access codes of a family (R5). [DEDUCED, assumption 15] -/
def State.plainWrite (s : State) (f : RegFam) (a : Nat) (v : Word) : State :=
  s.setReg a (mergeWrite (s.reg a) (regClamp a v) f.rw f.w1c)

/-! ### Registers whose write has a meaning of its own -/

/-- What follows the access of a row; `s` where the row stops. -/
def afterRow (s : State) : Out → State
  | .next t => t
  | _ => s

/-- The initiator is the host. -/
def isHost (by_ : Ini) : Bool := match by_ with | .host => true | _ => false

/-- SYS, ACLINT, PLIC and PWR (R58, R60, R425, R431, R435, R452). -/
def State.ownSys (s : State) (by_ : Ini) (a : Nat) (v : Word) : Option State :=
  if a = SYS_RESET_CTRL then some (s.resetCtrl v)
  else if a = SYS_THERMAL then some (s.thermalWrite v)
  else if a = SYS_SVN_BURN then some (s.svnBurn v)
  else if a = SYS_UNIT_CMD then some (s.unitCmd by_ v)
  else if a = PWR_CMD then some (s.pwrCmd by_ v)
  else if 0x40300000 ≤ a ∧ a < 0x40300010 then
    let h := (a - 0x40300000) / 4
    let c := tabGet ({} : Hart) s.harts h
    let s := s.setReg a (v &&& 1)
    some (if bit v 0 && c.st == .wfi then { s with harts := tabSet s.harts h { c with st := .running } } else s)
  else if 0x40600000 ≤ a ∧ a < 0x40608000 ∧ a % 0x1000 = 4 then some (s.irqComplete ((a - 0x40600000) / 0x1000) v.toNat)
  else none

/-- NTIM and TMR (R64, R66, R79, R80). -/
def State.ownTime (s : State) (a : Nat) (v : Word) : Option State :=
  if a = NTIM_CMD then some (s.ntimCmd (fld v 3 0))
  else if a = NTIM_RATE then some (s.rateWrite v)
  else if a = NTIM_SRC_CTL then some (s.srcWrite v)
  else if 0x42000100 ≤ a ∧ a < 0x42000180 ∧ a % 0x20 = 0x14 then some (s.ppsWrite ((a - 0x42000100) / 0x20) v)
  else if 0x42000100 ≤ a ∧ a < 0x42000180 ∧ a % 0x20 < 0x14 then
    some ((s.setReg a (if a % 0x20 = 8 then v &&& 0xFFFF else v)).ppsParam ((a - 0x42000100) / 0x20))
  else if 0x42001100 ≤ a ∧ a < 0x42001500 ∧ a % 0x20 = 4 then some (s.cmpWrite ((a - 0x42001100) / 0x20) v)
  else none

/-- A bit of LAMPn_STATUS or LAMP_PAIR_STATUS is plain W1C; the commands of a lamp are not (R94, R98, R100, R117). -/
def State.ownLamp (s : State) (a : Nat) (v : Word) : Option State :=
  let n := (a - 0x43000000) / 0x100000
  match a % 0x100000 with
  | 0 => some (s.stateWrite n v)
  | 8 => some (s.tuneWrite n v)
  | 0x20 => some (s.calWrite n v)
  | 0x80 => if n = 1 then some (s.pairWrite v) else none
  | _ => none

/-- LENS (R139, R142, R152): the upper lamp of a pair takes no writes below 0x100 but its ring base. -/
def State.ownLens (s : State) (by_ : Ini) (a : Nat) (v : Word) : Option State :=
  let n := (a - 0x44000000) / 0x10000
  let o := a % 0x10000
  if a = LENS_CTX_CMD then some (s.ctxCmd by_ v)
  else if n < 3 ∧ o < 0x100 ∧ o ≠ 0x40 ∧ o ≠ 0x44 ∧ s.isUpper n then some s
  else if n < 3 ∧ o = 0 then some (s.lensCtl n v)
  else none

/-- WICK (R229, R232, R251, R256). -/
def State.ownWick (s : State) (by_ : Ini) (a : Nat) (v : Word) : Option State :=
  if a = WICK_LOAD_CMD then some (s.loadCmd by_ v)
  else if 0x45400000 ≤ a then none
  else
    let n := (a - 0x45000000) / 0x10000
    let c := s.core n
    match a % 0x10000 with
    | 0 => some (s.runWrite n (bit v 0))
    | 4 => some (s.setCore n { c with fault := c.fault && !bit v 16, startRefused := c.startRefused && !bit v 17 })
    | 0x24 => some (s.dmemWrite n v)
    | 0x2C => some (s.imemWrite n v)
    | _ => none

/-- MANT, LANT and NBR (R173, R178, R198, R220). -/
def State.ownAir (s : State) (by_ : Ini) (a : Nat) (v : Word) : Option State :=
  let i := BitVec.ofNat 18 (fld v 17 0)
  if a = MANT_SUBMIT then some (s.mantSubmit by_ v)
  else if a = MANT_CTL then some (s.mantCtl v)
  else if a = MANT_ABORT then some (s.mantAbort by_ v)
  else if a = MANT_PAIR_CTL then some (s.pairCtl v)
  else if a = MANT_EXP_CTL then some (s.expCtl v)
  else if a = NBR_CTL then some (s.nbrCtl v)
  else if a = NBR_CMD then
    some (match fld v 31 28 with
      | 1 => afterRow s (execRegister s.clk by_ s)
      | 2 => afterRow s (execUpdate s.clk by_ i s)
      | 3 => afterRow s (execNbrRead s.clk by_ i s)
      | 4 => afterRow s (execRemove s.clk by_ i s)
      | 5 => afterRow s (execPurge s.clk by_ i s)
      | 6 => afterRow s (execNbrLoad s.clk by_ s)
      | 7 => afterRow s (execNbrExport s.clk by_ s)
      | 8 => afterRow s (execEnqueue s.clk by_ i s)
      | 9 => afterRow s (execDequeue s.clk by_ i s)
      | _ => s.nbrResult (iniIdx by_) (fld v 17 0) .badArgument)
  else if 0x47000400 ≤ a ∧ a < 0x47000580 then
    let k := 64 + (a - 0x47000400) / 0x40
    let c := s.core k
    match a % 0x40 with
    | 0 => some (s.runWrite k (bit v 0))
    | 4 => some (s.setCore k { c with fault := c.fault && !bit v 8 })
    | _ => none
  else none

/-- CIPH and SEC (R314, R319, R329, R341 to R343). -/
def State.ownCiph (s : State) (by_ : Ini) (a : Nat) (v : Word) : Option State :=
  let k := BitVec.ofNat 18 (fld v 17 0)
  if a = CIPH_CTL then some (s.ciphCtl v)
  else if a = CIPH_SUBMIT then some (s.ciphSubmit by_ v)
  else if a = CIPH_ABORT then some (s.ciphAbort by_ v)
  else if a = SEC_CMD then some (s.secCmd by_ v)
  else if a = SEC_TAMPER_CTL then some (s.tamperCtl v)
  else if a = CIPH_KCMD then
    some (match fld v 31 26 with
      | 1 => afterRow s (execGenerate s.clk by_ k s)
      | 2 => afterRow s (execLoadSplit s.clk by_ k s)
      | 3 => afterRow s (execLoadPlain s.clk by_ k s)
      | 4 => afterRow s (execUnwrap s.clk by_ k s)
      | 5 => afterRow s (execWrapOut s.clk by_ k s)
      | 6 => afterRow s (execErase s.clk by_ k s)
      | 7 => afterRow s (execSetLimit s.clk by_ k s)
      | 8 => afterRow s (execKeyStatus s.clk by_ k s)
      | 9 => afterRow s (execRecInval s.clk by_ k s)
      | 10 => afterRow s (execRecErase s.clk by_ k s)
      | 11 => afterRow s (execFlush s.clk by_ k s)
      | 12 => afterRow s (execRootSet s.clk by_ k s)
      | 13 => afterRow s (execRewrap s.clk by_ k s)
      | _ => afterRow s (s.keyCmd s.clk by_ fun s => (s, .badArgument, none)))
  else none

/-- CHND and DMC (R288, R292, R306, R310, R346, R357, R360, R361). -/
def State.ownSched (s : State) (by_ : Ini) (a : Nat) (v : Word) : Option State :=
  if a = CHND_CTL then some (s.chndCtl v)
  else if a = CHND_CMD then some (s.chndCmd by_ v)
  else if a = CHND_FLAG_SET then some (s.flagSet (fld v 5 0))
  else if 0x49010000 ≤ a ∧ a < 0x49030000 then some (s.descWrite ((a - 0x49010000) / 0x20) (a % 0x20 / 4) v)
  else if a = DMC_CTL then some (s.dmcCtl v)
  else if a = DMC_TRAIN_CMD then some (s.trainCmd by_ v)
  else if a = DMC_ECC_LOG then some (s.eccClear v)
  else if a = DMC_RANK_CTL then some ((s.fenceBit 0 (bit v 0)).fenceBit 1 (bit v 1))
  else if 0x4A000040 ≤ a ∧ a < 0x4A000080 ∧ a % 8 = 0 then some (s.portCfg ((a - 0x4A000040) / 8) v)
  else none

/-- EMAC, FWD and CLU (R375, R379, R381, R386, R392, R449). -/
def State.ownNet (s : State) (by_ : Ini) (a : Nat) (v : Word) : Option State :=
  let p := (a - 0x4B000000) / 0x10000
  if a = EMAC_MDIO then some (s.mdioWrite by_ v)
  else if a = FWD_CMD then some (s.fwdCmd by_ (fld v 31 28) (fld v 12 0))
  else if a = FWD_ENC_CTL then some (s.encCtl v)
  else if a = FWD_PUNT_IDX then some (s.setRf a 11 0 (fld v 11 0)).retryPunt
  else if a = FWD_VLAN 0 then some s
  else if a = CLU_IMPORT then some (s.cluImport v)
  else if a < 0x4B050000 ∧ a % 0x10000 = 0 then some (s.emacCtl p v)
  else if a < 0x4B050000 ∧ a % 0x10000 = 0x58 then some (s.pauseSend p v)
  else none

/-- TMGR (R402, R403, R405, R406). -/
def State.ownTmgr (s : State) (by_ : Ini) (a : Nat) (v : Word) : Option State :=
  if a = TMGR_CTL then some (s.tmgrCtl v)
  else if a = TMGR_VCLS 0 then some s
  else if 0x4C020000 ≤ a ∧ a < 0x4C024000 then
    match a % 0x20 with
    | 0 => some (s.flowRateWrite ((a - 0x4C020000) / 0x20) v)
    | 4 => some (s.flowBurstWrite ((a - 0x4C020000) / 0x20) v)
    | _ => none
  else if 0x4C030000 ≤ a ∧ a < 0x4C034000 then
    match a % 0x10 with
    | 0 => some (s.policerWrite ((a - 0x4C030000) / 0x10) false v)
    | 4 => some (s.policerWrite ((a - 0x4C030000) / 0x10) true v)
    | _ => none
  else if 0x4C040000 ≤ a then
    let p := (a - 0x4C040000) / 0x2000
    let o := a % 0x2000
    if o = 0x14 then
      some (match fld v 31 28 with
        | 1 => s.gclCommit by_ p
        | 2 => s.gclAbort by_ p
        | _ => s.result by_ (TMGR_GCL_RES p) .badArgument)
    else if 0x1000 ≤ o then
      some (s.gclWrite p ((o - 0x1000) / 0x800) a (if a % 8 = 0 then v &&& 0xFF else v))
    else none
  else none

/-- HIF (R437, R453): fields of the host and fields of firmware. -/
def State.ownHif (s : State) (by_ : Ini) (a : Nat) (v : Word) : Option State :=
  let host := isHost by_
  if a = HIF_MBX_VER then (if host then some s else none)
  else if a = HIF_MBX_STATUS then
    some (s.setReg a (mergeWrite (s.reg a) v (if host then 0 else 1) 2))
  else if a = HIF_MBX_CMD_IDX then
    some (if host then s.tailWrite (fld v 7 0) else s.setRf a 23 16 (fld v 23 16))
  else if a = HIF_MBX_RSP_IDX then
    some (if host then
        let s := (s.setRf a 7 0 (fld v 7 0)).pulse (irqNo 14 1)
        s.mbxFlush s.mbx.out.length
      else s.setRf a 23 16 (fld v 23 16))
  else none

/-- The write of a register that has a meaning of its own; none for one that follows its access codes alone. [DEDUCED,
assumption 15] -/
def State.ownWrite (s : State) (by_ : Ini) (a : Nat) (v : Word) : Option State :=
  match a / 0x1000000 with
  | 0x40 | 0x41 => s.ownSys by_ a v
  | 0x42 => s.ownTime a v
  | 0x43 => s.ownLamp a v
  | 0x44 => s.ownLens by_ a v
  | 0x45 => s.ownWick by_ a v
  | 0x46 | 0x47 => s.ownAir by_ a v
  | 0x48 => s.ownCiph by_ a v
  | 0x49 | 0x4A => s.ownSched by_ a v
  | 0x4B => s.ownNet by_ a v
  | 0x4C => s.ownTmgr by_ a v
  | 0x4D => if a = PCNT_CTL then some (s.pcntCtl v) else none
  | 0x4E => s.ownHif by_ a v
  | _ => none

/-! ### Which accesses end in a bus error (R3, R22, R412, R436, R451) -/

/-- The unit whose fence closes a register window (R22). -/
def windowUnit (a : Nat) : Option Nat :=
  match a / 0x1000000 with
  | 0x43 => some ((a - 0x43000000) / 0x100000)
  | 0x45 => if a < 0x45400000 then some (coreUnit ((a - 0x45000000) / 0x10000)) else none
  | 0x4B => if a < 0x4B050000 then some (0x30 + (a - 0x4B000000) / 0x10000) else none
  | _ => none

/-- The status register that reports a fence (R22). -/
def fenceStatus (a : Nat) : Bool :=
  match a / 0x1000000 with
  | 0x43 => a % 0x100000 == 4
  | 0x45 | 0x4B => a % 0x10000 == 4
  | _ => false

/-- Offset `o` in the window of EMAC0 holds EMAC_MDIO, EMAC_MDIO_RES or a register of the wake filters (R393).
[DEDUCED, assumption 136] -/
def mdioOrWake (o : Nat) : Bool := decide (0x8000 ≤ o) && (regFind (0x4B000000 + o)).isSome

/-- Entries that read 0 and ignore writes: FWD_VLAN and TMGR_VCLS of 4,095 (R395, R410), EMAC4's SERDES and its
transmit rings 1 to 7, and the offsets of MDIO and the wake filters in the windows of EMAC1 to EMAC4 (R5, R393).
[DEDUCED, assumption 136] -/
def rsvdEntry (a : Nat) : Bool :=
  a == 0x4B087FFC || a == 0x4C013FFC || a == EMAC_SERDES 4
    || (decide (EMAC_TX_BASE_LO 4 1 ≤ a) && decide (a < EMAC_TX_BASE_LO 4 8))
    || (decide (0x4B010000 ≤ a) && decide (a < 0x4B050000) && mdioOrWake (a % 0x10000))

/-- A user-mode read of performance counters in a group that is not granted, or a write outside machine mode (R451).
[DEDUCED, assumption 132] -/
def State.pcntBarred (s : State) (by_ : Ini) (a : Nat) (wr : Bool) : Bool :=
  if a / 0x1000000 ≠ 0x4D then false
  else if wr then !mayWritePcnt by_
  else
    match by_ with
    | .hart _ .user => decide (0x4D001000 ≤ a) && !s.rb PCNT_USER (a % 0x1000 / 8 / 32)
    | _ => false

/-- An access of `n` bytes to register address `a` is decoded and served. -/
def State.served (s : State) (by_ : Ini) (a n : Nat) (wr : Bool) : Bool :=
  match addrDomain a with
  | none => false
  | some d =>
    a % 4 == 0 && n == 4 && s.domOn d && ((regFind a).isSome || rsvdEntry a) && !s.pcntBarred by_ a wr
      && (match windowUnit a with
        | some u => s.inService u || (fenceStatus a && !wr)
        | none => true)
      && !(imemWindow a && s.imemShut by_ ((a - 0x45000000) / 0x10000))

/-- An address that the host reaches: DRAM lies behind the 1 GiB window of HIF_DWIN (R436). [DEDUCED, assumption 135]
-/
def State.hostSees (s : State) (by_ : Ini) (a n : Nat) : Bool :=
  let b := s.rf HIF_DWIN 5 0 * 2 ^ 30
  !isHost by_ || !inDram a || (decide (b ≤ a) && decide (a + n ≤ b + 2 ^ 30))

/-- An address in memory. -/
def inMemory (a : Nat) : Bool := inSram a || inDram a

/-! ### Reads and writes -/

/-- Registers kept per initiator: high halves and results (R459). -/
def perInitiator (a : Nat) : Bool :=
  [NTIM_RAW_HI, NTIM_NOW_SEC_LO, NTIM_NOW_SEC_HI, TMR_LT_HI, SYS_UNIT_RES, PWR_RES, DMC_TRAIN_RES, WICK_LOAD_RES, CHND_RES,
    LENS_CTX_RES, MANT_ABORT_RES, NBR_RES, CIPH_ABORT_RES, CIPH_KRES, CIPH_KINFO0, CIPH_KINFO1, SEC_RES, FWD_RES,
    EMAC_MDIO_RES].contains a
    || (decide (0x4C040000 ≤ a) && decide (a < 0x4C048000) && a % 0x2000 == 0x18)
    || (decide (0x4D001000 ≤ a) && decide (a < 0x4D002000) && a % 8 == 4)

/-- The latches that a read of a low register fills (R65, R451). -/
def State.lowLatch (s : State) (by_ : Ini) (a : Nat) : State :=
  let hi := BitVec.ofNat 32 (s.raw / 2 ^ 32)
  if a = NTIM_RAW_LO then s.setLatch by_ NTIM_RAW_HI hi
  else if a = TMR_LT_LO then s.setLatch by_ TMR_LT_HI hi
  else if a = NTIM_NOW_NS then
    let sec := s.now / 1000000000
    (s.setLatch by_ NTIM_NOW_SEC_LO (BitVec.ofInt 32 sec)).setLatch by_ NTIM_NOW_SEC_HI
      (BitVec.ofInt 32 (sec / 2 ^ 32 % 2 ^ 16))
  else if 0x4D001000 ≤ a ∧ a < 0x4D002000 ∧ a % 8 = 0 then
    let e := (a - 0x4D001000) / 8
    s.setLatch by_ (PCNT_CNT_HI e) (BitVec.ofNat 32 ((tabGet 0 s.pcnt e).toNat / 2 ^ 32))
  else s

/-- RC bits of a register return to their reset value (R5). -/
def State.rcClear (s : State) (a : Nat) : State :=
  match regFind a with
  | some f =>
    if f.rc = 0 then s
    else
      let m := BitVec.ofNat 32 f.rc
      s.setReg a ((s.reg a &&& ~~~m) ||| (regReset a &&& m))
  | none => s

/-- What a served read of register `a` returns, and what it does (R5, R65, R82, R229, R337, R459). -/
def State.regRead (s : State) (by_ : Ini) (a : Nat) : Word × State :=
  let n := (a - 0x42001100) / 0x20
  let tch := decide (0x42001100 ≤ a) && decide (a < 0x42001500)
  let wick := decide (0x45000000 ≤ a) && decide (a < 0x45400000)
  if rsvdEntry a then (0, s)
  else if tch && a % 0x20 = 0x0C then ((s.capLo n).2, (s.capLo n).1)
  else if tch && a % 0x20 = 0x10 then ((s.capHi n).2, (s.capHi n).1)
  else if a = SEC_RNG then (BitVec.ofNat 32 s.secRng.1, s.secRng.2)
  else if wick && a % 0x10000 = 0x24 then s.dmemRead ((a - 0x45000000) / 0x10000)
  else if wick && a % 0x10000 = 0x2C then s.imemRead ((a - 0x45000000) / 0x10000)
  else if 0x40600000 ≤ a && a < 0x40608000 && a % 0x1000 = 4 then
    let r := s.claim ((a - 0x40600000) / 0x1000)
    (BitVec.ofNat 32 r.1, r.2)
  else if 0x40401000 ≤ a && a < 0x40401020 then
    (BitVec.ofNat 32 ((List.range 32).foldl (fun v i =>
      v + (s.irqPending (32 * ((a - 0x40401000) / 4) + i)).toNat * 2 ^ i) 0), s)
  else if perInitiator a then (((s.mdioView by_ a).getD (s.latch by_ a)), s)
  else (s.view a, (s.lowLatch by_ a).rcClear a)

/-- A read of `n` bytes by an initiator. [DESIGN CHOICE, assumption 134] -/
def State.fabricRead (s : State) (by_ : Ini) (a n : Nat) : BusResp × State :=
  if inMemory a then
    (if s.hostSees by_ a n && n != 0 then
      (match s.loadNat a n with
        | some v => (.data v, s)
        | none => (.error, s))
    else (.error, s))
  else if a + n ≤ 0x10000 && n != 0 && !isHost by_ then
    let d := s.draw (2 ^ (8 * n))
    (.data d.1, d.2)
  else if s.served by_ a n false then
    let r := s.regRead by_ a
    (.data r.1.toNat, r.2)
  else (.error, s)

/-- A write of the low `n` bytes of `v` by an initiator. A write to the boot ROM is ignored. -/
def State.fabricWrite (s : State) (by_ : Ini) (a n : Nat) (v : BitVec 64) : BusResp × State :=
  if inMemory a then
    (if s.hostSees by_ a n && n != 0 then
      (match s.store a (leBytes n v.toNat) with
        | some s => (.done, s)
        | none => (.error, s.writeError by_ a))
    else (.error, s.writeError by_ a))
  else if a + n ≤ 0x10000 && n != 0 && !isHost by_ then (.done, s)
  else if s.served by_ a n true then
    if rsvdEntry a then (.done, s)
    else
      match s.ownWrite by_ a (v.setWidth 32) with
      | some s => (.done, s)
      | none =>
        match regFind a with
        | some f => (.done, s.plainWrite f a (v.setWidth 32))
        | none => (.done, s)
  else (.error, s.writeError by_ a)

/-- An access of `n` bytes at `a` by an initiator: nothing where it does not reach the fabric (R40, R42), an access fault
where PMP stops a hart (R428). -/
def State.busAccess (s : State) (t : Nat) (by_ : Ini) (u : PmpUse) (a n : Nat) (f : State → BusResp × State) : Out :=
  let s := s.at t
  if !s.hears by_ then .next s
  else if !s.pmpOk by_ u a n then .next (s.answer by_ .fault)
  else
    let r := f s
    .next (r.2.answer by_ (if r.2.fabricHolds (iniIdx by_) then .held else r.1))

/-- REGISTER_WRITE (R3, R5): the low `n` bytes of `v` to address `a`. -/
def execRegisterWrite (t : Nat) (by_ : Ini) (a : BitVec 36) (n : Fin 9) (v : BitVec 64) (s : State) : Out :=
  s.busAccess t by_ .write a.toNat n.val fun s => s.fabricWrite by_ a.toNat n.val v

/-- RC_READ (R5): a read of `n` bytes from address `a`. -/
def execRcRead (t : Nat) (by_ : Ini) (a : BitVec 36) (n : Fin 9) (s : State) : Out :=
  s.busAccess t by_ .read a.toNat n.val fun s => s.fabricRead by_ a.toNat n.val

/-- LOW_READ (R65, R459): a 32-bit read of address `a`, the low register of a quantity of two registers. -/
def execLowRead (t : Nat) (by_ : Ini) (a : BitVec 36) (s : State) : Out :=
  s.busAccess t by_ .read a.toNat 4 fun s => s.fabricRead by_ a.toNat 4

end Sys2Proof.Machine
end

