-- ==== Sys2Proof/Machine/WickFabric.lean ====
section
/-! DEFINITION. Wick accesses to the fabric, DMA transfers, and the steps of long operations (R230, R231, R279, R440). -/
namespace Sys2Proof.Machine

/-- FLD (R279): a bus error delivers 0xFF_FFFF and 0x00_00FF. While the fabric holds an earlier FST the instruction
waits. -/
def execFld (t : Nat) (co : Core) (m n : BitVec 5) (s : State) : Out :=
  let k := coreKey co
  .next ((s.at t).issueUnless co (.fld m n) (fun c => c.fstHeld.isSome) fun s =>
    let a := (s.core k).pairAddr n
    let r := s.fabricRead (coreIni co) (a - a % 4) 4
    let v := match r.1 with
      | .data v => v
      | _ => 0xFFFFFFFF
    r.2.setCore k ((r.2.core k).putPair m v).next)

/-- FST (R279): posted; a bus error drops it. While the fabric holds an earlier FST the instruction waits. -/
def execFst (t : Nat) (co : Core) (m n : BitVec 5) (s : State) : Out :=
  let k := coreKey co
  .next ((s.at t).issueUnless co (.fst m n) (fun c => c.fstHeld.isSome) fun s =>
    let a := (s.core k).pairAddr n
    let v := BitVec.ofNat 64 ((s.core k).pairWord m)
    let s := s.setCore k (s.core k).next
    (s.fabricWrite (coreIni co) (a - a % 4) 4 v).2)

/-- The local words that an inbound fabric word gives (R230). -/
def dmaIn (mode v : Nat) : List (BitVec 24) :=
  match mode with
  | 0 => [BitVec.ofNat 24 v]
  | 1 => [v / 2 ^ 12, v].map fun x => BitVec.ofInt 24 (sext 12 x * 2 ^ 12)
  | _ => [v, v / 2 ^ 8, v / 2 ^ 16, v / 2 ^ 24].map fun x => BitVec.ofInt 24 (sext 8 x)

/-- Words stored in local memory from `a`. -/
def WCore.putLocal (c : WCore) (k a : Nat) : List (BitVec 24) → WCore
  | [] => c
  | v :: vs => (c.st' k a v).putLocal k (a + 1) vs

/-- The bytes of fabric word `j` of an outbound transfer (R230). -/
def dmaOut (c : WCore) (k mode a j : Nat) : List Byte :=
  if mode = 0 then leBytes 4 ((c.ld k (a + j)).signExtend 32).toNat
  else (List.range 4).map fun i => (c.ld k (a + 4 * j + i)).setWidth 8

/-- A channel's transfer breaks R277. -/
def DmaCh.bad (h : DmaCh) : Bool :=
  h.count == 0 || decide (4096 < h.count) || h.fabric % 4 != 0 || h.mode == 3 || (h.outbound && h.mode == 1)

/-- The transfer of a channel: its code and the state (R230, R231). [DEDUCED, assumption 59] -/
def State.dmaMove (s : State) (k : Nat) (h : DmaCh) : Code × State :=
  if h.bad then (.badArgument, s)
  else if h.outbound then
    match s.store h.fabric ((List.range h.count).flatMap (dmaOut (s.core k) k h.mode h.loc)) with
    | some s => (.ok, s)
    | none => (.fenced, s)
  else
    match s.load h.fabric (4 * h.count) with
    | none => (.fenced, s)
    | some bs =>
      let ws := (List.range h.count).flatMap fun j => dmaIn h.mode (leNat ((bs.drop (4 * j)).take 4))
      (.ok, s.setCore k ((s.core k).putLocal k h.loc ws))

/-- DMA_COMPLETE (R231, R275): the transfer on channel `ch` of a core completes; a DMAWT that waits for it ends. -/
def execDmaComplete (t : Nat) (co : Core) (ch : Fin 4) (s : State) : Out :=
  let k := coreKey co
  s.when t (coreDomain k) fun s =>
    let h := tabGet ({} : DmaCh) (s.core k).dma ch.val
    if !(h.busy && s.coreIn k) then s
    else
      let r := s.dmaMove k h
      let c := r.2.core k
      let c := { c with dma := tabSet c.dma ch.val { h with busy := false, code := r.1 } }
      match c.wait with
      | some (.dma x d) =>
        r.2.setCore k (if x = ch.val then { c.put d (BitVec.ofNat 24 r.1.val) with wait := none }.next else c)
      | _ => r.2.setCore k c

/-- The domain of a long operation. -/
def longDomain : LongStep → Nat
  | .training _ _ => 22
  | .neighbour => 13
  | .key => 15
  | .snuffer _ => 15
  | .load => 20
  | .calWrite => 0

/-- LONG_OPERATION_STEP (R440). Lamp calibration and twin-lamp alignment have rows of their own. -/
def execLongOperationStep (t : Nat) (op : LongStep) (s : State) : Out :=
  s.when t (longDomain op) fun s =>
    match op with
    | .training alert bad => s.trainStep alert bad
    | .neighbour => s.nbrStep
    | .key => s.keyOpStep
    | .snuffer ok => s.secStep ok
    | .load => s.loadStep
    | .calWrite => s.calWriteStep

end Sys2Proof.Machine
end

