-- ==== Sys2Proof/Machine/WickMem.lean ====
section
/-! DEFINITION. Loads, stores, dual moves and the accumulator instructions (R264 to R270). -/
namespace Sys2Proof.Machine

/-- LD (R264): a load through a pointer; the result has latency 3. -/
def execLd (co : Core) (reg : BitVec 6) (m : MemMode) (pk : BitVec 4) (s : State) : Out :=
  s.issuePure co (.mem false reg m pk) fun k c =>
    (c.access k false reg (c.memAddr m pk)).memPtr m pk

/-- ST (R264): a store through a pointer. -/
def execSt (co : Core) (reg : BitVec 6) (m : MemMode) (pk : BitVec 4) (s : State) : Out :=
  s.issuePure co (.mem true reg m pk) fun k c =>
    (c.access k true reg (c.memAddr m pk)).memPtr m pk

/-- LDA (R264): a load at an absolute address. -/
def execLda (co : Core) (reg : BitVec 6) (a : BitVec 16) (s : State) : Out :=
  s.issuePure co (.memAbs false reg a) fun k c =>
    c.access k false reg a.toNat

/-- STA (R264): a store at an absolute address. -/
def execSta (co : Core) (reg : BitVec 6) (a : BitVec 16) (s : State) : Out :=
  s.issuePure co (.memAbs true reg a) fun k c =>
    c.access k true reg a.toNat

/-- One slot of a DMOV (R267). -/
def WCore.move (c : WCore) (k : Nat) (m : DMove) : WCore :=
  (c.access k m.store m.reg (c.ptr m.pk).toNat).memPtr (.inc m.i) m.pk

/-- DMOV (R226, R267): slot A, then slot B. -/
def execDmov (co : Core) (a b : DMove) (s : State) : Out :=
  s.issuePure co (.dmov a b) fun k c =>
    (c.move k a).move k b

/-- The product of two data registers, with SV for -1 x -1 under FRAC (R236). -/
def WCore.prod (c : WCore) (a b : BitVec 6) : Int × Bool := product c.frac (c.dr a) (c.dr b)

/-- MAC (R268): acc := acc + d1 x d2. -/
def execMac (co : Core) (d1 d2 : BitVec 6) (acc : BitVec 2) (s : State) : Out :=
  s.issuePure co (.mac d1 d2 acc) fun _ c =>
    let p := c.prod d1 d2
    (c.stickSV p.2).accRes acc.toNat ((c.ac acc.toNat).toInt + p.1)

/-- MSU (R268): acc := acc - d1 x d2. -/
def execMsu (co : Core) (d1 d2 : BitVec 6) (acc : BitVec 2) (s : State) : Out :=
  s.issuePure co (.msu d1 d2 acc) fun _ c =>
    let p := c.prod d1 d2
    (c.stickSV p.2).accRes acc.toNat ((c.ac acc.toNat).toInt - p.1)

/-- MPA (R268): acc := d1 x d2; SV for -1 x -1. -/
def execMpa (co : Core) (d1 d2 : BitVec 6) (acc : BitVec 2) (s : State) : Out :=
  s.issuePure co (.mpa d1 d2 acc) fun _ c =>
    let p := c.prod d1 d2
    (c.stickSV p.2).setAc acc.toNat (BitVec.ofInt 56 p.1)

/-- CLRA (R268): acc := 0. -/
def execClra (co : Core) (acc : BitVec 2) (s : State) : Out :=
  s.issuePure co (.clra acc) fun _ c =>
    c.setAc acc.toNat 0

/-- EXT (R268): d1 := the extraction of acc x 2^s; Z N V, SV. -/
def execExt (co : Core) (d1 : BitVec 6) (acc : BitVec 2) (sh : BitVec 4) (s : State) : Out :=
  s.issuePure co (.ext d1 acc sh) fun _ c =>
    let e := extract24 c.rnd ((c.acMove acc.toNat).toInt * 2 ^ sh.toInt.toNat) (2 ^ (24 + (-sh.toInt).toNat))
    (((c.zn e.1).setV e.2).stickSV e.2).res d1 e.1 1

/-- MOVAD (R268): d1 := window w of acc; no flag. -/
def execMovad (co : Core) (d1 : BitVec 6) (acc : BitVec 2) (w : BitVec 3) (s : State) : Out :=
  s.issuePure co (.movad d1 acc w) fun _ c =>
    c.res d1 ((c.acMove acc.toNat).extractLsb' (8 * w.toNat) 24) 1

/-- MOVDA (R268): INS 0 sets acc to d1 x 2^(8w); INS 1 replaces window w. -/
def execMovda (co : Core) (d1 : BitVec 6) (acc : BitVec 2) (w : BitVec 3) (ins : Bool) (s : State) : Out :=
  s.issuePure co (.movda d1 acc w ins) fun _ c =>
    let sh := 8 * w.toNat
    let v := c.dr d1
    c.setAc acc.toNat
      (if ins then
        (c.ac acc.toNat &&& ~~~((0xFFFFFF : BitVec 56) <<< sh)) ||| (v.setWidth 56 <<< sh)
      else v.signExtend 56 <<< sh)

/-- ADDA (R268): acc := acc + acc(x). -/
def execAdda (co : Core) (acc x : BitVec 2) (s : State) : Out :=
  s.issuePure co (.adda acc x) fun _ c =>
    c.accRes acc.toNat ((c.ac acc.toNat).toInt + (c.ac x.toNat).toInt)

/-- SUBA (R268): acc := acc - acc(x). -/
def execSuba (co : Core) (acc x : BitVec 2) (s : State) : Out :=
  s.issuePure co (.suba acc x) fun _ c =>
    c.accRes acc.toNat ((c.ac acc.toNat).toInt - (c.ac x.toNat).toInt)

/-- SHA (R268): acc := acc x 2^s; right shifts round toward minus infinity. -/
def execSha (co : Core) (acc : BitVec 2) (sh : BitVec 6) (s : State) : Out :=
  s.issuePure co (.sha acc sh) fun _ c =>
    let v := (c.ac acc.toNat).toInt
    if sh.msb then c.setAc acc.toNat (BitVec.ofInt 56 (v / 2 ^ (-sh.toInt).toNat))
    else c.accRes acc.toNat (v * 2 ^ sh.toNat)

/-- NEGA (R268): acc := -acc. -/
def execNega (co : Core) (acc : BitVec 2) (s : State) : Out :=
  s.issuePure co (.nega acc) fun _ c =>
    c.accRes acc.toNat (-(c.ac acc.toNat).toInt)

/-- ABSA (R268): acc := abs(acc). -/
def execAbsa (co : Core) (acc : BitVec 2) (s : State) : Out :=
  s.issuePure co (.absa acc) fun _ c =>
    c.accRes acc.toNat (c.ac acc.toNat).toInt.natAbs

/-- SAT48 (R268): acc held within 48 bits; SV when the value changed. -/
def execSat48 (co : Core) (acc : BitVec 2) (s : State) : Out :=
  s.issuePure co (.sat48 acc) fun _ c =>
    let v := (c.ac acc.toNat).toInt
    let w := clampI (-(2 ^ 47)) (2 ^ 47 - 1) v
    (c.stickSV (w != v)).setAc acc.toNat (BitVec.ofInt 56 w)

/-- One half of a MAC2: the product added, or subtracted when `sub` is set (R269). -/
def WCore.half (c : WCore) (sub : Bool) (acc : BitVec 2) (p : Int × Bool) : WCore :=
  (c.stickSV p.2).accRes acc.toNat
    (if sub then (c.ac acc.toNat).toInt - p.1 else (c.ac acc.toNat).toInt + p.1)

/-- MAC2 (R269): two multiply-accumulates into two accumulators in one cycle. -/
def execMac2 (co : Core) (sx sy : Bool) (accX accY : BitVec 2) (da db dc de : BitVec 6) (s : State) : Out :=
  s.issuePure co (.mac2 sx sy accX accY da db dc de) fun _ c =>
    (c.half sx accX (c.prod da db)).half sy accY (c.prod dc de)

end Sys2Proof.Machine
end

