-- ==== Sys2Proof/Machine/Dispatch.lean ====
section
/-! DEFINITION. The meaning of every command: one arm for each constructor of Instr. -/
namespace Sys2Proof.Machine

/-- The effect of a command on everything but the queue. [DESIGN CHOICE, assumption 8] -/
def exec (i : Instr) (s : State) : Host.Outcome State Fault Refusal :=
  match i with
  | .registerWrite t by_ a n v => Sys2Proof.Machine.execRegisterWrite t by_ a n v s
  | .rcRead t by_ a n => Sys2Proof.Machine.execRcRead t by_ a n s
  | .lowRead t by_ a => Sys2Proof.Machine.execLowRead t by_ a s
  | .vinRise t fromAbsent => Sys2Proof.Machine.execVinRise t fromAbsent s
  | .vinLockoutFall t => Sys2Proof.Machine.execVinLockoutFall t s
  | .powerFailWarning t => Sys2Proof.Machine.execPowerFailWarning t s
  | .overvoltageShutoff t => Sys2Proof.Machine.execOvervoltageShutoff t s
  | .overvoltageRelease t => Sys2Proof.Machine.execOvervoltageRelease t s
  | .breakerTrip t => Sys2Proof.Machine.execBreakerTrip t s
  | .breakerRetry t => Sys2Proof.Machine.execBreakerRetry t s
  | .hsEnLow t => Sys2Proof.Machine.execHsEnLow t s
  | .hsEnRise t => Sys2Proof.Machine.execHsEnRise t s
  | .pwrGoodRise t ref => Sys2Proof.Machine.execPwrGoodRise t ref s
  | .supplyFault t => Sys2Proof.Machine.execSupplyFault t s
  | .referenceAbsentTimeout t => Sys2Proof.Machine.execReferenceAbsentTimeout t s
  | .internalResetRelease t strap => Sys2Proof.Machine.execInternalResetRelease t strap s
  | .resetNAssert t low takes => Sys2Proof.Machine.execResetNAssert t low takes s
  | .resetNRise t => Sys2Proof.Machine.execResetNRise t s
  | .softCold t by_ warm => Sys2Proof.Machine.execSoftCold t by_ warm s
  | .softWarm t by_ => Sys2Proof.Machine.execSoftWarm t by_ s
  | .perstFall t => Sys2Proof.Machine.execPerstFall t s
  | .perstRise t => Sys2Proof.Machine.execPerstRise t s
  | .pcieLinkChange t up => Sys2Proof.Machine.execPcieLinkChange t up s
  | .tempAlertSet t temp => Sys2Proof.Machine.execTempAlertSet t temp s
  | .tempAlertClear t temp => Sys2Proof.Machine.execTempAlertClear t temp s
  | .thermalTrip t temp => Sys2Proof.Machine.execThermalTrip t temp s
  | .thermalTripRecovery t temp => Sys2Proof.Machine.execThermalTripRecovery t temp s
  | .referenceLoss t => Sys2Proof.Machine.execReferenceLoss t s
  | .referenceRecovery t => Sys2Proof.Machine.execReferenceRecovery t s
  | .supplySample t vin iin => Sys2Proof.Machine.execSupplySample t vin iin s
  | .lidTemperatureSample t lid l0 l1 l2 => Sys2Proof.Machine.execLidTemperatureSample t lid l0 l1 l2 s
  | .tapInstructionUpdate t scan => Sys2Proof.Machine.execTapInstructionUpdate t scan s
  | .ntimSet t by_ => Sys2Proof.Machine.execNtimSet t by_ s
  | .ntimStep t by_ => Sys2Proof.Machine.execNtimStep t by_ s
  | .slew t by_ => Sys2Proof.Machine.execSlew t by_ s
  | .cancelSlew t by_ => Sys2Proof.Machine.execCancelSlew t by_ s
  | .slewComplete t => Sys2Proof.Machine.execSlewComplete t s
  | .ntimRateWrite t by_ v => Sys2Proof.Machine.execNtimRateWrite t by_ v s
  | .ntimModeWrite t by_ v => Sys2Proof.Machine.execNtimModeWrite t by_ v s
  | .ntimHoldWrite t by_ hold => Sys2Proof.Machine.execNtimHoldWrite t by_ hold s
  | .beaconMissed t => Sys2Proof.Machine.execBeaconMissed t s
  | .beaconReceive t idx => Sys2Proof.Machine.execBeaconReceive t idx s
  | .ppsArm t by_ k pol => Sys2Proof.Machine.execPpsArm t by_ k pol s
  | .ppsDisarm t by_ k pol => Sys2Proof.Machine.execPpsDisarm t by_ k pol s
  | .ppsEdge t k => Sys2Proof.Machine.execPpsEdge t k s
  | .ppsPulseEnd t k => Sys2Proof.Machine.execPpsPulseEnd t k s
  | .compareArm t by_ n v => Sys2Proof.Machine.execCompareArm t by_ n v s
  | .compareFire t n => Sys2Proof.Machine.execCompareFire t n s
  | .capture t src rising => Sys2Proof.Machine.execCapture t src rising s
  | .capLoRead t by_ n => Sys2Proof.Machine.execCapLoRead t by_ n s
  | .capWindowClose t n reader => Sys2Proof.Machine.execCapWindowClose t n reader s
  | .reqOff t by_ n fcorr => Sys2Proof.Machine.execReqOff t by_ n fcorr s
  | .reqStandby t by_ n fcorr => Sys2Proof.Machine.execReqStandby t by_ n fcorr s
  | .reqRx t by_ n fcorr => Sys2Proof.Machine.execReqRx t by_ n fcorr s
  | .lampPowerUpComplete t n => Sys2Proof.Machine.execLampPowerUpComplete t n s
  | .rxSettleComplete t n => Sys2Proof.Machine.execRxSettleComplete t n s
  | .lampTuneWrite t by_ n v => Sys2Proof.Machine.execLampTuneWrite t by_ n v s
  | .settleComplete t n => Sys2Proof.Machine.execSettleComplete t n s
  | .lockFail t n => Sys2Proof.Machine.execLockFail t n s
  | .synthRecompute t n => Sys2Proof.Machine.execSynthRecompute t n s
  | .foregroundCalibration t by_ n v => Sys2Proof.Machine.execForegroundCalibration t by_ n v s
  | .calStepComplete t n => Sys2Proof.Machine.execCalStepComplete t n s
  | .calReturnComplete t n => Sys2Proof.Machine.execCalReturnComplete t n s
  | .backgroundCalStep t n => Sys2Proof.Machine.execBackgroundCalStep t n s
  | .calDue t n temp => Sys2Proof.Machine.execCalDue t n temp s
  | .lbtListenStart t n => Sys2Proof.Machine.execLbtListenStart t n s
  | .lbtListenEnd t n powers => Sys2Proof.Machine.execLbtListenEnd t n powers s
  | .rxToTxStart t n skew => Sys2Proof.Machine.execRxToTxStart t n skew s
  | .rxToTxEnd t n => Sys2Proof.Machine.execRxToTxEnd t n s
  | .transmissionEnd t n => Sys2Proof.Machine.execTransmissionEnd t n s
  | .txToRxEnd t n => Sys2Proof.Machine.execTxToRxEnd t n s
  | .pairForm t by_ v => Sys2Proof.Machine.execPairForm t by_ v s
  | .pairAlignComplete t => Sys2Proof.Machine.execPairAlignComplete t s
  | .pairDissolve t by_ v => Sys2Proof.Machine.execPairDissolve t by_ v s
  | .seamAlignComplete t => Sys2Proof.Machine.execSeamAlignComplete t s
  | .preambleDeclaration t n adc bins w cls pos xs => Sys2Proof.Machine.execPreambleDeclaration t n adc bins w cls pos xs s
  | .contextAllocate t q => Sys2Proof.Machine.execContextAllocate t q s
  | .activation t n => Sys2Proof.Machine.execActivation t n s
  | .holdExpiry t n => Sys2Proof.Machine.execHoldExpiry t n s
  | .searchEnable t by_ n v => Sys2Proof.Machine.execSearchEnable t by_ n v s
  | .blockWrite t idx xs => Sys2Proof.Machine.execBlockWrite t idx xs s
  | .contextOverrun t idx => Sys2Proof.Machine.execContextOverrun t idx s
  | .setEnd t by_ idx gen => Sys2Proof.Machine.execSetEnd t by_ idx gen s
  | .consumed t by_ idx gen => Sys2Proof.Machine.execConsumed t by_ idx gen s
  | .setSync t by_ idx gen => Sys2Proof.Machine.execSetSync t by_ idx gen s
  | .setMod t by_ idx gen => Sys2Proof.Machine.execSetMod t by_ idx gen s
  | .release t by_ idx gen => Sys2Proof.Machine.execRelease t by_ idx gen s
  | .syncTimeout t idx => Sys2Proof.Machine.execSyncTimeout t idx s
  | .headerTimeout t idx => Sys2Proof.Machine.execHeaderTimeout t idx s
  | .maskCheck t n base => Sys2Proof.Machine.execMaskCheck t n base s
  | .mantSubmit t by_ v => Sys2Proof.Machine.execMantSubmit t by_ v s
  | .mantJobDispatch t => Sys2Proof.Machine.execMantJobDispatch t s
  | .decHdr t a => Sys2Proof.Machine.execDecHdr t a s
  | .decPay t a => Sys2Proof.Machine.execDecPay t a s
  | .encHdr t a => Sys2Proof.Machine.execEncHdr t a s
  | .encPay t a => Sys2Proof.Machine.execEncPay t a s
  | .mantAbort t by_ v => Sys2Proof.Machine.execMantAbort t by_ v s
  | .storeEntryExpiry t k => Sys2Proof.Machine.execStoreEntryExpiry t k s
  | .expLate t => Sys2Proof.Machine.execExpLate t s
  | .mantPairEnable t by_ exp v => Sys2Proof.Machine.execMantPairEnable t by_ exp v s
  | .importBody t body => Sys2Proof.Machine.execImportBody t body s
  | .addressingBlockRead t idx => Sys2Proof.Machine.execAddressingBlockRead t idx s
  | .commit t idx => Sys2Proof.Machine.execCommit t idx s
  | .lateDecision t idx => Sys2Proof.Machine.execLateDecision t idx s
  | .ackTransmitCommand t idx => Sys2Proof.Machine.execAckTransmitCommand t idx s
  | .register t by_ => Sys2Proof.Machine.execRegister t by_ s
  | .update t by_ idx => Sys2Proof.Machine.execUpdate t by_ idx s
  | .nbrRead t by_ idx => Sys2Proof.Machine.execNbrRead t by_ idx s
  | .remove t by_ idx => Sys2Proof.Machine.execRemove t by_ idx s
  | .purge t by_ idx => Sys2Proof.Machine.execPurge t by_ idx s
  | .nbrLoad t by_ => Sys2Proof.Machine.execNbrLoad t by_ s
  | .nbrExport t by_ => Sys2Proof.Machine.execNbrExport t by_ s
  | .enqueue t by_ idx => Sys2Proof.Machine.execEnqueue t by_ idx s
  | .dequeue t by_ idx => Sys2Proof.Machine.execDequeue t by_ idx s
  | .nbrEnable t by_ v => Sys2Proof.Machine.execNbrEnable t by_ v s
  | .lanternRun t by_ k run => Sys2Proof.Machine.execLanternRun t by_ k run s
  | .wickRun t by_ n => Sys2Proof.Machine.execWickRun t by_ n s
  | .wickHaltRequest t by_ n => Sys2Proof.Machine.execWickHaltRequest t by_ n s
  | .dmemDataAccess t by_ n w => Sys2Proof.Machine.execDmemDataAccess t by_ n w s
  | .imemDataWrite t by_ n v => Sys2Proof.Machine.execImemDataWrite t by_ n v s
  | .imageLoad t by_ v => Sys2Proof.Machine.execImageLoad t by_ v s
  | .longOperationStep t op => Sys2Proof.Machine.execLongOperationStep t op s
  | .add co dd da db => Sys2Proof.Machine.execAdd co dd da db s
  | .sub co dd da db => Sys2Proof.Machine.execSub co dd da db s
  | .adc co dd da db => Sys2Proof.Machine.execAdc co dd da db s
  | .sbc co dd da db => Sys2Proof.Machine.execSbc co dd da db s
  | .and co dd da db => Sys2Proof.Machine.execAnd co dd da db s
  | .or co dd da db => Sys2Proof.Machine.execOr co dd da db s
  | .xor co dd da db => Sys2Proof.Machine.execXor co dd da db s
  | .andn co dd da db => Sys2Proof.Machine.execAndn co dd da db s
  | .lsl co dd da db => Sys2Proof.Machine.execLsl co dd da db s
  | .lsr co dd da db => Sys2Proof.Machine.execLsr co dd da db s
  | .asr co dd da db => Sys2Proof.Machine.execAsr co dd da db s
  | .ror co dd da db => Sys2Proof.Machine.execRor co dd da db s
  | .min co dd da db => Sys2Proof.Machine.execMin co dd da db s
  | .max co dd da db => Sys2Proof.Machine.execMax co dd da db s
  | .abs co dd da => Sys2Proof.Machine.execAbs co dd da s
  | .neg co dd da => Sys2Proof.Machine.execNeg co dd da s
  | .mov co dd da => Sys2Proof.Machine.execMov co dd da s
  | .cmp co da db => Sys2Proof.Machine.execCmp co da db s
  | .tst co da db => Sys2Proof.Machine.execTst co da db s
  | .norm co dd da => Sys2Proof.Machine.execNorm co dd da s
  | .mul co dd da db => Sys2Proof.Machine.execMul co dd da db s
  | .mpyr co dd da db => Sys2Proof.Machine.execMpyr co dd da db s
  | .sxb co dd da => Sys2Proof.Machine.execSxb co dd da s
  | .zxb co dd da => Sys2Proof.Machine.execZxb co dd da s
  | .addi co dd da imm => Sys2Proof.Machine.execAddi co dd da imm s
  | .andi co dd da imm => Sys2Proof.Machine.execAndi co dd da imm s
  | .ori co dd da imm => Sys2Proof.Machine.execOri co dd da imm s
  | .xori co dd da imm => Sys2Proof.Machine.execXori co dd da imm s
  | .shi co kind dd da count => Sys2Proof.Machine.execShi co kind dd da count s
  | .cmpi co da imm => Sys2Proof.Machine.execCmpi co da imm s
  | .ldi co dd imm => Sys2Proof.Machine.execLdi co dd imm s
  | .ldhi co dd imm => Sys2Proof.Machine.execLdhi co dd imm s
  | .ld co reg m pk => Sys2Proof.Machine.execLd co reg m pk s
  | .st co reg m pk => Sys2Proof.Machine.execSt co reg m pk s
  | .lda co reg a => Sys2Proof.Machine.execLda co reg a s
  | .sta co reg a => Sys2Proof.Machine.execSta co reg a s
  | .dmov co a b => Sys2Proof.Machine.execDmov co a b s
  | .mac co d1 d2 acc => Sys2Proof.Machine.execMac co d1 d2 acc s
  | .msu co d1 d2 acc => Sys2Proof.Machine.execMsu co d1 d2 acc s
  | .mpa co d1 d2 acc => Sys2Proof.Machine.execMpa co d1 d2 acc s
  | .clra co acc => Sys2Proof.Machine.execClra co acc s
  | .ext co d1 acc sh => Sys2Proof.Machine.execExt co d1 acc sh s
  | .movad co d1 acc w => Sys2Proof.Machine.execMovad co d1 acc w s
  | .movda co d1 acc w ins => Sys2Proof.Machine.execMovda co d1 acc w ins s
  | .adda co acc x => Sys2Proof.Machine.execAdda co acc x s
  | .suba co acc x => Sys2Proof.Machine.execSuba co acc x s
  | .sha co acc sh => Sys2Proof.Machine.execSha co acc sh s
  | .nega co acc => Sys2Proof.Machine.execNega co acc s
  | .absa co acc => Sys2Proof.Machine.execAbsa co acc s
  | .sat48 co acc => Sys2Proof.Machine.execSat48 co acc s
  | .mac2 co sx sy accX accY da db dc de => Sys2Proof.Machine.execMac2 co sx sy accX accY da db dc de s
  | .paddi co pk imm => Sys2Proof.Machine.execPaddi co pk imm s
  | .pldi co pk imm => Sys2Proof.Machine.execPldi co pk imm s
  | .movdp co pk da => Sys2Proof.Machine.execMovdp co pk da s
  | .movpd co pk dd => Sys2Proof.Machine.execMovpd co pk dd s
  | .cbset co k da db => Sys2Proof.Machine.execCbset co k da db s
  | .cbget co k dd h => Sys2Proof.Machine.execCbget co k dd h s
  | .movdl co l da => Sys2Proof.Machine.execMovdl co l da s
  | .movld co l dd => Sys2Proof.Machine.execMovld co l dd s
  | .movdw co da => Sys2Proof.Machine.execMovdw co da s
  | .movwd co dd => Sys2Proof.Machine.execMovwd co dd s
  | .movrd co dd => Sys2Proof.Machine.execMovrd co dd s
  | .br co cond target => Sys2Proof.Machine.execBr co cond target s
  | .jal co pk target => Sys2Proof.Machine.execJal co pk target s
  | .jr co pk => Sys2Proof.Machine.execJr co pk s
  | .loopi co lc rot count off => Sys2Proof.Machine.execLoopi co lc rot count off s
  | .loopr co lc rot dc e => Sys2Proof.Machine.execLoopr co lc rot dc e s
  | .nop co => Sys2Proof.Machine.execNop co s
  | .rot co => Sys2Proof.Machine.execRot co s
  | .halt co => Sys2Proof.Machine.execHalt co s
  | .twait co => Sys2Proof.Machine.execTwait co s
  | .tend co d => Sys2Proof.Machine.execTend co d s
  | .tid co d => Sys2Proof.Machine.execTid co d s
  | .dmawt co d ch => Sys2Proof.Machine.execDmawt co d ch s
  | .dmast co d ch => Sys2Proof.Machine.execDmast co d ch s
  | .fence co => Sys2Proof.Machine.execFence co s
  | .dma co ch out mode pk n dc => Sys2Proof.Machine.execDma co ch out mode pk n dc s
  | .dmaComplete t co ch => Sys2Proof.Machine.execDmaComplete t co ch s
  | .fld t co m n => Sys2Proof.Machine.execFld t co m n s
  | .fst t co m n => Sys2Proof.Machine.execFst t co m n s
  | .tnow t co k => Sys2Proof.Machine.execTnow t co k s
  | .tget co d k p => Sys2Proof.Machine.execTget co d k p s
  | .tput co d k p => Sys2Proof.Machine.execTput co d k p s
  | .tadd co k j d u => Sys2Proof.Machine.execTadd co k j d u s
  | .tsub co d k j => Sys2Proof.Machine.execTsub co d k j s
  | .tmov co k j => Sys2Proof.Machine.execTmov co k j s
  | .twaitu t co k => Sys2Proof.Machine.execTwaitu t co k s
  | .twaituComplete t k => Sys2Proof.Machine.execTwaituComplete t k s
  | .rcmdTransmit t co dd pk tmS tmD => Sys2Proof.Machine.execRcmdTransmit t co dd pk tmS tmD s
  | .rcmdGapOffer t co dd pk tmS tmD => Sys2Proof.Machine.execRcmdGapOffer t co dd pk tmS tmD s
  | .rstat t co dd ds wait => Sys2Proof.Machine.execRstat t co dd ds wait s
  | .place t co r di b ovr cls tmS tmD tmU => Sys2Proof.Machine.execPlace t co r di b ovr cls tmS tmD tmU s
  | .buildPoll t co dd pk tm => Sys2Proof.Machine.execBuildPoll t co dd pk tm s
  | .buildDownlink t co dd pk tm => Sys2Proof.Machine.execBuildDownlink t co dd pk tm s
  | .buildBeacon t co dd pk tm => Sys2Proof.Machine.execBuildBeacon t co dd pk tm s
  | .nbrInstrRead t co r di w dc => Sys2Proof.Machine.execNbrInstrRead t co r di w dc s
  | .nbrInstrWrite t co r di w dc => Sys2Proof.Machine.execNbrInstrWrite t co r di w dc s
  | .descriptorWrite t by_ idx w v => Sys2Proof.Machine.execDescriptorWrite t by_ idx w v s
  | .arm t by_ idx => Sys2Proof.Machine.execArm t by_ idx s
  | .advance t by_ idx => Sys2Proof.Machine.execAdvance t by_ idx s
  | .chndAbort t by_ idx => Sys2Proof.Machine.execChndAbort t by_ idx s
  | .delay t by_ idx => Sys2Proof.Machine.execDelay t by_ idx s
  | .free t by_ idx => Sys2Proof.Machine.execFree t by_ idx s
  | .flagSet t by_ f => Sys2Proof.Machine.execFlagSet t by_ f s
  | .dispatch t => Sys2Proof.Machine.execDispatch t s
  | .preemption t => Sys2Proof.Machine.execPreemption t s
  | .resume t k => Sys2Proof.Machine.execResume t k s
  | .delayWake t => Sys2Proof.Machine.execDelayWake t s
  | .orderedRelease t idx => Sys2Proof.Machine.execOrderedRelease t idx s
  | .chandlerEnable t by_ v => Sys2Proof.Machine.execChandlerEnable t by_ v s
  | .ciphSubmit t by_ v => Sys2Proof.Machine.execCiphSubmit t by_ v s
  | .jobAdmission t => Sys2Proof.Machine.execJobAdmission t s
  | .cbcEncrypt t l => Sys2Proof.Machine.execCbcEncrypt t l s
  | .cbcDecrypt t l => Sys2Proof.Machine.execCbcDecrypt t l s
  | .cfbEncrypt t l => Sys2Proof.Machine.execCfbEncrypt t l s
  | .cfbDecrypt t l => Sys2Proof.Machine.execCfbDecrypt t l s
  | .ctr t l => Sys2Proof.Machine.execCtr t l s
  | .ccmEncrypt t l => Sys2Proof.Machine.execCcmEncrypt t l s
  | .ccmDecrypt t l => Sys2Proof.Machine.execCcmDecrypt t l s
  | .cmacGenerate t l => Sys2Proof.Machine.execCmacGenerate t l s
  | .cmacVerify t l => Sys2Proof.Machine.execCmacVerify t l s
  | .ciphAbort t by_ v => Sys2Proof.Machine.execCiphAbort t by_ v s
  | .generate t by_ k => Sys2Proof.Machine.execGenerate t by_ k s
  | .loadSplit t by_ k => Sys2Proof.Machine.execLoadSplit t by_ k s
  | .stagedComponentExpiry t => Sys2Proof.Machine.execStagedComponentExpiry t s
  | .loadPlain t by_ k => Sys2Proof.Machine.execLoadPlain t by_ k s
  | .unwrap t by_ k => Sys2Proof.Machine.execUnwrap t by_ k s
  | .wrapOut t by_ k => Sys2Proof.Machine.execWrapOut t by_ k s
  | .erase t by_ k => Sys2Proof.Machine.execErase t by_ k s
  | .setLimit t by_ k => Sys2Proof.Machine.execSetLimit t by_ k s
  | .keyStatus t by_ k => Sys2Proof.Machine.execKeyStatus t by_ k s
  | .recInval t by_ k => Sys2Proof.Machine.execRecInval t by_ k s
  | .recErase t by_ k => Sys2Proof.Machine.execRecErase t by_ k s
  | .flush t by_ k => Sys2Proof.Machine.execFlush t by_ k s
  | .rootSet t by_ k => Sys2Proof.Machine.execRootSet t by_ k s
  | .rewrap t by_ k => Sys2Proof.Machine.execRewrap t by_ k s
  | .cipherEnable t by_ v => Sys2Proof.Machine.execCipherEnable t by_ v s
  | .approvedWrite t by_ => Sys2Proof.Machine.execApprovedWrite t by_ s
  | .tamperAlarm t sensor => Sys2Proof.Machine.execTamperAlarm t sensor s
  | .attest t by_ => Sys2Proof.Machine.execAttest t by_ s
  | .verify t by_ => Sys2Proof.Machine.execVerify t by_ s
  | .selftest t by_ => Sys2Proof.Machine.execSelftest t by_ s
  | .secRngRead t by_ => Sys2Proof.Machine.execSecRngRead t by_ s
  | .healthTestFailure t => Sys2Proof.Machine.execHealthTestFailure t s
  | .dramTransaction t op => Sys2Proof.Machine.execDramTransaction t op s
  | .patrolScrub t ecc written => Sys2Proof.Machine.execPatrolScrub t ecc written s
  | .refresh t r => Sys2Proof.Machine.execRefresh t r s
  | .refreshRateChange t => Sys2Proof.Machine.execRefreshRateChange t s
  | .zqCalibration t r => Sys2Proof.Machine.execZqCalibration t r s
  | .dramTraining t by_ v => Sys2Proof.Machine.execDramTraining t by_ v s
  | .caParityAlert t r again => Sys2Proof.Machine.execCaParityAlert t r again s
  | .rankFenceWrite t by_ v => Sys2Proof.Machine.execRankFenceWrite t by_ v s
  | .selfRefreshRequest t by_ v => Sys2Proof.Machine.execSelfRefreshRequest t by_ v s
  | .selfRefreshEntry t => Sys2Proof.Machine.execSelfRefreshEntry t s
  | .portCfgWrite t by_ p v => Sys2Proof.Machine.execPortCfgWrite t by_ p v s
  | .portEnable t by_ p v => Sys2Proof.Machine.execPortEnable t by_ p v s
  | .linkChange t p up half sp lpSym lpAsym lf rf => Sys2Proof.Machine.execLinkChange t p up half sp lpSym lpAsym lf rf s
  | .frameReceive t p f fill sfd => Sys2Proof.Machine.execFrameReceive t p f fill sfd s
  | .pauseEnd t p => Sys2Proof.Machine.execPauseEnd t p s
  | .pauseXoff t p fill => Sys2Proof.Machine.execPauseXoff t p fill s
  | .pauseRepeat t p fill => Sys2Proof.Machine.execPauseRepeat t p fill s
  | .pauseXon t p fill => Sys2Proof.Machine.execPauseXon t p fill s
  | .pauseSend t by_ p v => Sys2Proof.Machine.execPauseSend t by_ p v s
  | .transmitFrameFetch t p q => Sys2Proof.Machine.execTransmitFrameFetch t p q s
  | .frameAdmission t => Sys2Proof.Machine.execFrameAdmission t s
  | .transmitSelection t p => Sys2Proof.Machine.execTransmitSelection t p s
  | .frameTransmitComplete t p => Sys2Proof.Machine.execFrameTransmitComplete t p s
  | .mdio t by_ v => Sys2Proof.Machine.execMdio t by_ v s
  | .mdioDone t d => Sys2Proof.Machine.execMdioDone t d s
  | .routeSet t by_ => Sys2Proof.Machine.execRouteSet t by_ s
  | .routeDel t by_ idx => Sys2Proof.Machine.execRouteDel t by_ idx s
  | .routeRead t by_ idx => Sys2Proof.Machine.execRouteRead t by_ idx s
  | .neighSet t by_ => Sys2Proof.Machine.execNeighSet t by_ s
  | .neighDel t by_ idx => Sys2Proof.Machine.execNeighDel t by_ idx s
  | .neighRead t by_ idx => Sys2Proof.Machine.execNeighRead t by_ idx s
  | .recordArrival t => Sys2Proof.Machine.execRecordArrival t s
  | .datagramFlush t => Sys2Proof.Machine.execDatagramFlush t s
  | .encapsulationEnable t by_ v => Sys2Proof.Machine.execEncapsulationEnable t by_ v s
  | .flowRelease t => Sys2Proof.Machine.execFlowRelease t s
  | .flowRateWrite t by_ f v => Sys2Proof.Machine.execFlowRateWrite t by_ f v s
  | .flowBurstWrite t by_ f v => Sys2Proof.Machine.execFlowBurstWrite t by_ f v s
  | .policerRateWrite t by_ k cbs v => Sys2Proof.Machine.execPolicerRateWrite t by_ k cbs v s
  | .gateEntryBoundary t p => Sys2Proof.Machine.execGateEntryBoundary t p s
  | .commitGcl t by_ p => Sys2Proof.Machine.execCommitGcl t by_ p s
  | .abortGcl t by_ p => Sys2Proof.Machine.execAbortGcl t by_ p s
  | .gclSwitchOver t p => Sys2Proof.Machine.execGclSwitchOver t p s
  | .ember t by_ => Sys2Proof.Machine.execEmber t by_ s
  | .domainAnswer t wfi => Sys2Proof.Machine.execDomainAnswer t wfi s
  | .domainAckTimeout t => Sys2Proof.Machine.execDomainAckTimeout t s
  | .emberEntered t => Sys2Proof.Machine.execEmberEntered t s
  | .wakeEvent t b => Sys2Proof.Machine.execWakeEvent t b s
  | .wakeStepReady t lost => Sys2Proof.Machine.execWakeStepReady t lost s
  | .wakeStepTimeout t => Sys2Proof.Machine.execWakeStepTimeout t s
  | .domOff t by_ d => Sys2Proof.Machine.execDomOff t by_ d s
  | .domOn t by_ d => Sys2Proof.Machine.execDomOn t by_ d s
  | .unitSet t via => Sys2Proof.Machine.execUnitSet t via s
  | .sysSvnBurn t by_ v => Sys2Proof.Machine.execSysSvnBurn t by_ v s
  | .storeBusError t a => Sys2Proof.Machine.execStoreBusError t a s
  | .mailboxTailWrite t v => Sys2Proof.Machine.execMailboxTailWrite t v s
  | .hello t => Sys2Proof.Machine.execHello t s
  | .getInfo t => Sys2Proof.Machine.execGetInfo t s
  | .mbxAbort t => Sys2Proof.Machine.execMbxAbort t s
  | .boot t => Sys2Proof.Machine.execBoot t s
  | .unitGet t => Sys2Proof.Machine.execUnitGet t s
  | .calRead t => Sys2Proof.Machine.execCalRead t s
  | .calWrite t => Sys2Proof.Machine.execCalWrite t s
  | .journalRead t => Sys2Proof.Machine.execJournalRead t s
  | .journalAppend t data cut => Sys2Proof.Machine.execJournalAppend t data cut s
  | .norErase t => Sys2Proof.Machine.execNorErase t s
  | .sramScrub t ecc written => Sys2Proof.Machine.execSramScrub t ecc written s
  | .telemetrySample t => Sys2Proof.Machine.execTelemetrySample t s
  | .bgCalSecond t => Sys2Proof.Machine.execBgCalSecond t s
  | .cluImport t by_ v => Sys2Proof.Machine.execCluImport t by_ v s
  | .clusterHello t k h => Sys2Proof.Machine.execClusterHello t k h s
  | .helloAck t k h code => Sys2Proof.Machine.execHelloAck t k h code s
  | .maskPropose t k h partLen m at_ => Sys2Proof.Machine.execMaskPropose t k h partLen m at_ s
  | .maskCommit t k h code m => Sys2Proof.Machine.execMaskCommit t k h code m s
  | .maskApply t => Sys2Proof.Machine.execMaskApply t s
  | .keepalive t k h ty => Sys2Proof.Machine.execKeepalive t k h ty s
  | .softExport t k h => Sys2Proof.Machine.execSoftExport t k h s
  | .snap t by_ freeze => Sys2Proof.Machine.execSnap t by_ freeze s
  | .gapOfferEnd t n => Sys2Proof.Machine.execGapOfferEnd t n s
  | .consoleImageBlock t idx data crcOk => Sys2Proof.Machine.execConsoleImageBlock t idx data crcOk s
  | .interruptClaim t h sup => Sys2Proof.Machine.execInterruptClaim t h sup s

end Sys2Proof.Machine
end

