-- ==== Sys2Proof/Safety.lean ====
section
/-! DEFINITION. The terms in which statements speak of a state: a block that runs, the canonical forms, and what a command
may leave as it was. -/
namespace Sys2Proof.Machine

/-- Internal reset is released and power domain `d` runs (R40, R412): a command of a block in `d` has its effect. -/
abbrev State.runs (s : State) (d : Nat) : Prop := s.board.held = false ∧ s.domOn d = true

/-- Initiator `y` reaches register `a`: nothing of its own is held, PMP lets it write, and the register's domain runs (R10,
R40, R42, R412, R428). -/
abbrev State.opens (s : State) (y : Ini) (a : Nat) : Prop :=
  s.admits y a = true ∧ (addrDomain a).any s.domOn = true

/-- Initiator `y` reaches register `a` to read it. -/
abbrev State.opensRead (s : State) (y : Ini) (a : Nat) : Prop :=
  s.hears y = true ∧ s.pmpOk y .read a 4 = true ∧ (addrDomain a).any s.domOn = true

/-- The byte memories stand in their one form: the fabric memory, and the NOR with its erased byte. -/
def State.formed (s : State) : Prop := Memory.wf s.mem = true ∧ cellsAbove norZero none s.nor = true

/-- The registers outside the addresses of `l` show what they held. -/
def State.regsBut (s u : State) (l : List Nat) : Prop := ∀ a, a ∉ l → u.reg a = s.reg a

/-- Every byte of memory outside `n` bytes from `a` reads as before. -/
def State.bytesBut (s u : State) (a n : Nat) : Prop := ∀ j, (j < a ∨ a + n ≤ j) → u.byte j = s.byte j

/-! ### Wick cores and Lanterns -/

/-- Core `co` can issue and has instruction `i` at its pc (R232, R259, R260). -/
abbrev State.issues (s : State) (co : Core) (i : WInstr) : Prop :=
  s.canIssue (coreKey co) = true ∧ s.fetchW (coreKey co) = (0, some i)

/-- Core `co` as an instruction that issues now reads it: results due by now have landed (R240). -/
def State.seen (s : State) (co : Core) : WCore := (s.core (coreKey co)).land (s.core (coreKey co)).cyc

/-- Core `co` as instruction `i` finds it when it issues: as `seen`, with the wait of its transfers for a slot counted
(R228). -/
def State.sees (s : State) (co : Core) (i : WInstr) : WCore :=
  { s.seen co with waited := (s.core (coreKey co)).slotWait i % 32 }

/-- From `s` to `u` no core but `k` has changed, and beside the cores at most the counts of issues and stalls (R228, R457). -/
def State.coreOnly (s u : State) (k : Nat) : Prop :=
  (∀ j, j ≠ k → u.core j = s.core j) ∧ u = { s with cores := u.cores, pcnt := u.pcnt, regs := u.regs } ∧
    ∀ a, (∀ e, a ≠ PCNT_WRAP e) → (isW k = true → a ≠ WICK_STALLS k) → u.reg a = s.reg a

/-- The core with wsr `w` and a result `v` for `dd` that becomes readable `lat` issue cycles on (R224, R240). -/
def WCore.fills (c : WCore) (dd : BitVec 6) (v : BitVec 24) (lat : Nat) (w : BitVec 32) : WCore :=
  { c with wsr := w, inflight := flightIns ⟨physReg c.rrb dd.toNat, v, c.cyc + lat⟩ c.inflight }

/-- The flags of an instruction: Z, N, C, V, and whether it sets the sticky SV and AV (R225). -/
structure Fl where
  z : Bool
  n : Bool
  c : Bool
  v : Bool
  sv : Bool := false
  av : Bool := false
  deriving DecidableEq, Repr

/-- wsr `w` is wsr `w0` with the flags `f`: every other bit, and a sticky flag not set now, stays (R225). -/
def Fl.made (f : Fl) (w0 w : BitVec 32) : Prop :=
  ∀ i, w.getLsbD i = if i = 23 then f.z else if i = 22 then f.n else if i = 21 then f.c else if i = 20 then f.v
    else if i = 19 then (w0.getLsbD 19 || f.av) else if i = 18 then (w0.getLsbD 18 || f.sv) else w0.getLsbD i

/-- The flags as they stand. -/
def WCore.fl (c : WCore) : Fl := ⟨c.fZ, c.fN, c.fC, c.fV, false, false⟩

/-- Command `x` issues `i` on `co`: the core moves on with result `v` for `dd` after `lat` and flags `f`, and nothing else
changes. -/
def State.gives (s : State) (x : Instr) (co : Core) (i : WInstr) (dd : BitVec 6) (lat : Nat) (v : WCore → BitVec 24)
    (f : WCore → BitVec 24 → Fl) : Prop :=
  s.issues co i → ∃ u w, exec x s = .next u ∧ s.coreOnly u (coreKey co) ∧
    u.core (coreKey co) = ((s.sees co i).fills dd (v (s.seen co)) lat w).next ∧
    (f (s.seen co) (v (s.seen co))).made (s.seen co).wsr w

/-- Command `x` issues `i` on `co`: the core moves on with accumulator `a` holding `v` and flags `f`. -/
def State.accumulates (s : State) (x : Instr) (co : Core) (i : WInstr) (a : BitVec 2) (v : WCore → BitVec 56)
    (f : WCore → Fl) : Prop :=
  s.issues co i → ∃ u w, exec x s = .next u ∧ s.coreOnly u (coreKey co) ∧
    u.core (coreKey co) = (({ s.sees co i with wsr := w } : WCore).setAc a.toNat (v (s.seen co))).next ∧
    (f (s.seen co)).made (s.seen co).wsr w

/-- Command `x` issues `i` on `co`: the core becomes `f` of what the instruction sees, and nothing else changes. -/
def State.moves (s : State) (x : Instr) (co : Core) (i : WInstr) (f : WCore → WCore) : Prop :=
  s.issues co i → ∃ u, exec x s = .next u ∧ s.coreOnly u (coreKey co) ∧ u.core (coreKey co) = f (s.sees co i)

end Sys2Proof.Machine
end

