-- ==== Sys2Proof/Certificates/Slice0/Obligations.lean ====
section
/-! DEFINITION. The statements for the provers: one `Prop` each, listed in OBLIGATIONS.json. The docstring names the rules
that a statement rests on and, where it rests on a choice of the model, the assumption that declares it. -/
open Sys2Proof Sys2Proof.Machine

/-- Parts of R66, R67: SET, STEP, SLEW and CANCEL_SLEW outside BEACON mode with legal arguments. A SET makes network
time ARG_SEC.ARG_NS, a STEP moves it by the argument, a SLEW starts with the signed amount at the PPM of that instant,
a CANCEL_SLEW discards the remainder; the two last do not make network time jump (R64). Memory stays. Parts of R67: in
BEACON mode NTIM_CMD and NTIM_RATE writes change nothing but CMD_REFUSED; elsewhere a SET or STEP with ARG_NS of
1,000,000,000 or more changes nothing but CMD_ERR. It rests on the model's choices in assumption 34. Completes:
NTIM_SET, NTIM_STEP, SLEW, CANCEL_SLEW. -/
def Obligations.NetworkTimeCommands : Prop :=
  (∀ (s : State) (t : Nat) (by_ : Ini), s.opens by_ NTIM_CMD → s.ntMode ≠ 2 →
    ((s.reg NTIM_ARG_NS).toNat < 1000000000 → ∃ u, exec (.ntimSet t by_) s = .next u ∧
      u.now = (s.rf NTIM_ARG_SEC_HI 15 0 * 2 ^ 32 + (s.reg NTIM_ARG_SEC_LO).toNat) * 1000000000
        + (s.reg NTIM_ARG_NS).toNat ∧
      u.ntim.slewLeft = 0 ∧ u.ntim.valid = true ∧ u.rb NTIM_STATUS 5 = true ∧ u.mem = s.mem) ∧
    ((s.reg NTIM_ARG_NS).toNat < 1000000000 → ∃ u, exec (.ntimStep t by_) s = .next u ∧
      u.now = (s.at t).now + sext 48 (s.rf NTIM_ARG_SEC_HI 15 0 * 2 ^ 32 + (s.reg NTIM_ARG_SEC_LO).toNat) * 1000000000
        + (s.reg NTIM_ARG_NS).toNat ∧
      u.ntim.slewLeft = 0 ∧ u.ntim.valid = s.ntim.valid ∧ u.rb NTIM_STATUS 5 = true ∧ u.mem = s.mem) ∧
    (∃ u, exec (.slew t by_) s = .next u ∧ u.now = (s.at t).now ∧
      u.ntim.slewLeft = (s.reg NTIM_ARG_NS).toInt * 2 ^ 40 ∧ u.ntim.slewPpm = s.rf NTIM_SLEW_CTL 9 0 ∧
      u.regs = s.regs ∧ u.mem = s.mem) ∧
    (∃ u, exec (.cancelSlew t by_) s = .next u ∧ u.now = (s.at t).now ∧ u.ntim.slewLeft = 0 ∧
      u.regs = s.regs ∧ u.mem = s.mem)) ∧
  (∀ (s : State) (t : Nat) (by_ : Ini), s.opens by_ NTIM_CMD →
    (s.ntMode = 2 → ∀ c ∈ [Instr.ntimSet t by_, .ntimStep t by_, .slew t by_, .cancelSlew t by_],
      exec c s = .next (((s.at t).setRb NTIM_STATUS 6 true).answer by_ .done)) ∧
    (s.ntMode = 2 → ∀ v, s.opens by_ NTIM_RATE → exec (.ntimRateWrite t by_ v) s = .next (((s.at t).setRb NTIM_STATUS 6 true).answer by_ .done)) ∧
    (s.ntMode ≠ 2 → 1000000000 ≤ (s.reg NTIM_ARG_NS).toNat →
      ∀ c ∈ [Instr.ntimSet t by_, .ntimStep t by_],
        exec c s = .next (((s.at t).setRb NTIM_STATUS 7 true).answer by_ .done)))

/-- Parts of R64: a write of NTIM_RATE folds the elapsed time at the old rate and latches the base, so network time
does not jump; after it the rate is the value written. The end of a slew folds too. Parts of R70, R71, R75, R86, R463:
a write of NTIM_SRC_CTL. MODE 0b11 changes no mode; a change of MODE keeps network time continuous; leaving PTP or
BEACON ends a holdover and clears MISSED; entering PTP with HOLD, or writing HOLD in PTP, declares one from now; HOLD
0 in PTP ends it. It rests on the model's choices in assumption 37. Completes: NTIM_RATE_WRITE, SLEW_COMPLETE,
NTIM_MODE_WRITE, NTIM_HOLD_WRITE. -/
def Obligations.NetworkTimeRate : Prop :=
  (∀ (s : State) (t : Nat), s.runs 0 →
    (∀ (by_ : Ini) (v : Word), s.opens by_ NTIM_RATE → s.ntMode ≠ 2 → ∃ u, exec (.ntimRateWrite t by_ v) s = .next u ∧
      u.now = (s.at t).now ∧ u.reg NTIM_RATE = v ∧ u.ntim.base = (s.at t).raw ∧
      (∀ a, a ≠ NTIM_RATE → u.reg a = s.reg a) ∧ u.mem = s.mem) ∧
    ((s.at t).slewFine = 0 → ∃ u, exec (.slewComplete t) s = .next u ∧
      u.now = (s.at t).now ∧ u.ntim.slewLeft = 0 ∧ u.ntim.base = (s.at t).raw ∧ u.ntim.guardSlew = false ∧
      u.regs = s.regs ∧ u.mem = s.mem)) ∧
  (∀ (s : State) (t : Nat) (by_ : Ini), s.opens by_ NTIM_SRC_CTL →
    (∀ v : Word, ∃ u, exec (.ntimModeWrite t by_ v) s = .next u ∧ u.now = (s.at t).now ∧ u.mem = s.mem ∧
      (∀ a, a ≠ NTIM_SRC_CTL → u.reg a = s.reg a) ∧ u.rb NTIM_SRC_CTL 8 = bit v 8 ∧
      u.ntMode = (if fld v 1 0 = 3 then s.ntMode else fld v 1 0) ∧
      (s.ntMode ≠ 0 → u.ntMode ≠ s.ntMode → u.ntMode ≠ 1 → u.ntim.holdover = false) ∧
      (s.ntMode ≠ u.ntMode → u.ntim.missed = 0 ∧ u.ntim.lastAccept = none) ∧
      (s.ntMode ≠ 1 → u.ntMode = 1 → bit v 8 = true → u.ntim.holdover = true ∧ u.ntim.holdFrom = u.now)) ∧
    (∀ hold : Bool, ∃ u, exec (.ntimHoldWrite t by_ hold) s = .next u ∧ u.now = (s.at t).now ∧ u.mem = s.mem ∧
      (∀ a, a ≠ NTIM_SRC_CTL → u.reg a = s.reg a) ∧ u.rb NTIM_SRC_CTL 8 = hold ∧ u.ntMode = s.ntMode ∧
      (s.ntMode = 1 → hold = false → u.ntim.holdover = false) ∧
      (s.ntMode = 1 → hold = true → s.rb NTIM_SRC_CTL 8 = false → u.ntim.holdover = true ∧ u.ntim.holdFrom = u.now) ∧
      (s.ntMode ≠ 1 → u.ntim = s.ntim)))

/-- Parts of R72, R74: a window of BEACON mode that closes empty is a miss; at the third in a row holdover begins, its
guard grows from the last accepted beacon, and the holdover interrupt is raised. Parts of R72, R73, R215: a verified
beacon of the followed member that is newer than the last is recorded, one that is not is counted as old; in BEACON
mode, as the first accepted one and with an error within STEP_LIMIT, it makes network time valid and slews by the
error, and one outside the acceptance window is counted as late and moves nothing. It rests on the model's choices in
assumptions 36, 146. Completes: BEACON_MISSED, BEACON_RECEIVE. -/
def Obligations.Beacons : Prop :=
  (∀ (s : State) (t : Nat) (l : Int), s.runs 0 → s.ntMode = 2 → s.ntim.lastAccept = some l →
    l + (s.ntim.windows + 1) * (s.at t).bcnPeriod + min (s.at t).bcnHalf ((s.at t).bcnPeriod / 2) ≤ (s.at t).now →
    ∃ u, exec (.beaconMissed t) s = .next u ∧ u.ntim.missed = min 3 (s.ntim.missed + 1) ∧
      u.ntim.windows = s.ntim.windows + 1 ∧ u.regs = s.regs ∧ u.mem = s.mem ∧
      (s.ntim.missed = 2 → u.ntim.holdover = true ∧ u.ntim.holdFrom = l ∧ u.irqPend = s.irqPend ||| (1#256 <<< 33)) ∧
      (s.ntim.missed ≠ 2 → u.ntim.holdover = s.ntim.holdover ∧ u.irqPend = s.irqPend)) ∧
  (∀ (s : State) (t : Nat) (i : Fin 3072) (f : RxFrame) (e : Int), s.runs 13 → s.rxFrame i = some f →
    f.stage = .verified → f.beacon = true → f.devid % 1024 = s.rf NTIM_BCN_CTL 29 20 →
    e = ((beVal ((natsOf f.plain).take 6) * 1000000000 + beVal (((natsOf f.plain).drop 6).take 4) : Nat) : Int)
      + s.rf NTIM_BCN_PATH 19 0 - f.stamp →
    ((∃ q, s.bcnLast (f.devid % 1024) = some q ∧ seqLater f.seq q = false) → ∃ u, exec (.beaconReceive t i) s = .next u ∧
      u.ntim = s.ntim ∧ u.mem = s.mem ∧ u.lant.bcnLast = s.lant.bcnLast ∧
      (u.reg LANT_CNT_BCN_OLD).toNat = min 0xFFFFFFFF ((s.reg LANT_CNT_BCN_OLD).toNat + 1)) ∧
    ((∀ q, s.bcnLast (f.devid % 1024) = some q → seqLater f.seq q = true) → ∃ u, exec (.beaconReceive t i) s = .next u ∧
      u.rxFrame i = (s.lant.behind.find? fun x => x.1 == i.val).map (·.2) ∧ u.mem = s.mem ∧
      u.view LANT_BCN_LAST = BitVec.ofNat 32 (2 ^ 31 + f.seq) ∧ (s.ntMode ≠ 2 → u.ntim = s.ntim) ∧
      (s.ntMode = 2 → (s.at t).bcnInside f.stamp = false →
        u.ntim = s.ntim ∧ u.rf NTIM_BCN_STATUS 15 8 = min 255 (s.rf NTIM_BCN_STATUS 15 8 + 1)) ∧
      (s.ntMode = 2 → s.ntim.lastAccept = none → (e.natAbs : Int) ≤ s.rf NTIM_BCN_CTL 15 8 * 1000 →
        u.ntim.valid = true ∧ u.ntim.slewLeft = e * 2 ^ 40 ∧ u.ntim.lastAccept = some f.stamp ∧
        u.ntim.holdover = false ∧ u.now = (s.at t).now)))

/-- Parts of R79: ARM starts a stopped output at START, or where START is past at the first START + n x PERIOD in the
future, and not at all where PERIOD is 0; a WIDTH of 0, or not below a PERIOD that is not 0, sets BAD and does not
start it; a disarm ends it at the end of the pulse in progress. The edge starts a pulse of WIDTH and schedules the
next edge a PERIOD later; the end of the pulse ends a single pulse, and a repeating output takes the values then in
its registers. Parts of R80, R81: a write of CMP arms a channel in a compare mode, and a fire that is due at that tick
comes first and sets FIRED; an armed channel fires when (TMR_LT_LO - CMP) mod 2^32 is below 2^31, sets FIRED, and in
periodic mode with a PERIOD adds it to CMP and stays armed; elsewhere it is disarmed. CHAIN arms a compare channel
PERIOD after the fire; a channel that does not chain, or chains to itself, touches no other channel. Parts of R82,
R83: a rising edge at CAP_IN[src] reaches every capture channel that selects it: outside a read window it captures the
local time, sets CAPTURED, and sets OVERRUN over an unread capture; inside one the first waits in the shadow and a
further one is discarded and sets OVERRUN. A read of CAP_LO returns the low half, and of the older value where a
capture falls in the tick of the read, and opens a window of 1,000 ns; its close, by CAP_HI or by itself, moves the
shadow in. It rests on the model's choices in assumptions 38, 39. Completes: PPS_ARM, PPS_DISARM, PPS_EDGE,
PPS_PULSE_END, COMPARE_ARM, COMPARE_FIRE, CAPTURE, CAP_LO_READ, CAP_WINDOW_CLOSE. -/
def Obligations.TimerChannels : Prop :=
  (∀ (s : State) (t : Nat) (k : Fin 4), s.runs 0 →
    (∀ (by_ : Ini) (pol : Bool), s.opens by_ (NTIM_PPS_CTL k) → (s.ppsOf k).running = false →
      (s.reg (NTIM_PPS_WIDTH k)).toNat ≠ 0 →
      ((s.reg (NTIM_PPS_PERIOD k)).toNat = 0 ∨ (s.reg (NTIM_PPS_WIDTH k)).toNat < (s.reg (NTIM_PPS_PERIOD k)).toNat) →
      ∃ u, exec (.ppsArm t by_ k pol) s = .next u ∧ u.rb (NTIM_PPS_CTL k) 1 = pol ∧ u.mem = s.mem ∧
        (∀ a, a ≠ NTIM_PPS_CTL k → u.reg a = s.reg a) ∧ (∀ j, j ≠ k.val → u.ppsOf j = s.ppsOf j) ∧
        (((s.at t).now ≤ s.ppsStart k ∨ (s.reg (NTIM_PPS_PERIOD k)).toNat ≠ 0) → (u.ppsOf k).running = true ∧
          (u.ppsOf k).pulseEnd = none ∧ (u.ppsOf k).width = (s.reg (NTIM_PPS_WIDTH k)).toNat ∧
          (u.ppsOf k).period = (s.reg (NTIM_PPS_PERIOD k)).toNat) ∧
        ((s.at t).now ≤ s.ppsStart k → (u.ppsOf k).next = some (s.ppsStart k)) ∧
        (s.ppsStart k < (s.at t).now → (s.reg (NTIM_PPS_PERIOD k)).toNat = 0 → (u.ppsOf k).running = false) ∧
        (s.ppsStart k < (s.at t).now → (s.reg (NTIM_PPS_PERIOD k)).toNat ≠ 0 →
          ∃ e, (u.ppsOf k).next = some e ∧ (s.at t).now < e ∧ e ≤ (s.at t).now + (s.reg (NTIM_PPS_PERIOD k)).toNat ∧
            (e - s.ppsStart k) % (s.reg (NTIM_PPS_PERIOD k)).toNat = 0)) ∧
    (∀ (by_ : Ini) (pol : Bool), s.opens by_ (NTIM_PPS_CTL k) → (s.ppsOf k).running = false →
      ((s.reg (NTIM_PPS_WIDTH k)).toNat = 0 ∨ ((s.reg (NTIM_PPS_PERIOD k)).toNat ≠ 0 ∧
        (s.reg (NTIM_PPS_PERIOD k)).toNat ≤ (s.reg (NTIM_PPS_WIDTH k)).toNat)) →
      ∃ u, exec (.ppsArm t by_ k pol) s = .next u ∧ u.pps = s.pps ∧ u.rb (NTIM_PPS_STATUS k) 2 = true) ∧
    (∀ (by_ : Ini) (pol : Bool), s.opens by_ (NTIM_PPS_CTL k) → (s.ppsOf k).running = true → ∃ u, exec (.ppsDisarm t by_ k pol) s = .next u ∧
      u.mem = s.mem ∧ ((s.ppsOf k).pulseEnd = none → (u.ppsOf k).running = false) ∧
      ((s.ppsOf k).pulseEnd ≠ none → (u.ppsOf k).running = true ∧ (u.ppsOf k).stopping = true)) ∧
    (∀ e : Int, (s.ppsOf k).running = true → (s.ppsOf k).pulseEnd = none → (s.ppsOf k).next = some e →
      e ≤ (s.at t).now → ∃ u, exec (.ppsEdge t k) s = .next u ∧ (u.ppsOf k).pulseEnd = some (e + (s.ppsOf k).width) ∧
        (u.ppsOf k).next = (if (s.ppsOf k).period = 0 then none else some (e + (s.ppsOf k).period)) ∧ u.mem = s.mem) ∧
    (∀ e : Int, (s.ppsOf k).pulseEnd = some e → e ≤ (s.at t).now → ∃ u, exec (.ppsPulseEnd t k) s = .next u ∧
      (u.ppsOf k).pulseEnd = none ∧ u.mem = s.mem ∧
      ((s.ppsOf k).stopping = true ∨ (s.ppsOf k).period = 0 → (u.ppsOf k).running = false) ∧
      ((s.ppsOf k).stopping = false → (s.ppsOf k).period ≠ 0 →
        (s.at t).now ≤ s.ppsStart k ∨ (s.reg (NTIM_PPS_PERIOD k)).toNat ≠ 0 → (u.ppsOf k).running = true ∧
        (u.ppsOf k).period = (s.reg (NTIM_PPS_PERIOD k)).toNat ∧
        (u.ppsOf k).width = (s.reg (NTIM_PPS_WIDTH k)).toNat))) ∧
  (∀ (s : State) (t : Nat) (n : Fin 32), s.runs 0 →
    (∀ (by_ : Ini) (v : Word), s.opens by_ (TMR_CH_CMP n) → ∃ u, exec (.compareArm t by_ n v) s = .next u ∧
      u.reg (TMR_CH_CMP n) = v ∧ u.mem = s.mem ∧
      ((s.at t).fires n = false → ∀ a, a ≠ TMR_CH_CMP n → u.reg a = s.reg a) ∧
      ((s.at t).fires n = true → u.rb (TMR_CH_STATUS n) 0 = true) ∧
      (s.tmode n = 1 ∨ s.tmode n = 2 → (u.tch n).armed = true) ∧
      (s.tmode n = 0 ∨ s.tmode n = 3 → u.tmr = s.tmr)) ∧
    (s.tmode n = 1 ∨ s.tmode n = 2 → (s.tch n).armed = true →
      (BitVec.ofNat 32 (s.at t).raw - s.reg (TMR_CH_CMP n)).toNat < 2 ^ 31 → ∃ u, exec (.compareFire t n) s = .next u ∧ u.rb (TMR_CH_STATUS n) 0 = true ∧ u.mem = s.mem ∧
        (s.rb (TMR_CH_CTL n) 23 = false ∨ s.rf (TMR_CH_CTL n) 28 24 = n.val → ∀ m, m ≠ n.val → u.tch m = s.tch m) ∧
        (∀ g, s.rb (TMR_CH_CTL n) 23 = true → s.rf (TMR_CH_CTL n) 28 24 = g → g ≠ n.val → s.tmode g = 1 ∨ s.tmode g = 2 →
          (u.tch g).armed = true ∧
          u.reg (TMR_CH_CMP g) = BitVec.ofNat 32 (s.at t).raw + s.reg (TMR_CH_PERIOD g)) ∧
        (s.tmode n = 2 → s.reg (TMR_CH_PERIOD n) ≠ 0 →
          (u.tch n).armed = true ∧ u.reg (TMR_CH_CMP n) = s.reg (TMR_CH_CMP n) + s.reg (TMR_CH_PERIOD n)) ∧
        (s.tmode n = 1 ∨ s.reg (TMR_CH_PERIOD n) = 0 →
          (u.tch n).armed = false ∧ u.reg (TMR_CH_CMP n) = s.reg (TMR_CH_CMP n)))) ∧
  (∀ (s : State) (t : Nat) (n : Fin 32),
    (∀ src : Fin 32, src.val < 4 → s.runs 0 → s.tmode n = 3 → s.rf (TMR_CH_CTL n) 12 8 = src.val →
      s.rf (TMR_CH_CTL n) 5 4 ≠ 1 → ∃ u, exec (.capture t src true) s = .next u ∧ u.mem = s.mem ∧
        ((s.tch n).window = none → (u.tch n).cap = BitVec.ofNat 64 (s.at t).raw ∧ u.rb (TMR_CH_STATUS n) 1 = true ∧
          u.rb (TMR_CH_STATUS n) 2 = (s.rb (TMR_CH_STATUS n) 2 || s.rb (TMR_CH_STATUS n) 1)) ∧
        (∀ w, (s.tch n).window = some w → (s.at t).raw < w → (u.tch n).cap = (s.tch n).cap ∧
          ((s.tch n).shadow = none → (u.tch n).shadow = some (BitVec.ofNat 64 (s.at t).raw)) ∧
          ((s.tch n).shadow ≠ none → (u.tch n).shadow = (s.tch n).shadow ∧ u.rb (TMR_CH_STATUS n) 2 = true))) ∧
    (∀ by_ : Ini, s.opensRead by_ (TMR_CH_CAP_LO n) → (s.tch n).window = none →
      (∀ x, (s.tch n).before = some x → x.1 ≠ (s.at t).raw) → ∃ u, exec (.capLoRead t by_ n) s = .next u ∧
      tabGet .none u.resp (iniIdx by_) = .data ((s.tch n).cap.toNat % 2 ^ 32) ∧
      (u.tch n).window = some ((s.at t).raw + 1000) ∧ u.regs = s.regs ∧ u.mem = s.mem) ∧
    (∀ (by_ : Ini) (v : BitVec 64) (st : Nat), s.opensRead by_ (TMR_CH_CAP_LO n) → (s.tch n).window = none →
      (s.tch n).before = some ((s.at t).raw, v, st) → ∃ u, exec (.capLoRead t by_ n) s = .next u ∧
      tabGet .none u.resp (iniIdx by_) = .data (v.toNat % 2 ^ 32) ∧ (u.tch n).shadow = some (s.tch n).cap ∧
      (u.tch n).window = some ((s.at t).raw + 1000) ∧ u.mem = s.mem) ∧
    (∀ by_ : Ini, s.opensRead by_ (TMR_CH_CAP_HI n) → (∀ w, (s.tch n).window = some w → (s.at t).raw < w) → ∃ u, exec (.capWindowClose t n (some by_)) s = .next u ∧
      tabGet .none u.resp (iniIdx by_) = .data ((s.tch n).cap.toNat / 2 ^ 32) ∧
      (u.tch n).window = none ∧ (u.tch n).shadow = none ∧ u.mem = s.mem ∧
      (∀ v, (s.tch n).shadow = some v → (u.tch n).cap = v ∧ u.rb (TMR_CH_STATUS n) 1 = true)) ∧
    (∀ w, s.runs 0 → (s.tch n).window = some w → w ≤ (s.at t).raw →
      ∃ u, exec (.capWindowClose t n none) s = .next u ∧ (u.tch n).window = none ∧ (u.tch n).shadow = none ∧
        u.mem = s.mem ∧ (∀ v, (s.tch n).shadow = some v → (u.tch n).cap = v ∧ u.rb (TMR_CH_STATUS n) 1 = true)))

/-- Parts of R93, R94: requests of an unpaired lamp in service that is in OFF, STANDBY or RX. OFF and STANDBY are
always taken; RX is taken with all four calibrations valid and a centre of 150,000 to 2,700,000 kHz, else it sets
REQ_REFUSED and changes no lamp. OFF idles the synthesiser; RX with the synthesiser locked at the tuned centre settles
the receiver for 5 us, else SETTLE runs. A request in OFF first powers the lamp up. A request in SETTLE waits in the
lamp. Other lamps and memory stay. A write to the upper lamp of a pair changes nothing, but one that requests RX sets
its REQ_REFUSED. Parts of R93, R94: the end of the power-up takes the lamp to STANDBY, and the end of the receive
settle to RX, when nothing is stored meanwhile. Parts of R28, R117, R120, R128: two adjacent lamps in STANDBY,
calibrated and in service, begin to align and are a pair 200 us later; PAIR = 0b00 dissolves it and sends both to
STANDBY, or ends an alignment; a pair already formed turns every other write away; the seam's alignment ends. It rests
on the model's choices in assumptions 41, 48, 154. Completes: REQ_OFF, REQ_STANDBY, REQ_RX, LAMP_POWER_UP_COMPLETE,
RX_SETTLE_COMPLETE, PAIR_FORM, PAIR_ALIGN_COMPLETE, PAIR_DISSOLVE, SEAM_ALIGN_COMPLETE. -/
def Obligations.LampRequests : Prop :=
  (∀ (s : State) (t : Nat) (by_ : Ini) (n : Fin 3) (fcorr : Bool),
    s.opens by_ (LAMP_STATE_CTL n) → s.inService n = true →
    (s.isUpper n = true → (∀ c ∈ [Instr.reqOff t by_ n fcorr, .reqStandby t by_ n fcorr],
        exec c s = .next ((s.at t).answer by_ .done)) ∧
      exec (.reqRx t by_ n fcorr) s = .next (((s.at t).setRb (LAMP_STATUS n) 14 true).answer by_ .done)) ∧
    (s.pair.formed = false → (s.lamp n).calRun = none →
    (∀ c ∈ [Instr.reqOff t by_ n fcorr, .reqStandby t by_ n fcorr, .reqRx t by_ n fcorr], ∃ u, exec c s = .next u ∧
      u.mem = s.mem ∧ (∀ m, m ≠ n.val → u.lamp m = s.lamp m) ∧ u.rb (LAMP_STATE_CTL n) 8 = fcorr) ∧
    ((s.lamp n).st = .settle → ∃ u, exec (.reqOff t by_ n fcorr) s = .next u ∧ (u.lamp n).st = .settle ∧
      (u.lamp n).reqWait = some 0 ∧ (u.lamp n).move = (s.lamp n).move) ∧
    ((s.lamp n).st = .settle → ∃ u, exec (.reqStandby t by_ n fcorr) s = .next u ∧ (u.lamp n).st = .settle ∧
      (u.lamp n).reqWait = some 1 ∧ (u.lamp n).move = (s.lamp n).move) ∧
    ((s.lamp n).st ∈ [LampSt.off, .standby, .rx] → ∃ u, exec (.reqOff t by_ n fcorr) s = .next u ∧
      (u.lamp n).st = .off ∧ (u.lamp n).move = .idle ∧ (u.lamp n).locked = false ∧ (u.lamp n).centre = 0 ∧
      u.rf (LAMP_STATE_CTL n) 1 0 = 0) ∧
    ((s.lamp n).st ∈ [LampSt.standby, .rx] → ∃ u, exec (.reqStandby t by_ n fcorr) s = .next u ∧
      (u.lamp n).st = .standby ∧ (u.lamp n).move = .idle ∧ (u.lamp n).locked = (s.lamp n).locked ∧
      u.rf (LAMP_STATE_CTL n) 1 0 = 1) ∧
    ((s.lamp n).st = .off → ∃ u, exec (.reqStandby t by_ n fcorr) s = .next u ∧
      (u.lamp n).st = .off ∧ (u.lamp n).move = .powerUp ∧ (u.lamp n).reqWait = none) ∧
    ((s.lamp n).calValid = 0xF → 150000 ≤ s.rf (LAMP_TUNE n) 21 0 → s.rf (LAMP_TUNE n) 21 0 ≤ 2700000 →
      ∃ u, exec (.reqRx t by_ n fcorr) s = .next u ∧
        ((s.lamp n).st ∈ [LampSt.off, .standby, .rx] → u.rf (LAMP_STATE_CTL n) 1 0 = 2) ∧
        ((s.lamp n).st = .off → (u.lamp n).move = .powerUp ∧ (u.lamp n).reqWait = some 2) ∧
        ((s.lamp n).st = .standby → (s.lamp n).locked = true → (s.lamp n).centre = s.rf (LAMP_TUNE n) 21 0 * 1000 →
          (s.lamp n).move = .idle → (u.lamp n).st = .standby ∧ (u.lamp n).move = .rxSettle ∧
            (u.lamp n).due = (s.at t).clk + 5000) ∧
        ((s.lamp n).st = .standby → (s.lamp n).locked = false → s.board.refOk = true → (u.lamp n).st = .settle ∧
          (u.lamp n).centre = s.rf (LAMP_TUNE n) 21 0 * 1000)) ∧
    ((s.lamp n).calValid ≠ 0xF ∨ s.rf (LAMP_TUNE n) 21 0 < 150000 ∨ 2700000 < s.rf (LAMP_TUNE n) 21 0 →
      ∃ u, exec (.reqRx t by_ n fcorr) s = .next u ∧ u.lamps = s.lamps ∧ u.rb (LAMP_STATUS n) 14 = true ∧
        u.rf (LAMP_STATE_CTL n) 1 0 = s.rf (LAMP_STATE_CTL n) 1 0))) ∧
  (∀ (s : State) (t : Nat) (n : Fin 3), s.runs (n + 1) → (s.lamp n).reqWait = none →
    ((s.lamp n).st = .off → (s.lamp n).move = .powerUp → ∃ u, exec (.lampPowerUpComplete t n) s = .next u ∧
      (u.lamp n).st = .standby ∧ (u.lamp n).move = .idle ∧ (∀ m, m ≠ n.val → u.lamp m = s.lamp m) ∧ u.mem = s.mem) ∧
    ((s.lamp n).st = .standby → (s.lamp n).move = .rxSettle → (s.lamp n).due ≤ (s.at t).clk →
      (s.lamp n).retuneWait = false → (s.lamp n).calHeld = 0 → ∃ u, exec (.rxSettleComplete t n) s = .next u ∧
        (u.lamp n).st = .rx ∧ (u.lamp n).move = .idle ∧ (∀ m, m ≠ n.val → u.lamp m = s.lamp m) ∧ u.mem = s.mem)) ∧
  (∀ (s : State) (t : Nat),
    (∀ (by_ : Ini) (v : Word) (p : Nat), s.opens by_ (LAMP_STATE_CTL 1) → s.inService 1 = true → fld v 1 0 = p → p = 1 ∨ p = 2 →
      s.pair.formed = false → s.pair.aligning = none →
      (∀ m ∈ [p - 1, p], (s.lamp m).st = .standby ∧ (s.lamp m).move = .idle ∧ (s.lamp m).calValid = 0xF ∧
        s.inService m = true) → ∃ u, exec (.pairForm t by_ v) s = .next u ∧ u.pair.formed = false ∧
        u.pair.lower = p - 1 ∧ u.pair.aligning = some 0 ∧ u.pair.alignDue = (s.at t).clk + 200000 ∧
        u.pair.diversity = bit v 4 ∧ u.lamps = s.lamps ∧ u.mem = s.mem) ∧
    (∀ (by_ : Ini) (v : Word), s.opens by_ (LAMP_STATE_CTL 1) → s.inService 1 = true → fld v 1 0 ≠ 0 → s.pair.formed = true →
      exec (.pairForm t by_ v) s = .next (((s.at t).setRb LAMP_PAIR_STATUS 1 true).answer by_ .done)) ∧
    (s.runs 2 → s.pair.aligning.isSome = true → s.pair.alignDue ≤ (s.at t).clk →
      exec (.pairAlignComplete t) s = .next { s.at t with pair := { s.pair with formed := true, aligning := none } }) ∧
    (∀ (by_ : Ini) (v : Word), s.opens by_ (LAMP_STATE_CTL 1) → s.inService 1 = true → s.pair.formed = false →
      ∃ u, exec (.pairDissolve t by_ v) s = .next u ∧ u.pair = { s.pair with aligning := none } ∧ u.lamps = s.lamps ∧
        u.rf LAMP_PAIR_CTL 1 0 = 0) ∧
    (∀ (by_ : Ini) (v : Word), s.opens by_ (LAMP_STATE_CTL 1) → s.inService 1 = true → s.pair.formed = true →
      (∀ m ∈ [s.pair.lower, s.pair.lower + 1], (s.lamp m).st = .rx ∨ (s.lamp m).st = .standby) →
      ∃ u, exec (.pairDissolve t by_ v) s = .next u ∧ u.pair.formed = false ∧ u.pair.aligning = none ∧
        u.rf LAMP_PAIR_CTL 1 0 = 0 ∧
        (∀ m ∈ [s.pair.lower, s.pair.lower + 1], (u.lamp m).st = .standby ∧ (u.lamp m).queue = [] ∧
          (u.lamp m).gaps = [])) ∧
    (∀ d, s.runs 4 → s.pair.seamDue = some d → d ≤ (s.at t).clk →
      exec (.seamAlignComplete t) s = .next { s.at t with pair := { s.pair with seamDue := none } }))

/-- Parts of R96 to R99: a write of LAMPn_TUNE to an unpaired lamp in RX starts SETTLE towards the centre in kHz, 60
us across tuning bands and 40 us within one, and one during a transmission or SETTLE waits; SETTLE ends in RX with the
synthesiser locked; 200 us without lock end in STANDBY with LOCK_FAIL set and OSC no longer valid; every 100 ms a
locked synthesiser takes a word at most 2 Hz per MHz of the centre from its present one. Parts of R100 to R104: RUN in
STANDBY or RX starts the first selected calibration; a step of 50 us ends; the last step of the last calibration
installs it and starts the return of 5 us, 60 us after OSC; the return ends in the former state with OK and the lamp's
calibration interrupt. A background step starts in an offered gap within the second's budget. A rise of 10 degrees
makes a valid calibration due. It rests on the model's choices in assumptions 42, 155. Completes: LAMP_TUNE_WRITE,
SETTLE_COMPLETE, LOCK_FAIL, SYNTH_RECOMPUTE, FOREGROUND_CALIBRATION, CAL_STEP_COMPLETE, CAL_RETURN_COMPLETE,
BACKGROUND_CAL_STEP, CAL_DUE. -/
def Obligations.LampTuning : Prop :=
  (∀ (s : State) (t : Nat) (n : Fin 3), s.runs (n + 1) → s.pair.formed = false →
    (∀ (by_ : Ini) (v : Word), s.opens by_ (LAMP_STATE_CTL n) → s.inService n = true →
      (s.lamp n).st ∈ [LampSt.rxToTx, .tx, .txToRx, .settle] → ∃ u, exec (.lampTuneWrite t by_ n v) s = .next u ∧
        u.reg (LAMP_TUNE n) = BitVec.ofNat 32 (fld v 21 0) ∧ u.lamp n = { s.lamp n with retuneWait := true } ∧ u.mem = s.mem) ∧
    (∀ (by_ : Ini) (v : Word), s.opens by_ (LAMP_STATE_CTL n) → s.inService n = true → (s.lamp n).st = .rx →
      (s.lamp n).partnerTx = false → s.board.refOk = true → ∃ u, exec (.lampTuneWrite t by_ n v) s = .next u ∧ u.reg (LAMP_TUNE n) = BitVec.ofNat 32 (fld v 21 0) ∧
        (u.lamp n).st = .settle ∧ (u.lamp n).locked = false ∧ (u.lamp n).centre = fld v 21 0 * 1000 ∧ u.mem = s.mem ∧
        (u.lamp n).due = (s.at t).clk +
          (if (s.lamp n).centre = 0 ∨ bandOf (s.lamp n).centre ≠ bandOf (fld v 21 0 * 1000) then 60000 else 40000)) ∧
    ((s.lamp n).st = .settle → (s.lamp n).move = .settle → (s.lamp n).due ≤ (s.at t).clk → s.board.refOk = true →
      (s.lamp n).reqWait = none → (s.lamp n).retuneWait = false → (s.lamp n).calHeld = 0 →
      ∃ u, exec (.settleComplete t n) s = .next u ∧ (u.lamp n).st = .rx ∧ (u.lamp n).locked = true ∧
        (u.lamp n).refLost = false ∧ u.mem = s.mem ∧
        (∀ x ∈ (u.lamp n).queue, (s.lamp n).centre - 32000000 ≤ x.chan ∧ x.chan ≤ (s.lamp n).centre + 32000000)) ∧
    ((s.lamp n).st = .settle → (s.lamp n).move = .settle → (s.lamp n).settleAt + 200000 ≤ (s.at t).clk →
      s.board.refOk = true → (s.lamp n).reqWait ≠ some 0 → ∃ u, exec (.lockFail t n) s = .next u ∧
        (u.lamp n).st = .standby ∧ u.rb (LAMP_STATUS n) 15 = true ∧ (u.lamp n).calValid = (s.lamp n).calValid &&& 0xE ∧
        u.mem = s.mem) ∧
    ((s.lamp n).st = .settle → (s.lamp n).move = .settle → (s.lamp n).settleAt + 200000 ≤ (s.at t).clk →
      s.board.refOk = true → (s.lamp n).reqWait = some 0 → ∃ u, exec (.lockFail t n) s = .next u ∧
        (u.lamp n).st = .off ∧ u.rb (LAMP_STATUS n) 15 = true) ∧
    ((s.lamp n).locked = true → (s.lamp n).synthAt + 100000000 ≤ (s.at t).clk → 0 ≤ (s.lamp n).centre →
      ∃ u, exec (.synthRecompute t n) s = .next u ∧ (u.lamp n).synthAt = (s.at t).clk ∧ (u.lamp n).st = (s.lamp n).st ∧
        (u.lamp n).locked = true ∧ u.mem = s.mem ∧ u.regs = s.regs ∧
        (s.lamp n).synth - 2 * (s.lamp n).centre * 2 ^ 40 / 1000000 ≤ (u.lamp n).synth ∧
        (u.lamp n).synth ≤ (s.lamp n).synth + 2 * (s.lamp n).centre * 2 ^ 40 / 1000000)) ∧
  (∀ (s : State) (t : Nat) (n : Fin 3), s.runs (n + 1) →
    (∀ (by_ : Ini) (v : Word) (i : Nat), s.opens by_ (LAMP_STATE_CTL n) → s.inService n = true → (s.lamp n).calRun = none →
      ((s.lamp n).st = .standby ∨ (s.lamp n).st = .rx) → s.board.refOk = true → calFirst (BitVec.ofNat 4 (fld v 3 0)) = some i →
      ∃ u, exec (.foregroundCalibration t by_ n v) s = .next u ∧ (u.lamp n).st = .cal ∧
        (u.lamp n).calRun = some ⟨true, BitVec.ofNat 4 (fld v 3 0), i, 0, (s.lamp n).st⟩ ∧
        (u.lamp n).due = (s.at t).clk + 50000 ∧ (u.lamp n).calRes = some .inSteps ∧ u.mem = s.mem) ∧
    (∀ r : CalRun, (s.lamp n).calRun = some r → r.fore = true → (s.lamp n).move = .calStep →
      (s.lamp n).due ≤ (s.at t).clk → ∃ u, exec (.calStepComplete t n) s = .next u ∧ u.mem = s.mem ∧
        (r.done + 1 < calSteps r.cur → (u.lamp n).calRun = some { r with done := r.done + 1 } ∧
          (u.lamp n).due = (s.at t).clk + 50000 ∧ (u.lamp n).calValid = (s.lamp n).calValid) ∧
        (calSteps r.cur ≤ r.done + 1 → (u.lamp n).calValid = (s.lamp n).calValid ||| (1#4 <<< r.cur) ∧
          (u.lamp n).calDue = (s.lamp n).calDue &&& ~~~(1#4 <<< r.cur)) ∧
        (calSteps r.cur ≤ r.done + 1 → calFirst (r.sel &&& ~~~(1#4 <<< r.cur)) = none →
          (u.lamp n).move = .calReturn ∧ (u.lamp n).due = (s.at t).clk + (if r.cur = 0 then 60000 else 5000))) ∧
    (∀ r : CalRun, (s.lamp n).calRun = some r → r.fore = true → r.former = .standby → (s.lamp n).move = .calReturn →
      (s.lamp n).due ≤ (s.at t).clk → (s.lamp n).reqWait = none → ∃ u, exec (.calReturnComplete t n) s = .next u ∧
        (u.lamp n).st = .standby ∧ (u.lamp n).calRun = none ∧ (u.lamp n).calRes = some .ok ∧ u.mem = s.mem ∧
        u.irqPend = s.irqPend ||| (1#256 <<< (50 + 4 * n.val))) ∧
    (∀ i : Nat, calFirst (s.lamp n).calDue = some i → s.rb (LAMP_CAL_CTL n) 8 = true → (s.lamp n).st = .rx →
      (s.lamp n).calRun = none → s.board.refOk = true → (s.lamp n).bgSecond < s.rf SYS_BG_CAL 7 0 →
      (∃ g ∈ (s.lamp n).gaps, g.s ≤ (s.at t).now ∧ (s.at t).now + (if i = 0 then 110000 else 55000) ≤ g.usable) →
      ∃ u, exec (.backgroundCalStep t n) s = .next u ∧ (u.lamp n).st = .cal ∧
        (u.lamp n).bgSecond = (s.lamp n).bgSecond + 1 ∧ (u.lamp n).due = (s.at t).clk + 50000 ∧ u.mem = s.mem) ∧
    (∀ temp : BitVec 16, ∃ u, exec (.calDue t n temp) s = .next u ∧ (u.lamp n).temp = temp.toInt ∧ u.mem = s.mem ∧
      u.regs = s.regs ∧ (∀ i : Fin 4, (s.lamp n).calDue.getLsbD i = true → (u.lamp n).calDue.getLsbD i = true) ∧
      (∀ i : Fin 4, (s.lamp n).calValid.getLsbD i = true → 160 ≤ (temp.toInt - tabGet 0 (s.lamp n).calTemp i).natAbs →
        (u.lamp n).calDue.getLsbD i = true)))

/-- Parts of R106, R107, R110 to R112: a command that listens begins its listen when it can still meet its deadline; a
listen with every window below THRESH finds the channel clear, and a busy one is counted and tried again within
BACKOFF, or ends the command after its last attempt. The listen of an acknowledgement inside RX_TO_TX goes on to the
transmission when clear and gives way to TX_TO_RX when busy. Parts of R93, R106 to R108, R112, R114: the turn-round
starts 25 us before the first symbol with the bytes of the image and the shaping coefficients, and with the listen of
an acknowledgement that is to listen; its end takes the power level, the end of the transmission gives OK to the
command's tag, counts the on-time and starts TX_TO_RX of 20 us, whose end is RX. It rests on the model's choices in
assumptions 47, 153, 158. Completes: LBT_LISTEN_START, LBT_LISTEN_END, RX_TO_TX_START, RX_TO_TX_END, TRANSMISSION_END,
TX_TO_RX_END, GAP_OFFER_END. -/
def Obligations.Transmissions : Prop :=
  (∀ (s : State) (t : Nat) (n : Fin 3), s.runs (n + 1) →
    (∀ x : TxCmd, (s.lamp n).queue = [x] → (s.lamp n).st = .rx → x.ack = false → x.listens = true → x.clear = none →
    (x.listen = none → x.lbtFrom ≤ (s.at t).now → (s.at t).now + x.listenUs * 1000 + 25000 ≤ x.d →
      ∃ u, exec (.lbtListenStart t n) s = .next u ∧ (u.lamp n).queue = [{ x with listen := some (s.at t).clk }] ∧
        (u.lamp n).st = .rx ∧ u.regs = s.regs ∧ u.mem = s.mem) ∧
    (∀ (b : Nat) (powers : List Int), (s.lamp n).run = none → x.listen = some b → b + x.listenUs * 1000 ≤ (s.at t).clk →
      (∀ p ∈ powers, p < sfld x.profA 23 16 * 100) → ∃ u, exec (.lbtListenEnd t n powers) s = .next u ∧
        (u.lamp n).queue = [{ x with listen := none, clear := some (s.at t).now }] ∧ u.regs = s.regs ∧ u.mem = s.mem) ∧
    (∀ (b : Nat) (powers : List Int), (s.lamp n).run = none → x.listen = some b → b + x.listenUs * 1000 ≤ (s.at t).clk →
      (∃ p ∈ powers, sfld x.profA 23 16 * 100 ≤ p) → x.attempt = fld x.profB 31 28 →
      ∃ u, exec (.lbtListenEnd t n powers) s = .next u ∧ (u.lamp n).queue = [] ∧ u.mem = s.mem) ∧
    (∀ (b : Nat) (powers : List Int), (s.lamp n).run = none → x.listen = some b → b + x.listenUs * 1000 ≤ (s.at t).clk →
      (∃ p ∈ powers, sfld x.profA 23 16 * 100 ≤ p) → x.attempt ≠ fld x.profB 31 28 →
      ∃ u y, exec (.lbtListenEnd t n powers) s = .next u ∧ (u.lamp n).queue = [y] ∧ y.attempt = x.attempt + 1 ∧
        y.listen = none ∧ (s.at t).now ≤ y.lbtFrom ∧ y.lbtFrom ≤ (s.at t).now + fld x.profB 19 0 * 1000 ∧ u.mem = s.mem ∧
        (u.reg (LAMP_CNT_LBT_BUSY n)).toNat = min 0xFFFFFFFF ((s.reg (LAMP_CNT_LBT_BUSY n)).toNat + 1))) ∧
    (∀ (r : TxRun) (powers : List Int), (s.lamp n).run = some r → (s.lamp n).st = .rxToTx → r.listening = true →
      r.start + r.cmd.listenUs * 1000 ≤ (s.at t).clk → ∃ u, exec (.lbtListenEnd t n powers) s = .next u ∧ u.mem = s.mem ∧
        ((∀ p ∈ powers, p < sfld r.cmd.profA 23 16 * 100) → u = { s.at t with lamps := u.lamps } ∧
          u.lamp n = { s.lamp n with run := some { r with listening := false } }) ∧
        ((∃ p ∈ powers, sfld r.cmd.profA 23 16 * 100 ≤ p) → (u.lamp n).st = .txToRx ∧ (u.lamp n).run = none ∧
          (u.lamp n).due = (s.at t).clk + 20000))) ∧
  (∀ (s : State) (t : Nat) (n : Fin 3), s.runs (n + 1) → s.pair.formed = false →
    (∀ (x : TxCmd) (w0 : Word), (s.lamp n).st = .rx → (s.lamp n).refLost = false →
      (∀ y ∈ (s.lamp n).queue, (s.at t).now + 25000 ≤ y.d) → (s.at t).starter n = some x → s.imgWord x = some w0 →
      tapSum (s.shapeSet n (bit w0 30)) ≠ 0 → s.imgReads x (imageLen w0) = true →
      ∀ skew : Fin 13, ∃ u, exec (.rxToTxStart t n skew) s = .next u ∧ (u.lamp n).st = .rxToTx ∧ u.mem = s.mem ∧
        (u.lamp n).run = some {
          cmd := x, start := (s.at t).clk, first := (s.at t).clk + 24994 + skew, len := imageLen w0
          img := (s.imgBytes x (imageLen w0)).getD [], coefs := s.shapeSet n (bit w0 30)
          listening := x.ack && x.listens } ∧
        (u.lamp n).due = (s.at t).clk + 24000) ∧
    (∀ r : TxRun, (s.lamp n).run = some r → (s.lamp n).st = .rxToTx → (s.lamp n).due ≤ (s.at t).clk →
      r.listening = false → s.imgReads r.cmd r.len = true → ∃ u, exec (.rxToTxEnd t n) s = .next u ∧ (u.lamp n).st = .tx ∧
        (u.lamp n).level = s.rf (LAMP_TXPWR n) 5 0 ∧ (u.lamp n).due = r.first + r.cmd.dur ∧ u.mem = s.mem) ∧
    (∀ (r : TxRun) (k m : Nat), (s.lamp n).run = some r → r.cmd.owner = .lantern k m → (s.lamp n).st = .tx →
      (s.lamp n).due ≤ (s.at t).clk → s.imgReads r.cmd r.len = true → tabGet 0 s.rtagBase k ≤ m →
      tabGet 0 s.rtagCnt k ≤ m + 16 → ∃ u, exec (.transmissionEnd t n) s = .next u ∧ (u.lamp n).st = .txToRx ∧
        (u.lamp n).due = (s.at t).clk + 20000 ∧ (u.lamp n).run = none ∧ u.mem = s.mem ∧
        tabGet none u.rtags (k * 16 + m % 16) = some .ok ∧
        (u.reg (LAMP_TX_ONTIME n)).toNat = min 0xFFFFFFFF
          ((s.reg (LAMP_TX_ONTIME n)).toNat + ((s.at t).clk - r.first + (s.lamp n).onFrac) / 1000)) ∧
    ((s.lamp n).st = .txToRx → (s.lamp n).due ≤ (s.at t).clk → (s.lamp n).goal = .rx → (s.lamp n).reqWait = none →
      (s.lamp n).retuneWait = false → (s.lamp n).calHeld = 0 → ∃ u, exec (.txToRxEnd t n) s = .next u ∧
        (u.lamp n).st = .rx ∧ u.mem = s.mem) ∧
    (∃ u, exec (.gapOfferEnd t n) s = .next u ∧ (u.lamp n).gaps = (s.lamp n).gaps.filter (fun g => (s.at t).now < g.d) ∧
      (u.lamp n).st = (s.lamp n).st ∧ u.mem = s.mem ∧ u.regs = s.regs))

/-- Parts of R130 to R133, R135, R138, R465: a declaration on an enabled search whose lamp delivers and has been quiet
for long enough, whose last CONSEC evaluations pass both thresholds against the floor of the position and that meets
no other detection and no context, is queued with its quality and counted. At a tick of Chandler the head of the queue
gets the lowest free context, held, with a new generation, or stops the queue at a limit; Chandler's acceptance makes
the context live and its refusal stops the queue; a head older than HOLD is dropped and its context freed. A write of
LENSn_CTL enables the search only while its ring is in service. It rests on the model's choices in assumptions 49,
156, 157. Completes: PREAMBLE_DECLARATION, CONTEXT_ALLOCATE, ACTIVATION, HOLD_EXPIRY, SEARCH_ENABLE. -/
def Obligations.LensDetections : Prop :=
  ∀ (s : State) (t : Nat) (n : Fin 3), s.runs 4 → s.pair.formed = false →
    (∀ (adc : List (Int × Int)) (bins : List (Int × List (Int × Int))) (partner feed : Feed) (cls : Fin 8) (pos : Int)
      (xs : List (List (Int × Int))) (nz : Nat), feed = { adc, bins } →
      s.rb (LENS_CTL n) 0 = true → s.rb (LENS_SRCH n cls) 31 = true → -1706 ≤ pos →
      pos + clsG cls - 1 ≤ 1706 → (pos + 1706) % ((clsG cls / 2 : Nat) : Int) = 0 → xs.length = subCount cls →
      (∀ x ∈ xs, longEnough (clsFs cls) (clsRs cls) (s.rf (LENS_SRCH n cls) 27 24) x.length = true) →
      s.delivers n = true → (s.at t).quiet n cls (s.rf (LENS_SRCH n cls) 27 24) = true →
      ((s.at t).feedLens n feed).groupFloor n pos (clsG cls) false = nz →
      (∀ e ∈ evalsOf cls (s.rf (LENS_SRCH n cls) 27 24) xs,
        evalPasses cls e nz (s.rf (LENS_SRCH n cls) 15 0) (s.rf (LENS_SRCH n cls) 23 16) = true) →
      s.ctxOf n = [] → s.pend n = [] →
      ∃ u d e, exec (.preambleDeclaration t n adc bins partner cls pos xs) s = .next u ∧ u.pend n = [d] ∧
        (evalsOf cls (s.rf (LENS_SRCH n cls) 27 24) xs).headD {} = e ∧
        d = { cls := cls.val, posBin := pos, posCentre := posCentreOf cls pos e.sub, m := e.m, p := e.p, n := nz,
              est := posCentreOf cls pos e.sub * 1000 + e.fMean, tDecl := (s.at t).raw, ctx := none, div := false } ∧
        u.mem = s.mem ∧ u.ctxs = s.ctxs ∧ u.lens = ((s.at t).feedLens n feed).lens ∧
        (u.reg (LENS_CNT_DECL n)).toNat = min 0xFFFFFFFF ((s.reg (LENS_CNT_DECL n)).toNat + 1)) ∧
    (∀ (look : List (List (Int × Int))) (d : Det) (ds : List Det), s.pend n = d :: ds → (s.at t).worksQueue n = true →
      (s.at t).holdOver n d = false → d.ctx = none →
      (∀ i : Nat, s.rb (LENS_CTL n) 0 = true → s.ctxOpen n < s.ctxLimit n → s.unitsUsed n + clsCost d.cls ≤ s.unitCap n →
        s.freeArea n = some i → ∃ u, exec (.contextAllocate t ⟨n, look⟩) s = .next u ∧ (u.ctx i).st = .held ∧
          (s.ctx i).inUse = false ∧ (∀ j, n * 1024 ≤ j → j < i → (s.ctx j).inUse = true) ∧
          (u.ctx i).cls = d.cls ∧ (u.ctx i).gen = (s.ctx i).gen + 1 ∧ (u.ctx i).declLt = d.tDecl ∧ (u.ctx i).lamp = n ∧
          u.pend n = { d with ctx := some i } :: ds ∧ (∀ j, j ≠ i → u.ctx j = s.ctx j) ∧ u.mem = s.mem ∧ u.regs = s.regs) ∧
      (s.rb (LENS_CTL n) 0 = false ∨ s.ctxLimit n ≤ s.ctxOpen n ∨ s.unitCap n < s.unitsUsed n + clsCost d.cls ∨
          s.freeArea n = none →
        exec (.contextAllocate t ⟨n, look⟩) s = .next ((s.at t).stopQueue n))) ∧
    (∀ (d : Det) (ds : List Det) (i : Nat) (q : State), s.pend n = d :: ds → (s.at t).worksQueue n = true →
      (s.at t).holdOver n d = false → d.ctx = some i → s.rb (LENS_CTL n) 0 = true →
      (∀ k, (s.at t).activate (i / 1024) n i (s.ctx i).gen.toNat (s.ctx i).cls = (q, some k) →
        s.memOk (s.ctxArea i) = true → s.memOk (s.ctxArea i + 63) = true → ∃ u, exec (.activation t n) s = .next u ∧
          (u.ctx i).st = .live ∧ (u.ctx i).task = k ∧ u.pend n = ds ∧ (u.desc k).st = .idle ∧ (u.desc k).pooled = true ∧
          (u.desc k).arg0 = BitVec.ofNat 24 i ∧ (Memory.wf s.mem = true → s.bytesBut u (s.ctxArea i) 64 ∧
            cellsRead memZero u.mem (s.ctxArea i) 64 = (u.ctx i).bytes i)) ∧
      ((s.at t).activate (i / 1024) n i (s.ctx i).gen.toNat (s.ctx i).cls = (q, none) →
        exec (.activation t n) s = .next (q.stopQueue n))) ∧
    (∀ (d : Det) (ds : List Det), s.pend n = d :: ds → (s.at t).worksQueue n = true →
      s.rf (LENS_HOLD n) 12 0 * 1000 < (s.at t).raw - d.tDecl →
      (d.ctx = none → ∃ u, exec (.holdExpiry t n) s = .next u ∧ u.pend n = ds ∧ u.ctxs = s.ctxs ∧ u.mem = s.mem ∧
        (u.reg (LENS_CNT_DROP_NOCTX n)).toNat = min 0xFFFFFFFF ((s.reg (LENS_CNT_DROP_NOCTX n)).toNat + 1)) ∧
      (∀ i, d.ctx = some i → ∃ u, exec (.holdExpiry t n) s = .next u ∧ u.pend n = ds ∧ (u.ctx i).st = .free ∧
        (∀ j, j ≠ i → u.ctx j = s.ctx j) ∧ u.mem = s.mem ∧
        (u.reg (LENS_CNT_DROP_CHND n)).toNat = min 0xFFFFFFFF ((s.reg (LENS_CNT_DROP_CHND n)).toNat + 1))) ∧
    (∀ (by_ : Ini) (v : Word), s.opens by_ (LENS_CTL n) → ∃ u, exec (.searchEnable t by_ n v) s = .next u ∧
      (s.areaIn (s.ringBase n) 0x2000000 = true → u.rb (LENS_CTL n) 0 = bit v 0) ∧
      (s.areaIn (s.ringBase n) 0x2000000 = false → u.rb (LENS_CTL n) 0 = (bit v 0 && s.rb (LENS_CTL n) 0)) ∧
      (∀ a, a ≠ LENS_CTL n → u.reg a = s.reg a) ∧ u.ctxs = s.ctxs ∧ u.mem = s.mem)

/-- Parts of R139 to R141, R143: a block whose samples have come and that fits the ring is written behind the blocks
before it, with its words at the place of WR_COUNT mod 8, and WR_COUNT advances; nothing outside the context's area
changes. An overrun, a missing SET_SYNC and a missing SET_END end the context with reasons 4, 2 and 3, each counted.
It rests on the model's choices in assumptions 156, 157. Completes: BLOCK_WRITE, CONTEXT_OVERRUN, SYNC_TIMEOUT,
HEADER_TIMEOUT. -/
def Obligations.LensContexts : Prop :=
  ∀ (s : State) (t : Nat) (i : Fin 3072), s.runs 4 → (s.ctx i).st = .live →
    (∀ (xs : List (List (Int × Int))) (w : List Byte), (s.ctx i).stopped = false → (s.ctx i).wr < (s.ctx i).consumed + 8 →
      (s.ctx i).sampleAt ((s.ctx i).wr * clsBlock (s.ctx i).cls + clsBlock (s.ctx i).cls - 1) + 40000 ≤ (s.at t).raw →
      (∀ o, o < 0x8000 → s.memOk (s.ctxArea i + o) = true) → Memory.wf s.mem = true →
      blockWords ((List.range (clsBlock (s.ctx i).cls)).map fun k =>
        s.sampleLost (s.ctx i) ((s.ctx i).wr * clsBlock (s.ctx i).cls + k)) (s.blockOf (s.ctx i) xs) = w →
      ∃ u, exec (.blockWrite t i xs) s = .next u ∧ (u.ctx i).st = .live ∧ (u.ctx i).wr = (s.ctx i).wr + 1 ∧
        (u.ctx i).stopped = (match (s.ctx i).endAt with
          | some e => decide (e ≤ (s.ctx i).wr + 1)
          | none => false) ∧
        cellsRead memZero u.mem (s.ctxArea i + 0x40 + (s.ctx i).wr % 8 * (4 * clsBlock (s.ctx i).cls)) w.length = w ∧
        s.bytesBut u (s.ctxArea i) 0x8000 ∧ Memory.wf u.mem = true) ∧
    ((s.ctx i).lamp < 3 → (s.ctx i).stopped = false → (s.at t).endDue i ≠ some 2 → (s.at t).endDue i ≠ some 3 →
      1024 * 1000000000 < ((s.at t).raw - ((s.ctx i).sampleAt ((s.ctx i).wr * clsBlock (s.ctx i).cls) + 40000)) * 37500 →
      ∃ u, exec (.contextOverrun t i) s = .next u ∧ (u.ctx i).st = .ended ∧ (u.ctx i).endReason = 4 ∧
        (u.ctx i).stopped = true ∧ (u.reg (LENS_CNT_OVERRUN (s.ctx i).lamp)).toNat =
          min 0xFFFFFFFF ((s.reg (LENS_CNT_OVERRUN (s.ctx i).lamp)).toNat + 1)) ∧
    ((s.ctx i).lamp < 3 → (s.ctx i).sync = none →
      symbolsPassed (s.ctx i).cls (s.ctx i).declLt (s.at t).raw (s.rf (LENS_LIMITS (s.ctx i).lamp) 7 0) = true →
      ∃ u, exec (.syncTimeout t i) s = .next u ∧ (u.ctx i).st = .ended ∧ (u.ctx i).endReason = 2 ∧
        (u.ctx i).stopped = true ∧ (u.reg (LENS_CNT_SYNC_TO (s.ctx i).lamp)).toNat =
          min 0xFFFFFFFF ((s.reg (LENS_CNT_SYNC_TO (s.ctx i).lamp)).toNat + 1)) ∧
    (∀ x, (s.ctx i).lamp < 3 → (s.ctx i).sync = some x → (s.ctx i).endAt = none →
      symbolsPassed (s.ctx i).cls ((s.ctx i).capLt + x * 1000000000 / (256 * clsFs (s.ctx i).cls) + 40000) (s.at t).raw
        (s.rf (LENS_LIMITS (s.ctx i).lamp) 15 8) = true →
      ∃ u, exec (.headerTimeout t i) s = .next u ∧ (u.ctx i).st = .ended ∧ (u.ctx i).endReason = 3 ∧
        (u.ctx i).stopped = true ∧ (u.reg (LENS_CNT_HDR_TO (s.ctx i).lamp)).toNat =
          min 0xFFFFFFFF ((s.reg (LENS_CNT_HDR_TO (s.ctx i).lamp)).toNat + 1))

/-- Parts of R142, R143, R146, R147: commands to a live context with its generation, whose argument is LENS_CTX_ARG,
answer OK: SET_END stores the block count, CONSUMED moves the consumer within the written blocks, SET_SYNC stores the
mark and stamps it, SET_MOD stores BT, RELEASE releases, unless an end by Lens is due in the same cycle, which comes
first and makes RELEASE TOO_LATE. A wrong generation is BAD_ARGUMENT, an ended context TOO_LATE, and neither changes a
context; so is a second SET_SYNC, a SET_END of a stopped context, and a CONSUMED outside the written blocks. Parts of
R151: a spectrum that fails the mask of an unpaired lamp, averaged over the baseband of a transmission up to the
present 16-symbol boundary from its 64th symbol on, is counted once, and with STOP ends the transmission. It rests on
the model's choices in assumptions 52, 159. Completes: SET_END, CONSUMED, SET_SYNC, SET_MOD, RELEASE, MASK_CHECK. -/
def Obligations.LensCommands : Prop :=
  (∀ (s : State) (t : Nat) (by_ : Ini) (i : Fin 3072) (gen : BitVec 8), s.opens by_ LENS_CTX_CMD →
    ((s.ctx i).st = .live → (s.ctx i).gen = gen →
      ((s.ctx i).stopped = false → ∃ u, exec (.setEnd t by_ i gen) s = .next u ∧
        (u.ctx i).endAt = some (s.reg LENS_CTX_ARG).toNat ∧ u.latch by_ LENS_CTX_RES = 0 ∧ u.mem = s.mem ∧
        (u.ctx i).stopped = decide ((s.reg LENS_CTX_ARG).toNat ≤ (s.ctx i).wr) ∧ u.regs = s.regs) ∧
      ((s.ctx i).consumed ≤ (s.reg LENS_CTX_ARG).toNat → (s.reg LENS_CTX_ARG).toNat ≤ (s.ctx i).wr →
        ∃ u, exec (.consumed t by_ i gen) s = .next u ∧ (u.ctx i).consumed = (s.reg LENS_CTX_ARG).toNat ∧
          u.latch by_ LENS_CTX_RES = 0 ∧ u.mem = s.mem ∧ u.regs = s.regs) ∧
      ((s.ctx i).sync = none → ∃ u, exec (.setSync t by_ i gen) s = .next u ∧
        (u.ctx i).sync = some (s.reg LENS_CTX_ARG).toNat ∧ u.latch by_ LENS_CTX_RES = 0 ∧
        (u.ctx i).stamp = (s.at t).netOf ((s.ctx i).capLt +
          (roundDiv ((s.reg LENS_CTX_ARG).toNat * 1000000000) (256 * clsFs (s.ctx i).cls)).toNat)) ∧
      (s.rf LENS_CTX_ARG 19 0 ≠ 0 → s.rf LENS_CTX_ARG 30 20 = 0 → ∃ u, exec (.setMod t by_ i gen) s = .next u ∧
        (u.ctx i).bt3 = s.rb LENS_CTX_ARG 31 ∧ u.latch by_ LENS_CTX_RES = 0) ∧
      ((s.at t).endDue i = none → ∃ u, exec (.release t by_ i gen) s = .next u ∧ (u.ctx i).st = .released ∧
        (u.ctx i).endReason = 1 ∧ u.latch by_ LENS_CTX_RES = 0) ∧
      (∀ r, (s.at t).endDue i = some r → ∃ u, exec (.release t by_ i gen) s = .next u ∧ (u.ctx i).st = .ended ∧
        (u.ctx i).endReason = r ∧ u.latch by_ LENS_CTX_RES = BitVec.ofNat 32 Code.tooLate.val) ∧
      ((s.ctx i).stopped = true →
        exec (.setEnd t by_ i gen) s = .next (((s.at t).result by_ LENS_CTX_RES .badArgument).answer by_ .done)) ∧
      ((s.reg LENS_CTX_ARG).toNat < (s.ctx i).consumed ∨ (s.ctx i).wr < (s.reg LENS_CTX_ARG).toNat →
        exec (.consumed t by_ i gen) s = .next (((s.at t).result by_ LENS_CTX_RES .badArgument).answer by_ .done)) ∧
      ((s.ctx i).sync ≠ none →
        exec (.setSync t by_ i gen) s = .next (((s.at t).result by_ LENS_CTX_RES .badArgument).answer by_ .done)) ∧
      (s.rf LENS_CTX_ARG 19 0 = 0 ∨ s.rf LENS_CTX_ARG 30 20 ≠ 0 →
        exec (.setMod t by_ i gen) s = .next (((s.at t).result by_ LENS_CTX_RES .badArgument).answer by_ .done))) ∧
    (∀ c ∈ [Instr.setEnd t by_ i gen, .consumed t by_ i gen, .setSync t by_ i gen, .setMod t by_ i gen,
        .release t by_ i gen],
      ((s.ctx i).gen ≠ gen → exec c s = .next (((s.at t).result by_ LENS_CTX_RES .badArgument).answer by_ .done)) ∧
      ((s.ctx i).gen = gen → (s.ctx i).st = .ended →
        exec c s = .next (((s.at t).result by_ LENS_CTX_RES .tooLate).answer by_ .done)))) ∧
  (∀ (s : State) (t : Nat) (n : Fin 3) (base : List (Int × Int)) (r : TxRun) (k : Nat), s.runs 4 → s.pair.formed = false →
    (s.lamp n).run = some r → (s.lamp n).st = .tx → s.rb (LENS_MASK_CTL n) 7 = true →
    r.maskBad = false → 4 ≤ k → base.length = 256 * k →
    symbolsPassed (imageCls r.img) r.first (s.at t).clk (16 * k) = true →
    symbolsPassed (imageCls r.img) r.first (s.at t).clk (16 * k + 16) = false →
    s.maskFails n (meanSpectrum base) = true →
    ∃ u, exec (.maskCheck t n base) s = .next u ∧ u.mem = s.mem ∧
      (u.reg (LENS_CNT_MASK_FAIL n)).toNat = min 0xFFFFFFFF ((s.reg (LENS_CNT_MASK_FAIL n)).toNat + 1) ∧
      (s.rb (LENS_MASK_CTL n) 8 = false → (u.lamp n).st = .tx ∧ (u.lamp n).run = some { r with maskBad := true }) ∧
      (s.rb (LENS_MASK_CTL n) 8 = true → (s.at t).clk < (s.lamp n).due → (u.lamp n).st = .txToRx ∧ (u.lamp n).run = none))

/-- Parts of R288, R289: a write of a word of a FREE descriptor stores its fields (word 7 is read-only); a write of
any other descriptor changes only CHND_STATUS's write-error bit. Completes: DESCRIPTOR_WRITE. -/
def Obligations.DescriptorWrites : Prop :=
  ∀ (s : State) (t : Nat) (by_ : Ini) (i : Fin 4096) (w : Fin 8) (v : Word), s.opens by_ (CHND_DESC i w) →
    ((s.desc i).st = .free → ∃ u, exec (.descriptorWrite t by_ i w v) s = .next u ∧ (u.desc i).st = .free ∧
      (u.desc i).gen = (s.desc i).gen ∧ (u.desc i).dep = (s.desc i).dep ∧
      (∀ j, j ≠ i.val → u.desc j = s.desc j) ∧ u.regs = s.regs ∧ u.mem = s.mem ∧
      (∀ w' : Nat, w' < 8 → w' ≠ w.val → (u.desc i).word w' = (s.desc i).word w') ∧
      (w = 0 → (u.desc i).list = fld v 19 14 ∧ (u.desc i).entry = fld v 13 0) ∧
      (w = 1 → (u.desc i).thresh = fld v 31 16) ∧
      (w = 2 → (u.desc i).flowEn = bit v 31 ∧ (u.desc i).flow = fld v 30 21 ∧ (u.desc i).succEn = bit v 20 ∧
        (u.desc i).succ = fld v 19 8 ∧ (u.desc i).cost = fld v 7 4 ∧ (u.desc i).notify = bit v 3 ∧
        (u.desc i).nopre = bit v 2 ∧ (u.desc i).drain = bit v 1 ∧ (u.desc i).waitFlag = bit v 0) ∧
      (w = 3 → (u.desc i).bind = bit v 31 ∧ (u.desc i).core = fld v 30 25 ∧ (u.desc i).dlist = fld v 24 22 ∧
        (u.desc i).flag = fld v 21 16) ∧
      (w = 4 → (u.desc i).arg0 = v.setWidth 24) ∧ (w = 5 → (u.desc i).arg1 = v.setWidth 24) ∧
      (w = 6 → (u.desc i).arg2 = v.setWidth 24)) ∧
    (w = 7 → exec (.descriptorWrite t by_ i w v) s = .next ((s.at t).answer by_ .done)) ∧
    (w ≠ 7 → (s.desc i).st ≠ .free →
      exec (.descriptorWrite t by_ i w v) s = .next (((s.at t).setRb CHND_STATUS 31 true).answer by_ .done))

/-- Parts of R290, R291, R303, R306, R309: ARM takes a FREE descriptor that is outside the pools, has a threshold or a
flag and a cost, to IDLE or READY with a new generation; ADVANCE adds credits up to 65,535 and readies an IDLE one
that reaches its threshold; ABORT withdraws the run of its generation and is TOO_LATE for an IDLE one; DELAY delays an
IDLE one and records on a RUNNING one; FREE frees one that is IDLE, READY or DELAYED and no other. Parts of R292,
R303, R308: a flag nobody waits for stays set; one IDLE waiter becomes READY. A due delayed descriptor that entered
its list before this tick wakes to READY. CHND_CTL stores EN while the completion ring lies in shared SRAM or EN is
set already. It rests on the model's choices in assumption 163. Completes: FREE, ARM, ADVANCE, CHND_ABORT, DELAY,
FLAG_SET, DELAY_WAKE, CHANDLER_ENABLE. -/
def Obligations.ChandlerCommands : Prop :=
  (∀ (s : State) (t : Nat) (by_ : Ini) (i : Fin 4096), s.opens by_ CHND_CMD →
    ((s.desc i).st = .free → (s.desc i).thresh ≠ 0 ∨ (s.desc i).waitFlag = true → (s.desc i).cost ≠ 0 →
      s.inPool i = false → ∃ u, exec (.arm t by_ i) s = .next u ∧ (u.desc i).gen = (s.desc i).gen + 1 ∧
        u.latch by_ CHND_RES = 0 ∧ u.mem = s.mem ∧ (u.desc i).sat = false ∧
        ((s.desc i).waitFlag = true → s.chnd.flags.getLsbD (s.desc i).flag = false → (u.desc i).st = .idle) ∧
        ((s.desc i).waitFlag = true → s.chnd.flags.getLsbD (s.desc i).flag = true → (u.desc i).st = .ready ∧
          u.chnd.flags.getLsbD (s.desc i).flag = false ∧ u.readyOf (s.desc i).list = s.readyOf (s.desc i).list ++ [i.val]) ∧
        ((s.desc i).waitFlag = false → (s.desc i).thresh ≤ (s.desc i).dep → (u.desc i).st = .ready) ∧
        ((s.desc i).waitFlag = false → (s.desc i).dep < (s.desc i).thresh → (u.desc i).st = .idle)) ∧
    ((s.desc i).st ≠ .free → s.rf CHND_ARG 15 0 ≠ 0 → ∃ u, exec (.advance t by_ i) s = .next u ∧
      (u.desc i).dep = min 65535 ((s.desc i).dep + s.rf CHND_ARG 15 0) ∧ u.latch by_ CHND_RES = 0 ∧ u.mem = s.mem ∧
      (u.desc i).gen = (s.desc i).gen ∧ ((s.desc i).st ≠ .idle → (u.desc i).st = (s.desc i).st) ∧
      ((s.desc i).st = .idle → (s.desc i).waitFlag = false → (s.desc i).thresh ≤ (u.desc i).dep →
        (u.desc i).st = .ready ∧ u.readyOf (s.desc i).list = s.readyOf (s.desc i).list ++ [i.val]) ∧
      ((s.desc i).st = .idle → (s.desc i).waitFlag = false → (u.desc i).dep < (s.desc i).thresh →
        (u.desc i).st = .idle)) ∧
    ((s.desc i).st ∉ [DescSt.free, .idle] → (s.desc i).held = none →
      (s.desc i).gen = BitVec.ofNat 8 (s.rf CHND_ARG 7 0) → ∃ u, exec (.chndAbort t by_ i) s = .next u ∧
        (u.desc i).gen = (s.desc i).gen + 1 ∧ u.latch by_ CHND_RES = 0 ∧ u.mem = s.mem ∧
        (u.desc i).st ∉ [DescSt.running, .preempted, .retiring]) ∧
    ((s.desc i).st = .idle →
      exec (.chndAbort t by_ i) s = .next (((s.at t).result by_ CHND_RES .tooLate).answer by_ .done)) ∧
    ((s.desc i).st ≠ .free → (s.desc i).gen ≠ BitVec.ofNat 8 (s.rf CHND_ARG 7 0) →
      exec (.chndAbort t by_ i) s = .next (((s.at t).result by_ CHND_RES .tooLate).answer by_ .done)) ∧
    ((s.desc i).st = .idle → s.delayRoom i = true → ∃ u, exec (.delay t by_ i) s = .next u ∧ (u.desc i).st = .delayed ∧
      (u.desc i).wake = (s.reg CHND_ARG).toNat ∧ u.latch by_ CHND_RES = 0 ∧ u.mem = s.mem ∧ u.regs = s.regs) ∧
    ((s.desc i).st = .running → s.delayRoom i = true → ∃ u, exec (.delay t by_ i) s = .next u ∧
      (u.desc i).st = .running ∧ (u.desc i).delayRec = some (s.reg CHND_ARG).toNat ∧ u.latch by_ CHND_RES = 0) ∧
    ((s.desc i).st ∈ [DescSt.running, .preempted, .retiring, .free] →
      exec (.free t by_ i) s = .next (((s.at t).result by_ CHND_RES .badArgument).answer by_ .done)) ∧
    ((s.desc i).st ∈ [DescSt.ready, .delayed] → ∃ u, exec (.free t by_ i) s = .next u ∧ (u.desc i).st = .free ∧
      (u.desc i).dep = 0 ∧ u.latch by_ CHND_RES = 0 ∧ u.mem = s.mem ∧
      ((s.desc i).st = .ready → i.val ∉ u.readyOf (s.desc i).list) ∧
      ((s.desc i).st = .delayed → i.val ∉ tabGet [] u.chnd.delays (s.desc i).dlist)) ∧
    ((s.desc i).st = .idle → ∃ u, exec (.free t by_ i) s = .next u ∧ (u.desc i).st = .free ∧ (u.desc i).dep = 0 ∧
      u.latch by_ CHND_RES = 0 ∧ u.mem = s.mem ∧ u.regs = s.regs)) ∧
  (∀ (s : State) (t : Nat), s.runs 16 →
    (∀ (by_ : Ini) (f : Fin 64), s.opens by_ CHND_FLAG_SET → (∀ e ∈ s.chnd.descs, ¬(e.2.st = .idle ∧ e.2.waitFlag = true ∧ e.2.flag = f.val)) →
      ∃ u, exec (.flagSet t by_ f) s = .next u ∧ u.chnd.flags = s.chnd.flags ||| (1#64 <<< f.val) ∧
        u.chnd.descs = s.chnd.descs ∧ u.regs = s.regs ∧ u.mem = s.mem) ∧
    (∀ (by_ : Ini) (f : Fin 64) (i : Nat) (d : Desc), s.opens by_ CHND_FLAG_SET → s.chnd.descs = [(i, d)] → d.st = .idle → d.waitFlag = true →
      d.flag = f.val → ∃ u, exec (.flagSet t by_ f) s = .next u ∧ u.chnd.flags = s.chnd.flags ∧
        (u.desc i).st = .ready ∧ (u.desc i).readyBy = .flag ∧ u.readyOf d.list = s.readyOf d.list ++ [i] ∧
        u.mem = s.mem) ∧
    (∀ (l : Fin 8) (i : Nat), tabGet [] s.chnd.delays l = [i] → (∀ m, m ≠ l.val → tabGet [] s.chnd.delays m = []) →
      (s.desc i).dlist = l.val → (s.at t).tickDue (s.desc i).wake = true → (s.at t).raw / 1000 ≠ s.chnd.worked →
      (s.desc i).since < (s.at t).raw / 1000 →
      ∃ u, exec (.delayWake t) s = .next u ∧ (u.desc i).st = .ready ∧ (u.desc i).readyBy = .delay ∧
        tabGet [] u.chnd.delays l = [] ∧ u.readyOf (s.desc i).list = s.readyOf (s.desc i).list ++ [i] ∧ u.mem = s.mem) ∧
    (∀ (by_ : Ini) (v : Word), s.opens by_ CHND_CTL → s.cplInSram = true ∨ s.rb CHND_CTL 0 = true → ∃ u, exec (.chandlerEnable t by_ v) s = .next u ∧
      u.rb CHND_CTL 0 = bit v 0 ∧ u.rf CHND_CTL 2 1 = fld v 2 1 ∧ (∀ a, a ≠ CHND_CTL → u.reg a = s.reg a) ∧
      u.mem = s.mem ∧ u.chnd = s.chnd))

/-- Parts of R296, R298 to R301, R307: a dispatch offers the waiting cores in order and starts the chosen task at its
entry on a waiting core; a pre-emption saves the victim into its level's frame and starts the task of higher level; a
resume restores the task pre-empted last; a held completion is released once every lower number of its flow is done.
It rests on the model's choices in assumptions 54, 164. Completes: DISPATCH, PREEMPTION, RESUME, ORDERED_RELEASE. -/
def Obligations.ChandlerDispatch : Prop :=
  ∀ (s : State) (t : Nat), s.runs 16 →
    (∀ (k i : Nat) (q : State), s.rb CHND_CTL 0 = true → (s.at t).offerCores ((List.range 64).filter s.coreWaits) = (q, some (k, i)) →
      ∃ u dst, exec (.dispatch t) s = .next u ∧ (u.core dst).task = some i ∧ (u.core dst).pc = (s.desc i).entry ∧
        (u.core dst).wait = none ∧ (u.core dst).running = true ∧ (u.desc i).st = .running ∧ (u.desc i).lastCore = dst ∧
        (u.core dst).dmem = (s.core dst).dmem ∧ i ∉ u.readyOf (s.desc i).list ∧ u.mem = s.mem) ∧
    (∀ q : State, s.rb CHND_CTL 0 = true → (s.at t).offerCores ((List.range 64).filter s.coreWaits) = (q, none) →
      exec (.dispatch t) s = .next q) ∧
    (∀ i k v : Nat, s.rb CHND_CTL 0 = true → s.rb CHND_CTL 2 = true → s.preemptor = some i → s.victim i = some k →
      (s.core k).task = some v → ∃ u f, exec (.preemption t) s = .next u ∧ (u.core k).task = some i ∧
        (u.core k).pc = (s.desc i).entry ∧ (u.desc i).st = .running ∧ (u.core k).frames = f :: (s.core k).frames ∧
        f.desc = v ∧ f.level = s.levelOf v ∧ (u.desc v).st ∈ [DescSt.preempted, .retiring] ∧ u.mem = s.mem) ∧
    (∀ (k : Fin 64) (f : Frame), (s.core k).frames.head? = some f → s.coreWaits k = true →
      s.rb CHND_CTL 0 = false ∨ s.anyFor k = false → ∃ u, exec (.resume t k) s = .next u ∧
        (u.core k).task = some f.desc ∧ (u.core k).wait = none ∧ (u.core k).frames = (s.core k).frames.drop 1 ∧
        (u.desc f.desc).st ∈ [DescSt.running, .retiring] ∧ u.regs = s.regs ∧ u.mem = s.mem) ∧
    (∀ (i : Fin 4096) (c : Code × Nat × Nat), (s.desc i).held = some c → s.seqFirst i = true →
      ∃ u, exec (.orderedRelease t i) s = .next u ∧ (u.desc i).held = none ∧ (u.desc i).gen = (s.desc i).gen)

/-- Parts of R173 to R176: a job submitted while EN is 1 and the queue has room joins the queue; while the queue is
full or an earlier write is held, the fabric holds the write and its writer gets no answer. While EN is 0 the job
completes with REFUSED, and one of an unlisted KIND with BAD_ARGUMENT, in byte 0x23 of its descriptor. A dispatch
takes the head job of the order of classes to its lane. An abort withdraws a queued or running job with OK, with OUT
left undefined; with no job it is TOO_LATE. It rests on the model's choices in assumptions 63, 152. Completes:
MANT_SUBMIT, MANT_JOB_DISPATCH, MANT_ABORT. -/
def Obligations.MantleJobs : Prop :=
  ∀ (s : State) (t : Nat),
    (∀ (by_ : Ini) (v : Word) (j : MJob), s.opens by_ MANT_SUBMIT → (s.at t).readJob (fld v 29 0 * 64) = some j →
      (s.rb MANT_CTL 0 = true → s.mant.waiting = [] → s.mant.queue.length < 512 → j.kind ≤ 3 →
        ∃ u, exec (.mantSubmit t by_ v) s = .next u ∧ u.mant.queue = s.mant.queue ++ [j] ∧ u.mant.run = s.mant.run ∧
          u.mem = s.mem ∧ tabGet .none u.resp (iniIdx by_) = .done) ∧
      (s.rb MANT_CTL 0 = true → (512 ≤ s.mant.queue.length ∨ s.mant.waiting ≠ []) →
        ∃ u, exec (.mantSubmit t by_ v) s = .next u ∧
          u.mant = { s.mant with waiting := s.mant.waiting ++ [(iniIdx by_, fld v 29 0 * 64, (s.at t).clk)] } ∧
          u.mem = s.mem ∧ u.regs = s.regs ∧ tabGet .none u.resp (iniIdx by_) = .held) ∧
      (Memory.wf s.mem = true → s.memOk (j.addr + 0x20) = true → s.memOk (j.addr + 0x27) = true →
        (s.rb MANT_CTL 0 = false → ∃ u, exec (.mantSubmit t by_ v) s = .next u ∧ u.mant.queue = s.mant.queue ∧
          u.mant.run = s.mant.run ∧ u.byte (j.addr + 0x23) = 10 ∧ s.bytesBut u (j.addr + 0x20) 8) ∧
        (s.rb MANT_CTL 0 = true → s.mant.waiting = [] → s.mant.queue.length < 512 → 3 < j.kind →
          ∃ u, exec (.mantSubmit t by_ v) s = .next u ∧ u.mant = s.mant ∧ u.byte (j.addr + 0x23) = 11 ∧
            s.bytesBut u (j.addr + 0x20) 8))) ∧
    (∀ (j : MJob) (l : Nat), s.runs 14 → s.nextJob = some (j, l) → s.mant.waiting = [] →
      exec (.mantJobDispatch t) s = .next { s.at t with mant := { s.mant with
        queue := s.mant.queue.erase j, run := s.mant.run ++ [{ j with lane := some l }] } }) ∧
    (∀ (by_ : Ini) (v : Word), s.opens by_ MANT_ABORT →
      (∀ j, (s.mant.run ++ s.mant.queue).find? (fun j => j.addr == fld v 29 0 * 64) = some j → s.mant.waiting = [] →
        ∃ u, exec (.mantAbort t by_ v) s = .next u ∧ u.latch by_ MANT_ABORT_RES = 0 ∧ u.mant.run = s.mant.run.erase j ∧
          (j.lane ≠ none → u.mant.queue = s.mant.queue) ∧
          (j.lane = none → u.mant.queue = s.mant.queue.filter (fun j => j.addr != fld v 29 0 * 64)) ∧
          s.bytesBut u j.outA j.outLen ∧ u.regs = s.regs) ∧
      ((∀ j ∈ s.mant.queue ++ s.mant.run, j.addr ≠ fld v 29 0 * 64) →
        exec (.mantAbort t by_ v) s = .next (((s.at t).result by_ MANT_ABORT_RES .tooLate).answer by_ .done)))

/-- Parts of R163, R174, R175: a header decode reports its word; one whose syndrome and CRC-6 hold and whose fields
are acceptable counts HDR_OK, one with unacceptable fields HDR_VER with the code of R163, one that fails the syndrome
or the CRC HDR_FAIL. The job leaves its lane, and outside its OUT and words 0x20 and 0x24 memory stays. MAXIT 0 is
BAD_ARGUMENT. Parts of R163, R171, R181: a payload decode tries the first copies bound to its frame in order and then
its own LLRs. One that decodes counts CW_OK and gives its bytes to the Lantern hardware, which begins the frame; one
that does not counts CW_FAIL. Both report OK and leave the lane. A codeword index behind NCW, and a header that R163
turns away, are not decoded. Parts of R174, R177: an encode writes the coded bits of its header, with its CRC-6, or of
its payload bytes, reports OK and leaves its encoder; a header encode of unacceptable fields writes nothing and
reports its code, and every header encode reports its word. Apart from the output and words 0x20 and 0x24 of the
descriptor memory stays. It rests on the model's choices in assumptions 65, 150, 152. Completes: DEC_HDR, DEC_PAY,
ENC_HDR, ENC_PAY. -/
def Obligations.MantleResults : Prop :=
  (∀ (s : State) (t a : Nat) (j : MJob), s.runs 14 → Memory.wf s.mem = true →
    s.memOk (j.addr + 0x20) = true → s.memOk (j.addr + 0x27) = true →
    s.mant.run.find? (fun j => j.addr == a && j.kind == 0) = some j →
    (j.maxit = 0 → ∃ u, exec (.decHdr t a) s = .next u ∧ j ∉ u.mant.run ∧ u.byte (j.addr + 0x23) = 11 ∧
      s.bytesBut u (j.addr + 0x20) 8) ∧
    (∀ bs w, j.maxit ≠ 0 → s.load j.inA 96 = some bs →
      w = BitVec.ofNat 32 (beNat (bytesOf
        (hdrCode.decode (bs.map llrOf) (min 32 (min j.maxit (s.rf MANT_CTL 13 8)))).bits)) →
      ∀ ok, ok = ((hdrCode.decode (bs.map llrOf) (min 32 (min j.maxit (s.rf MANT_CTL 13 8)))).unsat == 0 &&
        fld w 5 0 == crc6 w) →
      ∃ u, exec (.decHdr t a) s = .next u ∧ j ∉ u.mant.run ∧
        cellsRead memZero u.mem (j.addr + 0x24) 4 = leBytes 4 w.toNat ∧
        (∀ b, (b < j.outA ∨ j.outA + 4 ≤ b) → (b < j.addr + 0x20 ∨ j.addr + 0x28 ≤ b) → u.byte b = s.byte b) ∧
        (ok = true → hdrBad w = none → u.byte (j.addr + 0x23) = 0 ∧
          (u.reg MANT_CNT_HDR_OK).toNat = min 0xFFFFFFFF ((s.reg MANT_CNT_HDR_OK).toNat + 1)) ∧
        (∀ c, ok = true → hdrBad w = some c → u.byte (j.addr + 0x23) = BitVec.ofNat 8 c.val ∧
          (u.reg MANT_CNT_HDR_VER).toNat = min 0xFFFFFFFF ((s.reg MANT_CNT_HDR_VER).toNat + 1)) ∧
        (ok = false → u.byte (j.addr + 0x23) = 0 ∧
          (u.reg MANT_CNT_HDR_FAIL).toNat = min 0xFFFFFFFF ((s.reg MANT_CNT_HDR_FAIL).toNat + 1)))) ∧
  (∀ (s : State) (t a : Nat) (j : MJob), s.runs 14 → Memory.wf s.mem = true → s.lanesStall = false →
    s.memOk (j.addr + 0x20) = true → s.memOk (j.addr + 0x27) = true →
    s.mant.run.find? (fun j => j.addr == a && j.kind == 1) = some j →
    (∀ bs p, j.maxit ≠ 0 → j.cwidx < hdrNcw j.hdr → hdrBad j.hdr = none → s.load j.inA (hdrPay j.hdr).n = some bs →
      p = (s.payTry (hdrPay j.hdr) j.cwidx (bs.map llrOf) (min 32 (min j.maxit (s.rf MANT_CTL 13 8)))
        (s.boundTo j.ctx j.syncLt)).2 →
      ∃ u, exec (.decPay t a) s = .next u ∧ j ∉ u.mant.run ∧ u.byte (j.addr + 0x23) = 0 ∧
        (p.ok = true → (u.reg MANT_CNT_CW_OK).toNat = min 0xFFFFFFFF ((s.reg MANT_CNT_CW_OK).toNat + 1)) ∧
        (p.ok = false → (u.reg MANT_CNT_CW_FAIL).toNat = min 0xFFFFFFFF ((s.reg MANT_CNT_CW_FAIL).toNat + 1)) ∧
        (p.ok = true → s.rxFrame j.ctx = none → s.lant.dead.lookup j.ctx ≠ some j.syncLt → ∃ f,
          u.rxFrame j.ctx = some f ∧ f.cws.lookup j.cwidx = some p.bytes ∧ f.syncLt = j.syncLt ∧ f.hdr = j.hdr)) ∧
    (j.maxit = 0 ∨ hdrNcw j.hdr ≤ j.cwidx → ∃ u, exec (.decPay t a) s = .next u ∧ j ∉ u.mant.run ∧
      u.byte (j.addr + 0x23) = 11 ∧ u.lant = s.lant ∧ s.bytesBut u (j.addr + 0x20) 8) ∧
    (∀ c, j.maxit ≠ 0 → j.cwidx < hdrNcw j.hdr → hdrBad j.hdr = some c → ∃ u, exec (.decPay t a) s = .next u ∧
      j ∉ u.mant.run ∧ u.byte (j.addr + 0x23) = BitVec.ofNat 8 c.val ∧ u.lant = s.lant ∧ s.bytesBut u (j.addr + 0x20) 8)) ∧
  (∀ (s : State) (t a : Nat) (j : MJob), s.runs 14 → Memory.wf s.mem = true →
    s.memOk (j.addr + 0x20) = true → s.memOk (j.addr + 0x27) = true →
    (∀ c, s.mant.run.find? (fun j => j.addr == a && j.kind == 2) = some j → hdrBad j.hdr = some c →
      ∃ u, exec (.encHdr t a) s = .next u ∧ j ∉ u.mant.run ∧ u.byte (j.addr + 0x23) = BitVec.ofNat 8 c.val ∧
        cellsRead memZero u.mem (j.addr + 0x24) 4 = leBytes 4 (hdrWithCrc j.hdr).toNat ∧
        s.bytesBut u (j.addr + 0x20) 8) ∧
    (s.memOk j.outA = true → s.memOk (j.outA + 11) = true →
      s.mant.run.find? (fun j => j.addr == a && j.kind == 2) = some j →
      hdrBad j.hdr = none → (j.outA + 12 ≤ j.addr + 0x20 ∨ j.addr + 0x28 ≤ j.outA) →
      ∃ u, exec (.encHdr t a) s = .next u ∧ j ∉ u.mant.run ∧ u.byte (j.addr + 0x23) = 0 ∧
        cellsRead memZero u.mem (j.addr + 0x24) 4 = leBytes 4 (hdrWithCrc j.hdr).toNat ∧
        cellsRead memZero u.mem j.outA 12 =
          bytesOf (hdrCode.encode (bitsOf (beBytes 4 (hdrWithCrc j.hdr).toNat))).toList ∧
        (∀ b, (b < j.outA ∨ j.outA + 12 ≤ b) → (b < j.addr + 0x20 ∨ j.addr + 0x28 ≤ b) → u.byte b = s.byte b)) ∧
    (∀ bs c, c = payCode (fld j.w0 27 26) (fld j.w0 25 24) → s.memOk j.outA = true →
      s.memOk (j.outA + (c.n / 8 - 1)) = true →
      s.mant.run.find? (fun j => j.addr == a && j.kind == 3) = some j → s.load j.inA (c.k / 8) = some bs →
      (j.outA + c.n / 8 ≤ j.addr + 0x20 ∨ j.addr + 0x28 ≤ j.outA) →
      ∃ u, exec (.encPay t a) s = .next u ∧ j ∉ u.mant.run ∧ u.byte (j.addr + 0x23) = 0 ∧
        cellsRead memZero u.mem j.outA (c.n / 8) = bytesOf (c.encode (bitsOf bs)).toList ∧
        (∀ b, (b < j.outA ∨ j.outA + c.n / 8 ≤ b) → (b < j.addr + 0x20 ∨ j.addr + 0x28 ≤ b) → u.byte b = s.byte b)))

/-- Parts of R178, R179, R185, R188: roles end at their times: the hold 2 ms after t0 on the importer's network time,
the unbound first copy after WINDOW, and an entry with every role over closes; an entry whose first-copy role runs on
stays. Exports not handed on in time are dropped, one count each. A write of MANT_PAIR_CTL or MANT_EXP_CTL that does
not set an enable of a store outside the ranks in service is taken with its fields held in their ranges; one that does
is ignored. Parts of R185, R186: an import whose stamp meets the one held entry of its header in time, and that
recovers every codeword, closes the entry and fills the next slot of the import ring, beginning with the header word;
nothing outside the slot changes in memory. One of another version or with no entry is dropped and counted, and one
that leaves a codeword missing is counted as failed; neither changes the store. It rests on the model's choices in
assumptions 62, 66, 150, 151. Completes: STORE_ENTRY_EXPIRY, EXP_LATE, MANT_PAIR_ENABLE, IMPORT. -/
def Obligations.SoftStore : Prop :=
  (∀ (s : State) (t : Nat),
    (∀ (k : Fin 4096) (e : SoftEntry), s.runs 14 → s.entryAt k = some e →
      (e.bound = none → (s.at t).passed (e.t0 + BitVec.ofNat 32 (s.rf MANT_PAIR_CTL 14 0 * 1000 + 81000000)) = true →
        e.stamp + bodyNs e.hdr e.mod4 e.cls + 2000000 < (s.at t).now → e.exp = false ∨ e.built = false →
        ∃ u, exec (.storeEntryExpiry t k) s = .next u ∧ u.entryAt k = none ∧ u.regs = s.regs ∧ u.mem = s.mem) ∧
      ((s.at t).passed (e.t0 + BitVec.ofNat 32 (s.rf MANT_PAIR_CTL 14 0 * 1000 + 81000000)) = false →
        e.unbound = true → e.whole = false → ∃ u e', exec (.storeEntryExpiry t k) s = .next u ∧
          u.entryAt k = some e' ∧ e'.unbound = true ∧ e'.cws = e.cws ∧
          e'.hold = (e.hold && !decide (e.stamp + bodyNs e.hdr e.mod4 e.cls + 2000000 < (s.at t).now)) ∧
          u.regs = s.regs ∧ u.mem = s.mem)) ∧
    (s.runs 14 → ∃ u, exec (.expLate t) s = .next u ∧ u.mem = s.mem ∧
      u.mant.exports = s.mant.exports.filter (fun x =>
        (s.at t).now ≤ x.t0 + (2000000 - s.rf MANT_EXP_CTL 29 20 * 1000 : Nat)) ∧
      (u.reg MANT_CNT_EXP_LATE).toNat = min 0xFFFFFFFF ((s.reg MANT_CNT_EXP_LATE).toNat +
        (s.mant.exports.filter (fun x => x.t0 + (2000000 - s.rf MANT_EXP_CTL 29 20 * 1000 : Nat) < (s.at t).now)).length)) ∧
    (∀ (by_ : Ini) (v : Word), s.opens by_ MANT_PAIR_CTL →
      (s.storeBars MANT_PAIR_CTL 31 v = false → ∃ u, exec (.mantPairEnable t by_ false v) s = .next u ∧
        u.rb MANT_PAIR_CTL 31 = bit v 31 ∧ u.rf MANT_PAIR_CTL 27 24 = max 1 (min 4 (fld v 27 24)) ∧
        u.rf MANT_PAIR_CTL 14 0 = max 1000 (min 20000 (fld v 14 0)) ∧ u.mem = s.mem ∧
        (∀ a, a ≠ MANT_PAIR_CTL → u.reg a = s.reg a)) ∧
      (s.storeOk = false → bit v 31 = true → s.rb MANT_PAIR_CTL 31 = false →
        exec (.mantPairEnable t by_ false v) s = .next ((s.at t).answer by_ .done))) ∧
    (∀ (by_ : Ini) (v : Word), s.opens by_ MANT_EXP_CTL →
      (s.storeBars MANT_EXP_CTL 31 v = false → s.storeBars MANT_EXP_CTL 30 v = false →
        ∃ u, exec (.mantPairEnable t by_ true v) s = .next u ∧
        u.rb MANT_EXP_CTL 31 = bit v 31 ∧ u.rb MANT_EXP_CTL 30 = bit v 30 ∧
        u.rf MANT_EXP_CTL 29 20 = min 1000 (fld v 29 20) ∧ u.rf MANT_EXP_CTL 11 8 = min 5 (fld v 11 8) ∧
        u.rf MANT_EXP_CTL 7 0 = fld v 7 0 ∧ u.mem = s.mem ∧ (∀ a, a ≠ MANT_EXP_CTL → u.reg a = s.reg a)) ∧
      (s.storeOk = false → (bit v 31 = true ∧ s.rb MANT_EXP_CTL 31 = false) ∨
          (bit v 30 = true ∧ s.rb MANT_EXP_CTL 30 = false) →
        exec (.mantPairEnable t by_ true v) s = .next ((s.at t).answer by_ .done)))) ∧
  (∀ (s : State) (t : Nat) (body : List Byte), s.runs 14 → s.rb MANT_EXP_CTL 30 = true →
    (leNat (body.take 4) / 2 ^ 24 ≠ 1 ∨ (∀ x ∈ s.mant.store, x.2.hold = true →
        x.2.hdr.toNat ≠ leNat ((body.drop 4).take 4)) → ∃ u, exec (.importBody t body) s = .next u ∧
      u.mant = s.mant ∧ u.mem = s.mem ∧ u.lant = s.lant ∧
      (u.reg MANT_CNT_IMP_DROP).toNat = min 0xFFFFFFFF ((s.reg MANT_CNT_IMP_DROP).toNat + 1)) ∧
    (∀ (k : Nat) (e : SoftEntry) cws, leNat (body.take 4) / 2 ^ 24 = 1 → (k, e) ∈ s.mant.store → e.hold = true →
      (∀ x ∈ s.mant.store, x.2.hold = true → x = (k, e)) → e.hdr.toNat = leNat ((body.drop 4).take 4) →
      (s.at t).now ≤ e.stamp + bodyNs e.hdr e.mod4 e.cls + 2000000 →
      (e.stamp - ((leNat ((body.drop 16).take 4) % 65536 * 2 ^ 32 + leNat ((body.drop 12).take 4)) * 1000000000
        + leNat ((body.drop 8).take 4) : Nat)).natAbs ≤ s.rf MANT_EXP_CTL 7 0 * 1000 →
      cws = importCws e (min 32 (s.rf MANT_CTL 13 8)) (leNat ((body.drop 16).take 4) / 2 ^ 20 % 16)
        (leNat ((body.drop 20).take 4)) (leNat ((body.drop 24).take 4)) (List.range (hdrNcw e.hdr)) (body.drop 0x20) →
      (none ∈ cws → ∃ u, exec (.importBody t body) s = .next u ∧ u.mant = s.mant ∧ u.mem = s.mem ∧
        (u.reg MANT_CNT_IMP_FAIL).toNat = min 0xFFFFFFFF ((s.reg MANT_CNT_IMP_FAIL).toNat + 1)) ∧
      (none ∉ cws → Memory.wf s.mem = true → (∀ c ∈ e.cws, ∀ b, c.2 = .bits b → b.length ≤ 256) →
        (s.rf MANT_IMP_IDX 21 16 + 1) % 64 ≠ s.rf MANT_IMP_IDX 5 0 →
        (∀ o, o < 0x8000 → s.memOk (s.impRing + s.rf MANT_IMP_IDX 21 16 * 0x8000 + o) = true) →
        ∃ u, exec (.importBody t body) s = .next u ∧ u.entryAt k = none ∧
          u.rf MANT_IMP_IDX 21 16 = (s.rf MANT_IMP_IDX 21 16 + 1) % 64 ∧
          cellsRead memZero u.mem (s.impRing + s.rf MANT_IMP_IDX 21 16 * 0x8000) 4 = leBytes 4 e.hdr.toNat ∧
          s.bytesBut u (s.impRing + s.rf MANT_IMP_IDX 21 16 * 0x8000) 0x8000 ∧
          (u.reg MANT_CNT_IMP_OK).toNat = min 0xFFFFFFFF ((s.reg MANT_CNT_IMP_OK).toNat + 1))))

/-- Parts of R167 to R169: the coded word of every header and payload code begins with its information bits, has the
code's length and leaves no check unsatisfied. -/
def Obligations.CodewordsSatisfyChecks : Prop :=
  (∀ info : List Bool, info.length = 32 → (hdrCode.encode info).size = 96 ∧
    (hdrCode.encode info).toList.take 32 = info ∧ hdrCode.unsat (hdrCode.encode info) = 0) ∧
  (∀ (ksize rate : Nat) (info : List Bool), ksize < 4 → rate < 4 → info.length = (payCode ksize rate).k →
    ((payCode ksize rate).encode info).size = (payCode ksize rate).n ∧
    ((payCode ksize rate).encode info).toList.take (payCode ksize rate).k = info ∧
    (payCode ksize rate).unsat ((payCode ksize rate).encode info) = 0)

/-- Parts of R161, R162: a header word completed with its CRC-6 keeps its other fields, passes its own check, and
completing it again changes nothing; bytes survive the unpacking into bits and back (R160). -/
def Obligations.HeaderCrc : Prop :=
  (∀ w : Word, fld (hdrWithCrc w) 5 0 = crc6 (hdrWithCrc w) ∧ fld (hdrWithCrc w) 31 6 = fld w 31 6 ∧
    hdrWithCrc (hdrWithCrc w) = hdrWithCrc w) ∧
  (∀ bs : List Byte, bytesOf (bitsOf bs) = bs)

/-- Parts of R193, R195, R198, R199, R211: commands on an entry that can be fetched. UPDATE copies firmware's fields
into an active one; READ fills the buffer; REMOVE retires an active one with an empty queue; PURGE frees a retired
one; ENQUEUE makes a good message the only one of an empty queue and the tail of another; DEQUEUE takes the head and
names its slot. NBR_RES holds the index and OK. In a state that it does not take, a command answers BAD_ARGUMENT,
DEQUEUE NO_BUFFER, and the entry stays. Parts of R197, R198: LOAD and EXPORT begin with IN_STEPS, or are refused while
one runs; EN is taken when the three areas lie in ranks in service, and GAIN is held at 12. It rests on the model's
choices in assumptions 81, 84. Completes: UPDATE, NBR_READ, REMOVE, PURGE, ENQUEUE, DEQUEUE, NBR_LOAD, NBR_EXPORT,
NBR_ENABLE. -/
def Obligations.NeighbourEntries : Prop :=
  (∀ (s : State) (t : Nat) (by_ : Ini) (i : BitVec 18) (q : State) (e : List Word), s.opens by_ NBR_CMD → e.length = 16 →
    (s.at t).nbrFetch i.toNat = (q, some e) →
    (eActive e = true → ∃ u, exec (.update t by_ i) s = .next u ∧
      (u.nbrFetch i.toNat).2 = some (updateEntry e s.nbrBuf) ∧ u.latch by_ NBR_RES = BitVec.ofNat 32 (i.toNat * 256) ∧
      u.mem = q.mem) ∧
    (eState e ≠ 0 → ∃ u, exec (.nbrRead t by_ i) s = .next u ∧ (∀ w : Fin 16, u.reg (NBR_BUF w) = eWord e w) ∧
      u.latch by_ NBR_RES = BitVec.ofNat 32 (i.toNat * 256) ∧ u.mem = q.mem ∧ u.lant = q.lant) ∧
    (eActive e = true → eHead e = 0xFFFF → ∃ u e', exec (.remove t by_ i) s = .next u ∧
      (u.nbrFetch i.toNat).2 = some e' ∧ eState e' = 2 ∧ (∀ w, w ≠ 1 → w ≠ 14 → eWord e' w = eWord e w) ∧
      u.latch by_ NBR_RES = BitVec.ofNat 32 (i.toNat * 256) ∧ u.mem = q.mem) ∧
    (eState e = 2 → ∃ u e', exec (.purge t by_ i) s = .next u ∧ (u.nbrFetch i.toNat).2 = some e' ∧ eState e' = 0 ∧
      (∀ w, w ≠ 1 → eWord e' w = eWord e w) ∧ q.bytesBut u q.nbrDir 0x400000 ∧
      u.latch by_ NBR_RES = BitVec.ofNat 32 (i.toNat * 256)) ∧
    (∀ (k : Nat) (m : List Byte), k = s.rf (NBR_BUF 0) 15 0 → k ≠ 0xFFFF → eActive e = true →
      q.load (q.msgAt k) 16 = some m → eFld (wordsOf m) 0 7 0 ≠ 0 → 1 ≤ eFld (wordsOf m) 1 15 0 →
      eFld (wordsOf m) 1 15 0 ≤ 240 → ∃ u e', exec (.enqueue t by_ i) s = .next u ∧
        (u.nbrFetch i.toNat).2 = some e' ∧ eHead e' = (if eHead e = 0xFFFF then k else eHead e) ∧ eTail e' = k ∧
        (∀ w, w ≠ 14 → eWord e' w = eWord e w) ∧ u.latch by_ NBR_RES = BitVec.ofNat 32 (i.toNat * 256) ∧
        (∀ b, (b < q.msgAt k ∨ q.msgAt k + 4 ≤ b) →
          (eHead e = 0xFFFF ∨ b < q.msgAt (eTail e) + 2 ∨ q.msgAt (eTail e) + 4 ≤ b) → u.byte b = q.byte b)) ∧
    (∀ (k : Nat) (m : List Word), eActive e = true → q.msgHead e = some (k, some m) →
      ∃ u, exec (.dequeue t by_ i) s = .next u ∧ (u.nbrFetch i.toNat).2 = some (popMsg e m) ∧
        u.latch by_ NBR_RES = BitVec.ofNat 32 (k % 2 ^ 18 * 256) ∧ u.mem = q.mem) ∧
    (∀ c ∈ [(Instr.update t by_ i, eActive e), (.nbrRead t by_ i, eState e != 0), (.remove t by_ i, eActive e),
        (.purge t by_ i, eState e == 2), (.enqueue t by_ i, eActive e)], c.2 = false → ∃ u, exec c.1 s = .next u ∧
      (u.nbrFetch i.toNat).2 = some e ∧ u.latch by_ NBR_RES = BitVec.ofNat 32 (i.toNat * 256 + 11) ∧ u.mem = q.mem ∧
      u.regs = q.regs) ∧
    (eActive e = false ∨ eHead e = 0xFFFF → ∃ u, exec (.dequeue t by_ i) s = .next u ∧
      (u.nbrFetch i.toNat).2 = some e ∧ u.latch by_ NBR_RES = BitVec.ofNat 32 (i.toNat * 256 + 6) ∧ u.mem = q.mem ∧
      u.regs = q.regs)) ∧
  (∀ (s : State) (t : Nat) (by_ : Ini),
    (s.opens by_ NBR_CMD → s.lant.op = none → ∃ u, exec (.nbrLoad t by_) s = .next u ∧ u.latch by_ NBR_RES = 8 ∧
      u.mem = s.mem ∧ u.regs = s.regs ∧ u.lant.op = some ⟨true, s.rb NBR_ARG 31, s.rf NBR_ARG 23 0, s.nbrBufAddr,
        (s.reg (NBR_BUF 2)).toNat, 0, 0, iniIdx by_⟩) ∧
    (s.opens by_ NBR_CMD → s.lant.op = none → ∃ u, exec (.nbrExport t by_) s = .next u ∧ u.latch by_ NBR_RES = 8 ∧
      u.mem = s.mem ∧ u.regs = s.regs ∧ u.lant.op = some { load := false, addr := s.nbrBufAddr, by_ := iniIdx by_ }) ∧
    (s.opens by_ NBR_CMD → s.lant.op ≠ none → ∀ c ∈ [Instr.nbrLoad t by_, .nbrExport t by_], ∃ u,
      exec c s = .next u ∧ u.lant = s.lant ∧ u.latch by_ NBR_RES = 10 ∧ u.mem = s.mem ∧ u.regs = s.regs) ∧
    (∀ v : Word, s.opens by_ NBR_CTL → ∃ u, exec (.nbrEnable t by_ v) s = .next u ∧
      u.rb NBR_CTL 31 = (bit v 31 && (s.nbrAreasOk || s.rb NBR_CTL 31)) ∧
      u.rf NBR_CTL 27 24 = min 12 (fld v 27 24) ∧ u.rf NBR_CTL 23 0 = fld v 23 0 ∧ u.mem = s.mem ∧ u.lant = s.lant ∧
      (∀ a, a ≠ NBR_CTL → u.reg a = s.reg a)))

/-- Parts of R193, R194, R198, R199: REGISTER of a new DEVID takes the lowest free index, stores the buffer's entry
with ACK_VALID, DL_OUT, UPD, the queue and the reserved bits cleared, and from then on the directory finds it there. A
reserved DEVID and a buffer that is not active are BAD_ARGUMENT. It rests on the model's choices in assumption 81.
Completes: REGISTER. -/
def Obligations.NeighbourRegister : Prop :=
  ∀ (s : State) (t : Nat) (by_ : Ini), s.opens by_ NBR_CMD →
    (∀ (i : Nat) (q r : State) (e : List Word), Memory.wf q.mem = true →
      eState s.nbrBuf = 1 → devidBad (s.reg (NBR_BUF 0)).toNat = false → s.dirFind (s.reg (NBR_BUF 0)).toNat = some none →
      s.firstFree 262144 0 = some i → (s.at t).nbrFetch i = (q, some e) →
      q.dirFind (s.reg (NBR_BUF 0)).toNat = some none → q.dirInsert (s.reg (NBR_BUF 0)).toNat i = some r →
      ∃ u e', exec (.register t by_) s = .next u ∧ u.latch by_ NBR_RES = BitVec.ofNat 32 (i % 2 ^ 18 * 256) ∧
        (u.nbrFetch i).2 = some e' ∧ eActive e' = true ∧ eHead e' = 0xFFFF ∧ eTail e' = 0xFFFF ∧ eBit e' 1 27 = false ∧
        eBit e' 1 25 = false ∧ eBit e' 1 24 = false ∧ eFld e' 1 23 20 = 0 ∧ eFld e' 1 19 0 = s.rf (NBR_BUF 1) 19 0 ∧
        eFld e' 13 7 0 = 0 ∧ eFld e' 13 31 8 = s.rf (NBR_BUF 13) 31 8 ∧
        (∀ w, w < 16 → w ≠ 1 → w ≠ 13 → w ≠ 14 → eWord e' w = s.reg (NBR_BUF w)) ∧
        u.dirFind (s.reg (NBR_BUF 0)).toNat = some (some i)) ∧
    (eState s.nbrBuf ≠ 1 ∨ devidBad (s.reg (NBR_BUF 0)).toNat = true → ∃ u, exec (.register t by_) s = .next u ∧
      u.latch by_ NBR_RES = 11 ∧ u.lant = s.lant ∧ u.mem = s.mem ∧ u.regs = s.regs)

/-- Parts of R200 to R204: the addressing block of an uplink of a known, active device in its current epoch and not
stale submits the frame for verification, and so does that of a beacon; a foreign type, a length that does not fit,
and a device without an entry are discarded and counted, and the next frame of the context takes the place. An uplink
without a decision 215 us after t0 is late. At t0 + 225 us an acknowledgement that the lamp accepts stands last in its
queue; one that it does not accept is counted. Parts of R202, R216: the commit of a verified uplink of the entry's
present epoch whose sequence number is ahead moves HIGH and its window there, counts it as accepted, and with the
record output on makes one record; a number already received makes no record, and one older than the window is stale
and counted. It rests on the model's choices in assumption 86. Completes: ADDRESSING_BLOCK_READ, LATE_DECISION,
ACK_TRANSMIT_COMMAND, COMMIT. -/
def Obligations.LanternReception : Prop :=
  (∀ (s : State) (t : Nat) (i : Fin 3072) (f : RxFrame), s.runs 13 → s.rxFrame i = some f →
    (∀ (n : Nat) (q : State) (e : List Word) (b : List Byte), f.stage = .fresh → f.cws.lookup 0 = some b →
      f.type ≠ 1 → f.type ≠ 2 → f.lengthOk = true → geometryOk f.hdr f.length = true → f.devid < 0xFFFFFC00 → s.rb NBR_CTL 31 = true →
      s.dirFind f.devid = some (some n) → (s.at t).nbrFetch n = (q, some e) → eActive e = true → f.epoch = eEpoch e →
      eBit e 1 26 = false ∨ (eHigh e + 2 ^ 24 - f.seq) % 2 ^ 24 < 64 ∨ 2 ^ 23 < (eHigh e + 2 ^ 24 - f.seq) % 2 ^ 24 →
      ∃ u, exec (.addressingBlockRead t i) s = .next u ∧ u.ciph.frames = s.ciph.frames ++ [i.val] ∧
        u.rxFrame i = some { f with index := n, keyref := eKeyref e, nextKey := false, stage := .cipher }) ∧
    (∀ b : List Byte, f.stage = .fresh → f.cws.lookup 0 = some b → f.type ≠ 1 → f.type ≠ 2 →
      f.lengthOk = true → geometryOk f.hdr f.length = true → 0xFFFFFC00 ≤ f.devid →
      ∃ u, exec (.addressingBlockRead t i) s = .next u ∧ u.ciph.frames = s.ciph.frames ++ [i.val] ∧ u.mem = s.mem ∧
        u.rxFrame i = some { f with beacon := true, stage := .cipher }) ∧
    (∀ (b : List Byte) (cnt : Nat), f.stage = .fresh → f.cws.lookup 0 = some b →
      (((f.type = 1 ∨ f.type = 2) ∧ cnt = LANT_CNT_FOREIGN) ∨
        (f.type ≠ 1 ∧ f.type ≠ 2 ∧ (f.lengthOk = false ∨ geometryOk f.hdr f.length = false) ∧ cnt = LANT_CNT_BADLEN) ∨
        (f.type ≠ 1 ∧ f.type ≠ 2 ∧ f.lengthOk = true ∧ geometryOk f.hdr f.length = true ∧ f.devid < 0xFFFFFC00 ∧
          s.rb NBR_CTL 31 = false ∧ cnt = LANT_CNT_UNKNOWN)) →
      ∃ u, exec (.addressingBlockRead t i) s = .next u ∧ u.mem = s.mem ∧
        u.rxFrame i = (s.lant.behind.find? fun x => x.1 == i.val).map (·.2) ∧
        (u.reg cnt).toNat = min 0xFFFFFFFF ((s.reg cnt).toNat + 1)) ∧
    (f.stage ≠ .ack → f.late = false → f.beacon = false → f.type = 0 → f.t0 + 215000 < (s.at t).now →
      ∃ u, exec (.lateDecision t i) s = .next u ∧ u.rxFrame i = some { f with late := true } ∧ u.mem = s.mem ∧
        (u.reg LANT_CNT_LATE).toNat = min 0xFFFFFFFF ((s.reg LANT_CNT_LATE).toNat + 1)) ∧
    (∀ (v : State) (x : TxCmd), v = ((s.at t).dropRx i).event 164 → x = (s.at t).ackCmd i f → f.stage = .ack →
      f.t0 + 225000 ≤ (s.at t).now →
      ((v.txAccept (s.txLamp f.lamp x.ofs) x).2 = .ok → ∃ u dur, exec (.ackTransmitCommand t i) s = .next u ∧
        u.rxFrame i = (s.lant.behind.find? fun x => x.1 == i.val).map (·.2) ∧ u.mem = s.mem ∧
        (u.lamp (s.txLamp f.lamp x.ofs)).queue.getLast? =
          some { x with dur := dur, lbtFrom := x.s - 25000 - x.listenUs * 1000 }) ∧
      ((v.txAccept (s.txLamp f.lamp x.ofs) x).2 ≠ .ok → ∃ u, exec (.ackTransmitCommand t i) s = .next u ∧
        u.rxFrame i = (s.lant.behind.find? fun x => x.1 == i.val).map (·.2) ∧ u.mem = s.mem ∧
        (u.lamp (s.txLamp f.lamp x.ofs)).queue = (s.lamp (s.txLamp f.lamp x.ofs)).queue ∧
        (u.reg (LAMP_CNT_ACK_DROP (s.txLamp f.lamp x.ofs))).toNat =
          min 0xFFFFFFFF ((s.reg (LAMP_CNT_ACK_DROP (s.txLamp f.lamp x.ofs))).toNat + 1)))) ∧
  (∀ (s : State) (t : Nat) (i : Fin 3072) (f : RxFrame) (q : State) (e : List Word), s.runs 13 →
    s.rxFrame i = some f → f.stage = .verified → f.beacon = false → f.type ≠ 3 → (s.at t).nbrFetch f.index = (q, some e) →
    e.length = 16 → eActive e = true → eKeyref e = f.keyref → (eWord e 0).toNat = f.devid → f.epoch = eEpoch e →
    f.nextKey = false →
    (eBit e 1 26 = true → 0 < (f.seq + 2 ^ 24 - eHigh e) % 2 ^ 24 →
      (f.seq + 2 ^ 24 - eHigh e) % 2 ^ 24 < 2 ^ 23 → f.seq < 2 ^ 24 →
      ∃ u e', exec (.commit t i) s = .next u ∧ (u.nbrFetch f.index).2 = some e' ∧ eHigh e' = f.seq ∧
        (eWin e').testBit 0 = true ∧ eActive e' = true ∧ eEpoch e' = eEpoch e ∧
        u.lant.records.length = s.lant.records.length + (if s.rb LANT_CTL 31 then 1 else 0) ∧
        (u.reg LANT_CNT_ACCEPT).toNat = min 0xFFFFFFFF ((s.reg LANT_CNT_ACCEPT).toNat + 1)) ∧
    ((windowKind e f.seq).1 = .dupOld → ∃ u e', exec (.commit t i) s = .next u ∧
      (u.nbrFetch f.index).2 = some e' ∧ eHigh e' = eHigh e ∧ eWin e' = eWin e ∧ u.lant.records = s.lant.records ∧
      (u.reg LANT_CNT_DUP_DROP).toNat = min 0xFFFFFFFF ((s.reg LANT_CNT_DUP_DROP).toNat + 1)) ∧
    ((windowKind e f.seq).1 = .stale → ∃ u, exec (.commit t i) s = .next u ∧ (u.nbrFetch f.index).2 = some e ∧
      u.lant.records = s.lant.records ∧
      (u.reg LANT_CNT_STALE).toNat = min 0xFFFFFFFF ((s.reg LANT_CNT_STALE).toNat + 1)))

/-- Parts of R314, R315, R318, R319, R321, R325, R341: a job submitted while EN is 1 and the queue has room joins it;
while the queue is full or an earlier write is held the fabric holds the write; while EN is 0 the job ends with
REFUSED in its word. The only job of an idle engine ends with REFUSED or BAD_ARGUMENT when it must not or cannot run;
one under a firmware key of its epoch that is below its limit goes to a lane with the key latched and the use counted.
An abort takes a queued or admitted job out with OK, and is TOO_LATE for an address with no job. It rests on the
model's choices in assumptions 71, 165. Completes: CIPH_SUBMIT, JOB_ADMISSION, CIPH_ABORT. -/
def Obligations.CipherJobs : Prop :=
  ∀ (s : State) (t : Nat),
    (∀ (by_ : Ini) (v : Word) (j : CJob), s.opens by_ CIPH_SUBMIT → s.readCJob (fld v 29 0 * 64) = some j →
      (s.rb CIPH_CTL 0 = true → s.ciph.waiting = [] → s.ciph.queue.length < 256 →
        ∃ u, exec (.ciphSubmit t by_ v) s = .next u ∧ u.ciph.queue = s.ciph.queue ++ [j] ∧ u.ciph.run = s.ciph.run ∧
          u.mem = s.mem ∧ u.regs = s.regs ∧ tabGet .none u.resp (iniIdx by_) = .done) ∧
      (s.rb CIPH_CTL 0 = true → (256 ≤ s.ciph.queue.length ∨ s.ciph.waiting ≠ []) →
        ∃ u, exec (.ciphSubmit t by_ v) s = .next u ∧
          u.ciph = { s.ciph with waiting := s.ciph.waiting ++ [(iniIdx by_, fld v 29 0 * 64)] } ∧
          u.mem = s.mem ∧ u.regs = s.regs ∧ tabGet .none u.resp (iniIdx by_) = .held) ∧
      (s.rb CIPH_CTL 0 = false → Memory.wf s.mem = true → s.memOk (fld v 29 0 * 64 + 0x30) = true →
        s.memOk (fld v 29 0 * 64 + 0x33) = true → ∃ u, exec (.ciphSubmit t by_ v) s = .next u ∧
          u.ciph.queue = s.ciph.queue ∧ u.byte (fld v 29 0 * 64 + 0x33) = 10 ∧
          s.bytesBut u (fld v 29 0 * 64 + 0x30) 4)) ∧
    (∀ (j : CJob) (a : Nat), s.runs 15 → s.cipherWaits = false →
      s.ciph.queue = [j] → s.ciph.run = [] → s.ciph.frames = [] → s.ciph.waiting = [] → j.src = .desc a →
      j.cls = 1 ∨ j.cls = 3 →
      (∀ c, (c = Code.refused ∧ (s.cipherRefuses = true ∨ s.rb CIPH_CTL 0 = false)) ∨
          (c = .badArgument ∧ s.cipherRefuses = false ∧ s.rb CIPH_CTL 0 = true ∧ j.valid = false) →
        Memory.wf s.mem = true → s.memOk (a + 0x30) = true → s.memOk (a + 0x33) = true → j.lane < 4 →
        ∃ u, exec (.jobAdmission t) s = .next u ∧ u.ciph.queue = [] ∧ u.ciph.run = [] ∧
          u.byte (a + 0x33) = BitVec.ofNat 8 c.val ∧ s.bytesBut u (a + 0x30) 4) ∧
      (∀ (l : Nat) (y : Key), s.cipherRefuses = false → s.rb CIPH_CTL 0 = true → j.valid = true →
        s.cipherLane (j.cls == 1) j.hold = some l → j.keyRec = false →
        j.key < s.cacheBase → (s.slot j.key).key = some y → (s.slot j.key).half = none → y.epoch = j.epoch →
        y.kek = false → y.used < y.limit → ∃ u x, exec (.jobAdmission t) s = .next u ∧ u.ciph.queue = [] ∧
          u.ciph.run = [x] ∧ x.lane = l ∧ x.src = j.src ∧ x.op = j.op ∧ x.kdata = y.data ∧ x.need = x.cycles * 5 ∧
          (u.slot j.key).key = some { y with used := y.used + 1 } ∧ u.mem = s.mem)) ∧
    (∀ (by_ : Ini) (v : Word), s.opens by_ CIPH_ABORT →
      ((∃ j ∈ s.ciph.queue ++ s.ciph.run, j.src = .desc (fld v 29 0 * 64)) → s.ciph.waiting = [] →
        ∃ u, exec (.ciphAbort t by_ v) s = .next u ∧ u.latch by_ CIPH_ABORT_RES = 0 ∧ u.mem = s.mem ∧
          u.ciph.queue = s.ciph.queue.filter (fun j => j.src != .desc (fld v 29 0 * 64)) ∧
          (∀ j ∈ u.ciph.run, j.src ≠ .desc (fld v 29 0 * 64))) ∧
      ((∀ j ∈ s.ciph.queue ++ s.ciph.run, j.src ≠ .desc (fld v 29 0 * 64)) →
        ∃ u, exec (.ciphAbort t by_ v) s = .next u ∧ u.latch by_ CIPH_ABORT_RES = 1 ∧ u.mem = s.mem ∧
          u.ciph.queue = s.ciph.queue))

/-- Parts of R201, R313, R318, R320: for each of the nine modes, the finished job of the lane completes. Its result is
what the mode gives for the input: OK with the result at OUT, or the code, and FENCED where OUT cannot be written; the
word at 0x30 holds the code; no byte outside OUT and that word changes. A frame whose tag verifies becomes verified
with its plaintext, and one whose tag does not is discarded and counted. Completes: CBC_ENCRYPT, CBC_DECRYPT,
CFB_ENCRYPT, CFB_DECRYPT, CTR, CCM_ENCRYPT, CCM_DECRYPT, CMAC_GENERATE, CMAC_VERIFY. -/
def Obligations.CipherModes : Prop :=
  ∀ (s : State) (t : Nat) (l : Fin 4) (j : CJob), s.runs 15 → Memory.wf s.mem = true →
    s.inService (0x28 + l) = true → s.ciph.run = [j] → j.lane = l.val → j.need = 0 →
    (∀ (op : Fin 9) (a : Nat) c, j.src = .desc a → j.op = op.val →
      s.memOk (a + 0x30) = true → s.memOk (a + 0x33) = true →
      [Instr.cbcEncrypt t l, .cbcDecrypt t l, .cfbEncrypt t l, .cfbDecrypt t l, .ctr t l, .ccmEncrypt t l,
        .ccmDecrypt t l, .cmacGenerate t l, .cmacVerify t l][op.val]? = some c →
      (∀ out, s.jobResult j = .ok out →
        (out = [] ∨ (s.memOk j.outA = true ∧ s.memOk (j.outA + (out.length - 1)) = true) →
          (j.outA + out.length ≤ a + 0x30 ∨ a + 0x34 ≤ j.outA) → ∃ u, exec c s = .next u ∧ u.ciph.run = [] ∧
          cellsRead memZero u.mem j.outA out.length = out ∧ u.byte (a + 0x33) = 0 ∧
          (∀ b, (b < j.outA ∨ j.outA + out.length ≤ b) → (b < a + 0x30 ∨ a + 0x34 ≤ b) → u.byte b = s.byte b)) ∧
        (out ≠ [] → (s.memOk j.outA = false ∨ s.memOk (j.outA + (out.length - 1)) = false) →
          ∃ u, exec c s = .next u ∧ u.ciph.run = [] ∧ u.byte (a + 0x33) = 7 ∧ s.bytesBut u (a + 0x30) 4)) ∧
      (∀ x : Code, s.jobResult j = .error x → ∃ u, exec c s = .next u ∧ u.ciph.run = [] ∧
        u.byte (a + 0x33) = BitVec.ofNat 8 x.val ∧ s.bytesBut u (a + 0x30) 4)) ∧
    (∀ (i : Nat) (f : RxFrame), j.src = .frame i → j.op = 6 → s.rxFrame i = some f →
      (∀ p, f.openWith (natsOf j.kdata) = some p → ∃ u, exec (.ccmDecrypt t l) s = .next u ∧ u.ciph.run = [] ∧
        u.mem = s.mem ∧ u.rxFrame i = some { f with stage := .verified, plain := p }) ∧
      (f.openWith (natsOf j.kdata) = none → ∃ u, exec (.ccmDecrypt t l) s = .next u ∧ u.ciph.run = [] ∧ u.mem = s.mem ∧
        u.rxFrame i = (s.lant.behind.find? fun x => x.1 == i).map (·.2) ∧
        (u.reg LANT_CNT_TAG_FAIL).toNat = min 0xFFFFFFFF ((s.reg LANT_CNT_TAG_FAIL).toNat + 1)))

/-- Parts of R313: decryption gives back what encryption took, for blocks of 16 bytes (the last of CTR and CCM may be
shorter): CFB and CTR by the stream they share, CCM with its tag. It rests on the model's choices in assumptions 79,
138. -/
def Obligations.CipherRoundTrips : Prop :=
  ∀ key : List Nat, key.length = 16 ∨ key.length = 32 →
    (∀ (iv : List Nat) (bs : List (List Nat)), iv.length = 16 → (∀ b ∈ bs, b.length = 16) →
      cfbDec key iv (cfbEnc key iv bs) = bs) ∧
    (∀ (c : Nat) (bs : List (List Nat)), (∀ b ∈ bs, b.length ≤ 16) → ctrMode key c (ctrMode key c bs) = bs) ∧
    (∀ nonce ad p : List Nat, ∀ m, m ≤ 16 → nonce.length = 13 → (∀ b ∈ p, b < 256) →
      ccmOpen key nonce ad ((ccmSeal key nonce ad p m).take p.length) ((ccmSeal key nonce ad p m).drop p.length) = some p)

/-- Parts of R313 (FIPS 197): the inverse cipher undoes the cipher on every block of 16 bytes under every key of 16 or
32 bytes. It rests on the model's choices in assumption 138. -/
def Obligations.AesInverse : Prop :=
  ∀ key b : List Nat, key.length = 16 ∨ key.length = 32 → (∀ x ∈ key, x < 256) → b.length = 16 → (∀ x ∈ b, x < 256) →
    aesDec key (aesEnc key b) = b

/-- Parts of R325, R327 to R329, R333, R338: commands on a firmware slot while the engine takes them. GENERATE and
LOAD_PLAIN put a key with KARG's epoch and use there; LOAD_SPLIT stages a component, and within 1 s combines the
second with it; ERASE empties the slot and ends the jobs that latched its key; SET_LIMIT lowers the limit and never
raises it; STATUS shows USED; KBUF is wiped by each of them, and CIPH_KRES holds the code. A slot of the cache is
BAD_ARGUMENT, and while the engine refuses, every key command is REFUSED and changes no key. Parts of R323, R324, R327
to R330: UNWRAP under a root or a key-encryption key puts the unwrapped key, its limit at most 2^28, into the slot,
and one whose tag fails is KEY_GONE and counted; WRAP_OUT writes a 64-byte blob, and a root counts its uses; REC_INVAL
drops a cached half without writing memory; REC_ERASE clears the valid bit of a half in DRAM; FLUSH and REWRAP begin
with IN_STEPS, or are refused while one runs; ROOT_SET sets the active or the pending root; components staged 1 s ago
go. It rests on the model's choices in assumptions 74, 75, 77, 166. Completes: GENERATE, LOAD_PLAIN, LOAD_SPLIT,
ERASE, SET_LIMIT, KEY_STATUS, UNWRAP, WRAP_OUT, REC_INVAL, REC_ERASE, FLUSH, REWRAP, ROOT_SET,
STAGED_COMPONENT_EXPIRY. -/
def Obligations.KeyCommands : Prop :=
  (∀ (s : State) (t : Nat) (by_ : Ini) (k : BitVec 18), s.opens by_ CIPH_KCMD →
    (s.cipherRefuses = true → ∀ c ∈ [Instr.generate t by_ k, .loadPlain t by_ k, .loadSplit t by_ k, .erase t by_ k,
        .setLimit t by_ k, .keyStatus t by_ k, .unwrap t by_ k, .wrapOut t by_ k, .recInval t by_ k, .recErase t by_ k,
        .flush t by_ k, .rewrap t by_ k, .rootSet t by_ k], ∃ u, exec c s = .next u ∧ u.latch by_ CIPH_KRES = 10 ∧
      u.ciph.slots = s.ciph.slots ∧ u.ciph.root = s.ciph.root ∧ u.mem = s.mem ∧ (∀ w : Fin 8, u.reg (CIPH_KBUF w) = 0)) ∧
    (s.cipherRefuses = false → s.cacheBase ≤ k.toNat → ∀ c ∈ [Instr.generate t by_ k, .loadSplit t by_ k, .erase t by_ k,
        .unwrap t by_ k, .wrapOut t by_ k], ∃ u, exec c s = .next u ∧ u.latch by_ CIPH_KRES = 11 ∧
      u.ciph.slots = s.ciph.slots ∧ u.mem = s.mem ∧ (∀ w : Fin 8, u.reg (CIPH_KBUF w) = 0)) ∧
    (s.cipherRefuses = false → k.toNat < s.cacheBase →
      (∃ u y, exec (.generate t by_ k) s = .next u ∧ (u.slot k.toNat).key = some y ∧ y.data.length = s.kargLen ∧
        y.epoch = s.rf CIPH_KARG 31 24 ∧ y.kek = s.rb CIPH_KARG 22 ∧ y.used = 0 ∧ y.grace = 0 ∧ y.limit = 2 ^ 28 ∧
        u.latch by_ CIPH_KRES = BitVec.ofNat 32 ((u.slot k.toNat).gen.toNat * 256) ∧
        (∀ w : Fin 8, u.reg (CIPH_KBUF w) = 0) ∧ (∀ j, j ≠ k.toNat → u.slot j = s.slot j) ∧ u.mem = s.mem) ∧
      (s.rb CIPH_CTL 31 = false → ∃ u, exec (.loadPlain t by_ k) s = .next u ∧
        (u.slot k.toNat).key = some { data := s.kbuf s.kargLen, epoch := s.rf CIPH_KARG 31 24, kek := s.rb CIPH_KARG 22 } ∧
        (u.slot k.toNat).gen = (if (s.slot k.toNat).key.isSome then (s.slot k.toNat).gen + 1 else (s.slot k.toNat).gen) ∧
        (∀ w : Fin 8, u.reg (CIPH_KBUF w) = 0) ∧ (∀ j, j ≠ k.toNat → u.slot j = s.slot j) ∧ u.mem = s.mem) ∧
      (s.rb CIPH_KARG 0 = false → ∃ u, exec (.loadSplit t by_ k) s = .next u ∧
        u.ciph.staged.lookup k.toNat = some (s.kbuf s.kargLen, (s.at t).clk) ∧ u.ciph.slots = s.ciph.slots ∧
        (∀ w : Fin 8, u.reg (CIPH_KBUF w) = 0) ∧ u.mem = s.mem) ∧
      (∀ b at_, s.rb CIPH_KARG 0 = true → s.ciph.staged.lookup k.toNat = some (b, at_) →
        ((s.at t).clk < at_ + 1000000000 →
          b.length = s.kargLen → ∃ u y, exec (.loadSplit t by_ k) s = .next u ∧ (u.slot k.toNat).key = some y ∧
            y.data = List.zipWith (fun x z => x ^^^ z) b (s.kbuf s.kargLen) ∧ u.ciph.staged.lookup k.toNat = none ∧
            u.mem = s.mem) ∧
        (at_ + 1000000000 ≤ (s.at t).clk → ∃ u, exec (.loadSplit t by_ k) s = .next u ∧
          u.latch by_ CIPH_KRES = BitVec.ofNat 32 ((s.slot k.toNat).gen.toNat * 256 + 11) ∧
          u.ciph.slots = s.ciph.slots ∧ u.ciph.staged.lookup k.toNat = none ∧ u.mem = s.mem)) ∧
      (∃ u, exec (.erase t by_ k) s = .next u ∧ (u.slot k.toNat).key = none ∧
        (u.slot k.toNat).gen = (s.slot k.toNat).gen + 1 ∧ (∀ j ∈ u.ciph.run, j.kslot ≠ k.toNat) ∧
        (s.ciph.run = [] → u.mem = s.mem) ∧ (∀ j, j ≠ k.toNat → u.slot j = s.slot j)) ∧
      (∀ y : Key, (s.slot k.toNat).key = some y → (s.slot k.toNat).half = none → s.rb CIPH_KARG 31 = false →
        (s.rf CIPH_KARG 28 0 ≠ 0 → s.rf CIPH_KARG 28 0 ≤ y.limit → ∃ u, exec (.setLimit t by_ k) s = .next u ∧
          (u.slot k.toNat).key = some { y with limit := s.rf CIPH_KARG 28 0 } ∧ u.mem = s.mem ∧
          u.latch by_ CIPH_KRES = BitVec.ofNat 32 ((s.slot k.toNat).gen.toNat * 256)) ∧
        (s.rf CIPH_KARG 28 0 = 0 ∨ y.limit < s.rf CIPH_KARG 28 0 → ∃ u, exec (.setLimit t by_ k) s = .next u ∧
          u.ciph.slots = s.ciph.slots ∧ u.mem = s.mem ∧
          u.latch by_ CIPH_KRES = BitVec.ofNat 32 ((s.slot k.toNat).gen.toNat * 256 + 11)) ∧
        (∃ u, exec (.keyStatus t by_ k) s = .next u ∧ u.latch by_ CIPH_KINFO0 = BitVec.ofNat 32 y.used ∧
          u.latch by_ CIPH_KRES = BitVec.ofNat 32 ((s.slot k.toNat).gen.toNat * 256) ∧
          u.ciph.slots = s.ciph.slots ∧ u.mem = s.mem)))) ∧
  (∀ (s : State) (t : Nat),
    (∀ (by_ : Ini) (k : BitVec 18), s.opens by_ CIPH_KCMD → s.cipherRefuses = false →
      (∀ (b w : List Byte), k.toNat < s.cacheBase → s.load s.kaddr 64 = some b →
        (s.rb CIPH_KARG 11 = true ∧ s.rootOf (fld (halfWord b 0) 20 20) = some w) ∨
          (s.rb CIPH_KARG 11 = false ∧ s.kekOf = .ok w) → bit (halfWord b 0) 23 = true →
        (∀ x : Key, unwrapHalf w b = some x → ∃ u, exec (.unwrap t by_ k) s = .next u ∧ u.mem = s.mem ∧
          (u.slot k.toNat).key = some { x with limit := min (2 ^ 28) x.limit, used := 0, grace := 0 } ∧
          (∀ j, j ≠ k.toNat → u.slot j = s.slot j)) ∧
        (unwrapHalf w b = none → ∃ u, exec (.unwrap t by_ k) s = .next u ∧ u.mem = s.mem ∧
          u.ciph.slots = s.ciph.slots ∧
          u.latch by_ CIPH_KRES = BitVec.ofNat 32 ((s.slot k.toNat).gen.toNat * 256 + 2) ∧
          (u.reg CIPH_CNT_UNWRAP_FAIL).toNat = min 0xFFFFFFFF ((s.reg CIPH_CNT_UNWRAP_FAIL).toNat + 1))) ∧
      (∀ (w : List Byte) (x : Key), k.toNat < s.cacheBase → (s.slot k.toNat).key = some x → x.data.length ≤ 32 →
        Memory.wf s.mem = true → s.memOk s.kaddr = true → s.memOk (s.kaddr + 63) = true →
        (s.rb CIPH_KARG 11 = true → s.ciph.root = some w → s.ciph.rootUses < 2 ^ 28 → ∃ u nonce,
          exec (.wrapOut t by_ k) s = .next u ∧ nonce.length = 8 ∧
          cellsRead memZero u.mem s.kaddr 64 = wrapHalf w x s.rootPar nonce ∧ s.bytesBut u s.kaddr 64 ∧
          u.ciph.rootUses = s.ciph.rootUses + 1 ∧ u.ciph.slots = s.ciph.slots) ∧
        (s.rb CIPH_KARG 11 = false → s.kekOf = .ok w → ∃ u nonce, exec (.wrapOut t by_ k) s = .next u ∧
          nonce.length = 8 ∧ cellsRead memZero u.mem s.kaddr 64 = wrapHalf w x 0 nonce ∧ s.bytesBut u s.kaddr 64 ∧
          u.ciph.rootUses = s.ciph.rootUses ∧ u.ciph.slots = s.ciph.slots)) ∧
      (∃ u, exec (.recInval t by_ k) s = .next u ∧ u.mem = s.mem ∧ u.latch by_ CIPH_KRES = 0 ∧
        (∀ j, s.cached k.toNat 0 = some j ∨ s.cached k.toNat 1 = some j → (u.slot j).key = none ∧ j ∉ u.ciph.lru)) ∧
      (∀ b, s.ciph.run = [] → s.load (s.halfAddr k.toNat s.kargHalf) 64 = some b → Memory.wf s.mem = true → ∃ u b',
        exec (.recErase t by_ k) s = .next u ∧ u.load (s.halfAddr k.toNat s.kargHalf) 64 = some b' ∧
        bit (halfWord b' 0) 23 = false ∧ s.bytesBut u (s.halfAddr k.toNat s.kargHalf) 4) ∧
      (s.ciph.op = none → ∃ u, exec (.flush t by_ k) s = .next u ∧ u.latch by_ CIPH_KRES = 8 ∧ u.mem = s.mem ∧
        u.ciph.op = some { rewrap := false, by_ := iniIdx by_ }) ∧
      (s.ciph.op = none → s.ciph.pend ≠ none → ∃ u, exec (.rewrap t by_ k) s = .next u ∧ u.latch by_ CIPH_KRES = 8 ∧
        u.mem = s.mem ∧ u.ciph.op = some { rewrap := true, by_ := iniIdx by_ }) ∧
      (s.ciph.op ≠ none → ∀ c ∈ [Instr.flush t by_ k, .rewrap t by_ k], ∃ u, exec c s = .next u ∧
        u.latch by_ CIPH_KRES = 10 ∧ u.mem = s.mem ∧ u.ciph.op = s.ciph.op) ∧
      (∃ u r, exec (.rootSet t by_ k) s = .next u ∧ u.latch by_ CIPH_KRES = 0 ∧ u.mem = s.mem ∧ r.length = 32 ∧
        (s.rb CIPH_KARG 0 = false → u.ciph.root = some r ∧ u.ciph.lru = []) ∧
        (s.rb CIPH_KARG 0 = true → u.ciph.pend = some r ∧ u.ciph.root = s.ciph.root))) ∧
    (s.runs 15 → ∃ u, exec (.stagedComponentExpiry t) s = .next u ∧ u.mem = s.mem ∧ u.regs = s.regs ∧
      u.ciph.slots = s.ciph.slots ∧
      (∀ e, e ∈ u.ciph.staged ↔ e ∈ s.ciph.staged ∧ (s.at t).clk < e.2.2 + 1000000000)))

/-- Parts of R339, R341: a write of CIPH_CTL takes EN when the key records lie in ranks in service, and holds
CACHE_BASE within 2 to 2,046 while EN is 0 and leaves it while EN is 1; APPROVED is taken when its conditions hold and
is refused with STATUS bit 29 otherwise. Parts of R331 to R338: an alarm of a watched sensor zeroises every key, both
roots and every staged component, withdraws every admitted job and stops the engine, and that of one not watched does
nothing; ATTEST, VERIFY and SELFTEST begin with IN_STEPS when none runs and are refused otherwise, ATTEST also after
an alarm; SEC_RNG reads 32 free bits, or 0 after a health failure, which a failure sets. It rests on the model's
choices in assumptions 78, 80, 139. Completes: CIPHER_ENABLE, APPROVED_WRITE, TAMPER_ALARM, ATTEST, VERIFY, SELFTEST,
SEC_RNG_READ, HEALTH_TEST_FAILURE. -/
def Obligations.CipherControl : Prop :=
  (∀ (s : State) (t : Nat) (by_ : Ini), s.opens by_ CIPH_CTL →
    (∀ v : Word, bit v 31 = false → ∃ u,
      exec (.cipherEnable t by_ v) s = .next u ∧ u.rb CIPH_CTL 0 = (bit v 0 && (s.krecOk || s.rb CIPH_CTL 0)) ∧
        u.cacheBase = (if s.rb CIPH_CTL 0 then s.cacheBase else max 2 (min 2046 (fld v 26 16))) ∧
        u.rb CIPH_CTL 31 = s.rb CIPH_CTL 31 ∧ u.mem = s.mem ∧ (∀ a, a ≠ CIPH_CTL → u.reg a = s.reg a)) ∧
    (s.rb CIPH_CTL 31 = false → s.approvable = true → ∃ u, exec (.approvedWrite t by_) s = .next u ∧
      u.rb CIPH_CTL 31 = true ∧ u.rb CIPH_CTL 0 = s.rb CIPH_CTL 0 ∧ u.mem = s.mem ∧
      (∀ a, a ≠ CIPH_CTL → u.reg a = s.reg a)) ∧
    (s.rb CIPH_CTL 31 = false → s.approvable = false → ∃ u, exec (.approvedWrite t by_) s = .next u ∧
      u.rb CIPH_CTL 31 = false ∧ u.rb CIPH_STATUS 29 = true ∧ u.mem = s.mem ∧
      (∀ a, a ≠ CIPH_CTL → a ≠ CIPH_STATUS → u.reg a = s.reg a))) ∧
  (∀ (s : State) (t : Nat),
    (∀ sensor : Fin 6,
      (s.board.vinOk = true → s.rb SEC_TAMPER_CTL (2 + sensor) = true →
        ∃ u, exec (.tamperAlarm t sensor) s = .next u ∧ (∀ k, (u.slot k).key = none) ∧ u.ciph.root = none ∧
          u.ciph.pend = none ∧ u.ciph.staged = [] ∧ u.ciph.run = [] ∧ u.rb SEC_TAMPER_STATUS (2 + sensor) = true ∧
          u.rb CIPH_STATUS 30 = true ∧ u.rb PWR_WAKE_CAUSE 10 = true) ∧
      (s.board.vinOk = false ∨ s.rb SEC_TAMPER_CTL (2 + sensor) = false →
        exec (.tamperAlarm t sensor) s = .next (s.at t))) ∧
    (∀ by_ : Ini, s.opens by_ SEC_CMD →
      (s.sec.op = none →
        (s.rb CIPH_STATUS 30 = false → ∃ u o, exec (.attest t by_) s = .next u ∧ u.sec.op = some o ∧ o.kind = .attest ∧
          o.total = 30 ∧ o.req = (s.load s.secAddr 64).getD [] ∧ u.latch by_ SEC_RES = 8 ∧ u.regs = s.regs ∧
          u.mem = s.mem) ∧
        (∃ u o, exec (.verify t by_) s = .next u ∧ u.sec.op = some o ∧ o.kind = .verify ∧
          o.req = (s.load s.secAddr 144).getD [] ∧ u.latch by_ SEC_RES = 8 ∧ u.regs = s.regs ∧ u.mem = s.mem) ∧
        (∃ u o, exec (.selftest t by_) s = .next u ∧ u.sec.op = some o ∧ o.kind = .selftest false ∧ o.total = 60 ∧
          u.latch by_ SEC_RES = 8 ∧ u.regs = s.regs ∧ u.mem = s.mem)) ∧
      (∀ c ∈ [Instr.attest t by_, .verify t by_, .selftest t by_],
        s.sec.op ≠ none ∨ (c = .attest t by_ ∧ s.rb CIPH_STATUS 30 = true) →
        exec c s = .next (((s.at t).result by_ SEC_RES .refused).answer by_ .done))) ∧
    (∀ by_ : Ini, s.opensRead by_ SEC_RNG → ∃ u v, exec (.secRngRead t by_) s = .next u ∧
      tabGet .none u.resp (iniIdx by_) = .data v ∧ v < 2 ^ 32 ∧ (s.rb CIPH_STATUS 31 = true → v = 0) ∧
      u.regs = s.regs ∧ u.mem = s.mem) ∧
    (s.runs 15 → ∃ u, exec (.healthTestFailure t) s = .next u ∧ u.rb CIPH_STATUS 31 = true ∧
      (∀ a, a ≠ CIPH_STATUS → u.reg a = s.reg a) ∧ u.mem = s.mem))

/-- Parts of R239, R240, R262: the data ALU. Exact sums, differences and products are delivered wrapped, or under DSAT
saturated; V tells that the exact value does not fit, SV that it was saturated; C is the carry or the not-borrow;
logic clears V. No other bit of wsr, register, core or byte of memory changes. It rests on the model's choices in
assumptions 58, 161. Completes: ADD, ADC, SUB, SBC, ABS, NEG, MUL, MPYR, MIN, MAX, ADDI. -/
def Obligations.WickArithmetic : Prop :=
  ∀ (s : State) (co : Core) (dd da db : BitVec 6),
    let r := fun (c : WCore) (x : Int) => BitVec.ofInt 24 (if c.dsat then clampI (-8388608) 8388607 x else x)
    let o := fun (x : Int) => decide (x < -8388608 ∨ 8388607 < x)
    let A := fun (c : WCore) => (c.dr da).toInt
    let B := fun (c : WCore) => (c.dr db).toInt
    let a := fun (c : WCore) => (c.dr da).toNat
    let b := fun (c : WCore) => (c.dr db).toNat
    let long := if isW (coreKey co) then 2 else 4
    s.gives (.add co dd da db) co (.alu .add dd da db) dd 1 (fun c => r c (A c + B c))
      (fun c v => ⟨v == 0, v.msb, decide (2 ^ 24 ≤ a c + b c), o (A c + B c), c.dsat && o (A c + B c), false⟩) ∧
    s.gives (.adc co dd da db) co (.alu .adc dd da db) dd 1 (fun c => r c (A c + B c + c.fC.toNat))
      (fun c v => ⟨v == 0, v.msb, decide (2 ^ 24 ≤ a c + b c + c.fC.toNat), o (A c + B c + c.fC.toNat),
        c.dsat && o (A c + B c + c.fC.toNat), false⟩) ∧
    s.gives (.sub co dd da db) co (.alu .sub dd da db) dd 1 (fun c => r c (A c - B c))
      (fun c v => ⟨v == 0, v.msb, decide (b c ≤ a c), o (A c - B c), c.dsat && o (A c - B c), false⟩) ∧
    s.gives (.sbc co dd da db) co (.alu .sbc dd da db) dd 1 (fun c => r c (A c - B c - (1 - c.fC.toNat)))
      (fun c v => ⟨v == 0, v.msb, decide (b c + (1 - c.fC.toNat) ≤ a c), o (A c - B c - (1 - c.fC.toNat)),
        c.dsat && o (A c - B c - (1 - c.fC.toNat)), false⟩) ∧
    s.gives (.abs co dd da) co (.alu .abs dd da 0) dd 1 (fun c => r c (A c).natAbs)
      (fun c v => ⟨v == 0, v.msb, c.fC, o (A c).natAbs, c.dsat && o (A c).natAbs, false⟩) ∧
    s.gives (.neg co dd da) co (.alu .neg dd da 0) dd 1 (fun c => r c (-A c))
      (fun c v => ⟨v == 0, v.msb, c.fC, o (-A c), c.dsat && o (-A c), false⟩) ∧
    s.gives (.mul co dd da db) co (.alu .mul dd da db) dd long (fun c => r c (A c * B c))
      (fun c v => ⟨v == 0, v.msb, c.fC, o (A c * B c), c.dsat && o (A c * B c), false⟩) ∧
    s.gives (.mpyr co dd da db) co (.alu .mpyr dd da db) dd long
      (fun c => BitVec.ofInt 24 (clampI (-8388608) 8388607 (roundBy c.rnd (product c.frac (c.dr da) (c.dr db)).1 (2 ^ 24))))
      (fun c v =>
        let p := product c.frac (c.dr da) (c.dr db)
        let x := o (roundBy c.rnd p.1 (2 ^ 24)) || p.2
        ⟨v == 0, v.msb, c.fC, x, x, false⟩) ∧
    s.gives (.min co dd da db) co (.alu .min dd da db) dd 1 (fun c => BitVec.ofInt 24 (min (A c) (B c)))
      (fun c v => ⟨v == 0, v.msb, c.fC, c.fV, false, false⟩) ∧
    s.gives (.max co dd da db) co (.alu .max dd da db) dd 1 (fun c => BitVec.ofInt 24 (max (A c) (B c)))
      (fun c v => ⟨v == 0, v.msb, c.fC, c.fV, false, false⟩) ∧
    (∀ imm : BitVec 14, s.gives (.addi co dd da imm) co (.imm .addi dd da imm) dd 1 (fun c => r c (A c + imm.toInt))
      (fun c v => ⟨v == 0, v.msb, decide (2 ^ 24 ≤ a c + (imm.signExtend 24).toNat), o (A c + imm.toInt),
        c.dsat && o (A c + imm.toInt), false⟩))

/-- Parts of R262, R263: logic, shifts, counts of sign bits, moves, and the instructions that set flags alone. A shift
or rotate by 0 leaves C; else C is the last bit out. CMP and TST deliver nothing. It rests on the model's choices in
assumption 161. Completes: AND, OR, XOR, ANDN, ANDI, ORI, XORI, LSL, LSR, ASR, ROR, SHI, NORM, MOV, SXB, ZXB, LDI,
LDHI, CMP, CMPI, TST. -/
def Obligations.WickLogic : Prop :=
  ∀ (s : State) (co : Core) (dd da db : BitVec 6) (imm : BitVec 14),
    let lc := fun (v : BitVec 24) (cy : Bool) => (⟨v == 0, v.msb, cy, false, false, false⟩ : Fl)
    let lg := fun (c : WCore) (v : BitVec 24) => lc v c.fC
    let n := fun (c : WCore) => (c.dr db).toNat % 32
    let im := imm.signExtend 24
    s.gives (.and co dd da db) co (.alu .and dd da db) dd 1 (fun c => c.dr da &&& c.dr db) lg ∧
    s.gives (.or co dd da db) co (.alu .or dd da db) dd 1 (fun c => c.dr da ||| c.dr db) lg ∧
    s.gives (.xor co dd da db) co (.alu .xor dd da db) dd 1 (fun c => c.dr da ^^^ c.dr db) lg ∧
    s.gives (.andn co dd da db) co (.alu .andn dd da db) dd 1 (fun c => c.dr da &&& ~~~(c.dr db)) lg ∧
    s.gives (.andi co dd da imm) co (.imm .andi dd da imm) dd 1 (fun c => c.dr da &&& im) lg ∧
    s.gives (.ori co dd da imm) co (.imm .ori dd da imm) dd 1 (fun c => c.dr da ||| im) lg ∧
    s.gives (.xori co dd da imm) co (.imm .xori dd da imm) dd 1 (fun c => c.dr da ^^^ im) lg ∧
    s.gives (.lsl co dd da db) co (.alu .lsl dd da db) dd 1 (fun c => c.dr da <<< n c)
      (fun c v => lc v (if n c = 0 then c.fC else decide (n c ≤ 24) && (c.dr da).getLsbD (24 - n c))) ∧
    s.gives (.lsr co dd da db) co (.alu .lsr dd da db) dd 1 (fun c => c.dr da >>> n c)
      (fun c v => lc v (if n c = 0 then c.fC else (c.dr da).getLsbD (n c - 1))) ∧
    s.gives (.asr co dd da db) co (.alu .asr dd da db) dd 1 (fun c => (c.dr da).sshiftRight (n c))
      (fun c v => lc v (if n c = 0 then c.fC else ((c.dr da).sshiftRight (n c - 1)).getLsbD 0)) ∧
    s.gives (.ror co dd da db) co (.alu .ror dd da db) dd 1 (fun c => (c.dr da).rotateRight (n c % 24))
      (fun c v => lc v (if n c % 24 = 0 then c.fC else v.msb)) ∧
    (∀ (kind : BitVec 2) (count : BitVec 5), s.gives (.shi co kind dd da count) co (.shi kind dd da count) dd 1
      (fun c => shiftVal kind.toNat (c.dr da) count.toNat)
      (fun c v => lc v (if count = 0 ∨ (kind = 3 ∧ count = 24) then c.fC
        else shiftOut kind.toNat (c.dr da) count.toNat))) ∧
    s.gives (.norm co dd da) co (.alu .norm dd da 0) dd 1 (fun c => BitVec.ofNat 24 (redundant (c.dr da)))
      (fun c v => { c.fl with z := v == 0 }) ∧
    s.gives (.mov co dd da) co (.alu .mov dd da 0) dd 1 (fun c => c.dr da) (fun c _ => c.fl) ∧
    s.gives (.sxb co dd da) co (.alu .sxb dd da 0) dd 1 (fun c => ((c.dr da).setWidth 8).signExtend 24) (fun c _ => c.fl) ∧
    s.gives (.zxb co dd da) co (.alu .zxb dd da 0) dd 1 (fun c => c.dr da &&& 0xFF) (fun c _ => c.fl) ∧
    (∀ x : BitVec 20, s.gives (.ldi co dd x) co (.ldi dd x) dd 1 (fun _ => x.signExtend 24) (fun c _ => c.fl)) ∧
    (∀ x : BitVec 12, s.gives (.ldhi co dd x) co (.ldhi dd x) dd 1 (fun c => x ++ (c.dr dd).setWidth 12)
      (fun c _ => c.fl)) ∧
    (∀ x : Instr × WInstr × (WCore → BitVec 24), x ∈ [
        (Instr.cmp co da db, WInstr.alu .cmp 0 da db, fun c => c.dr db), (.cmpi co da imm, .imm .cmpi 0 da imm, fun _ => im)] →
      s.issues co x.2.1 → ∃ u w, exec x.1 s = .next u ∧ s.coreOnly u (coreKey co) ∧
        u.core (coreKey co) = ({ s.sees co x.2.1 with wsr := w } : WCore).next ∧
        (⟨(s.seen co).dr da == x.2.2 (s.seen co), ((s.seen co).dr da - x.2.2 (s.seen co)).msb,
          decide ((x.2.2 (s.seen co)).toNat ≤ ((s.seen co).dr da).toNat),
          decide (((s.seen co).dr da).toInt - (x.2.2 (s.seen co)).toInt < -8388608 ∨
            8388607 < ((s.seen co).dr da).toInt - (x.2.2 (s.seen co)).toInt), false, false⟩ : Fl).made (s.seen co).wsr w) ∧
    (s.issues co (.alu .tst 0 da db) → ∃ u w, exec (.tst co da db) s = .next u ∧ s.coreOnly u (coreKey co) ∧
      u.core (coreKey co) = ({ s.sees co (.alu .tst 0 da db) with wsr := w } : WCore).next ∧
      (lg (s.seen co) ((s.seen co).dr da &&& (s.seen co).dr db)).made (s.seen co).wsr w)

/-- Parts of R236 to R238, R268, R269: the accumulators. A sum that leaves 56 bits wraps and sets AV, or under ASAT is
held and sets SV; -1 x -1 under FRAC sets SV; EXT and MOVAD read an accumulator two cycles behind a write. It rests on
the model's choices in assumption 161. Completes: MAC, MSU, MPA, CLRA, ADDA, SUBA, NEGA, ABSA, SAT48, SHA, MOVDA,
MOVAD, EXT, MAC2. -/
def Obligations.WickAccumulators : Prop :=
  ∀ (s : State) (co : Core) (d1 d2 : BitVec 6) (acc x : BitVec 2),
    let h := fun (c : WCore) (v : Int) => BitVec.ofInt 56 (if c.asat then clampI (-(2 ^ 55)) (2 ^ 55 - 1) v else v)
    let o := fun (v : Int) => decide (v < -(2 ^ 55) ∨ 2 ^ 55 ≤ v)
    let f := fun (v : WCore → Int) (p : WCore → Bool) (c : WCore) =>
      ({ c.fl with sv := p c || (c.asat && o (v c)), av := !c.asat && o (v c) } : Fl)
    let V := fun (c : WCore) => (c.ac acc.toNat).toInt
    let X := fun (c : WCore) => (c.ac x.toNat).toInt
    let P := fun (c : WCore) => product c.frac (c.dr d1) (c.dr d2)
    let no := fun (_ : WCore) => false
    s.accumulates (.mac co d1 d2 acc) co (.mac d1 d2 acc) acc (fun c => h c (V c + (P c).1))
      (f (fun c => V c + (P c).1) fun c => (P c).2) ∧
    s.accumulates (.msu co d1 d2 acc) co (.msu d1 d2 acc) acc (fun c => h c (V c - (P c).1))
      (f (fun c => V c - (P c).1) fun c => (P c).2) ∧
    s.accumulates (.mpa co d1 d2 acc) co (.mpa d1 d2 acc) acc (fun c => BitVec.ofInt 56 (P c).1)
      (fun c => { c.fl with sv := (P c).2 }) ∧
    s.accumulates (.clra co acc) co (.clra acc) acc (fun _ => 0) (fun c => c.fl) ∧
    s.accumulates (.adda co acc x) co (.adda acc x) acc (fun c => h c (V c + X c)) (f (fun c => V c + X c) no) ∧
    s.accumulates (.suba co acc x) co (.suba acc x) acc (fun c => h c (V c - X c)) (f (fun c => V c - X c) no) ∧
    s.accumulates (.nega co acc) co (.nega acc) acc (fun c => h c (-V c)) (f (fun c => -V c) no) ∧
    s.accumulates (.absa co acc) co (.absa acc) acc (fun c => h c (V c).natAbs) (f (fun c => ((V c).natAbs : Int)) no) ∧
    s.accumulates (.sat48 co acc) co (.sat48 acc) acc (fun c => BitVec.ofInt 56 (clampI (-(2 ^ 47)) (2 ^ 47 - 1) (V c)))
      (fun c => { c.fl with sv := decide (V c < -(2 ^ 47) ∨ 2 ^ 47 ≤ V c) }) ∧
    (∀ sh : BitVec 6, 0 ≤ sh.toInt → s.accumulates (.sha co acc sh) co (.sha acc sh) acc
      (fun c => h c (V c * 2 ^ sh.toNat)) (f (fun c => V c * 2 ^ sh.toNat) no)) ∧
    (∀ sh : BitVec 6, sh.toInt < 0 → s.accumulates (.sha co acc sh) co (.sha acc sh) acc
      (fun c => BitVec.ofInt 56 (V c / 2 ^ sh.toInt.natAbs)) (fun c => c.fl)) ∧
    (∀ w : BitVec 3, s.accumulates (.movda co d1 acc w false) co (.movda d1 acc w false) acc
        (fun c => BitVec.ofInt 56 ((c.dr d1).toInt * 2 ^ (8 * w.toNat))) (fun c => c.fl) ∧
      s.accumulates (.movda co d1 acc w true) co (.movda d1 acc w true) acc
        (fun c => (c.ac acc.toNat &&& ~~~((0xFFFFFF : BitVec 56) <<< (8 * w.toNat)))
          ||| ((c.dr d1).setWidth 56 <<< (8 * w.toNat))) (fun c => c.fl) ∧
      s.gives (.movad co d1 acc w) co (.movad d1 acc w) d1 1
        (fun c => (c.acMove acc.toNat).extractLsb' (8 * w.toNat) 24) (fun c _ => c.fl)) ∧
    (∀ sh : BitVec 4, s.gives (.ext co d1 acc sh) co (.ext d1 acc sh) d1 1
      (fun c => BitVec.ofInt 24 (clampI (-8388608) 8388607 (roundBy c.rnd ((c.acMove acc.toNat).toInt * 2 ^ sh.toInt.toNat)
        (2 ^ (24 + (-sh.toInt).toNat)))))
      (fun c v =>
        let q := roundBy c.rnd ((c.acMove acc.toNat).toInt * 2 ^ sh.toInt.toNat) (2 ^ (24 + (-sh.toInt).toNat))
        let y := decide (q < -8388608 ∨ 8388607 < q)
        ⟨v == 0, v.msb, c.fC, y, y, false⟩)) ∧
    (∀ (sx sy : Bool) (da db dc de : BitVec 6), acc ≠ x →
      s.issues co (.mac2 sx sy acc x da db dc de) → ∃ u, exec (.mac2 co sx sy acc x da db dc de) s = .next u ∧
        s.coreOnly u (coreKey co) ∧ (u.core (coreKey co)).d = (s.seen co).d ∧
        let p := product (s.seen co).frac ((s.seen co).dr da) ((s.seen co).dr db)
        let q := product (s.seen co).frac ((s.seen co).dr dc) ((s.seen co).dr de)
        (u.core (coreKey co)).ac acc.toNat = h (s.seen co) (V (s.seen co) + if sx then -p.1 else p.1) ∧
        (u.core (coreKey co)).ac x.toNat = h (s.seen co) (X (s.seen co) + if sy then -q.1 else q.1))

/-- Parts of R227, R228, R233 to R235, R264 to R267: loads deliver a word of data memory after 3 cycles, stores write
the source register there; the pointer moves by the mode; a DMOV does slot A, then slot B. A Wick's address is taken
mod 65,536 and a Lantern's mod 16,384. A DMOV leaves a running transfer no slot: the core counts the wait, and the
32nd stalls it once, which a Wick counts. It rests on the model's choices in assumption 161. Completes: LD, ST, LDA,
STA, DMOV. -/
def Obligations.WickMemory : Prop :=
  ∀ (s : State) (co : Core) (reg : BitVec 6) (m : MemMode) (pk : BitVec 4) (a : BitVec 16),
    let k := coreKey co
    let wa := fun (x : Nat) => if k < 64 then x % 65536 else x % 16384
    let ldv := fun (c : WCore) (x : Nat) => tabGet (0 : BitVec 24) c.dmem (wa x)
    s.moves (.ld co reg m pk) co (.mem false reg m pk) (fun c => ({ c with
        p := (c.memPtr m pk).p
        inflight := flightIns ⟨physReg c.rrb reg.toNat, ldv c (c.memAddr m pk), c.cyc + 3⟩ c.inflight } : WCore).next) ∧
    s.moves (.st co reg m pk) co (.mem true reg m pk) (fun c => ({ c with
        p := (c.memPtr m pk).p, dmem := tabSet c.dmem (wa (c.memAddr m pk)) (c.dr reg) } : WCore).next) ∧
    s.moves (.lda co reg a) co (.memAbs false reg a) (fun c => ({ c with
        inflight := flightIns ⟨physReg c.rrb reg.toNat, ldv c a.toNat, c.cyc + 3⟩ c.inflight } : WCore).next) ∧
    s.moves (.sta co reg a) co (.memAbs true reg a) (fun c => ({ c with
        dmem := tabSet c.dmem (wa a.toNat) (c.dr reg) } : WCore).next) ∧
    (∀ x y : DMove, s.moves (.dmov co x y) co (.dmov x y) (fun c =>
      let slot := fun (c : WCore) (m : DMove) =>
        if m.store then ({ c with
          p := (c.memPtr (.inc m.i) m.pk).p
          dmem := tabSet c.dmem (wa (c.ptr m.pk).toNat) (c.dr m.reg) } : WCore)
        else { c with
          p := (c.memPtr (.inc m.i) m.pk).p
          inflight := flightIns ⟨physReg c.rrb m.reg.toNat, ldv c (c.ptr m.pk).toNat, c.cyc + 3⟩ c.inflight }
      (slot (slot c x) y).next)) ∧
    (∀ x y : DMove, s.issues co (.dmov x y) → (s.core k).dma.any (fun e => e.2.busy) = true →
      ∃ u, exec (.dmov co x y) s = .next u ∧ (u.core k).waited = ((s.core k).waited + 1) % 32 ∧
        (isW k = true → (u.reg (WICK_STALLS k)).toNat = (if (s.core k).waited = 31
          then min 0xFFFFFFFF ((s.reg (WICK_STALLS k)).toNat + 1) else (s.reg (WICK_STALLS k)).toNat)))

/-- Parts of R225, R271: pointer, circular-buffer, loop-counter, wsr and rotation-base moves. Parts of R223, R242,
R244, R261, R272 to R275: branches, calls and loops. A jump takes two cycles and ends the loops whose body does not
hold its target; a loop of count 0 is skipped; ROT turns the rotating registers down by one. Completes: PADDI, PLDI,
MOVDP, MOVPD, CBSET, CBGET, MOVDL, MOVLD, MOVDW, MOVWD, MOVRD, BR, JAL, JR, LOOPI, LOOPR, NOP, ROT. -/
def Obligations.WickMovesAndJumps : Prop :=
  (∀ (s : State) (co : Core) (pk : BitVec 4) (dd da db : BitVec 6) (imm : BitVec 16) (j : BitVec 2),
    s.moves (.paddi co pk imm) co (.paddi pk imm) (fun c => ({ c with p := tabSet c.p pk.toNat (c.ptr pk + imm) } : WCore).next) ∧
    s.moves (.pldi co pk imm) co (.pldi pk imm) (fun c => ({ c with p := tabSet c.p pk.toNat imm } : WCore).next) ∧
    s.moves (.movdp co pk da) co (.movdp pk da) (fun c =>
      ({ c with p := tabSet c.p pk.toNat ((c.dr da).setWidth 16) } : WCore).next) ∧
    s.gives (.movpd co pk dd) co (.movpd pk dd) dd 1 (fun c => (c.ptr pk).setWidth 24) (fun c _ => c.fl) ∧
    s.moves (.cbset co j da db) co (.cbset j da db) (fun c =>
      ({ c with cb := tabSet c.cb j.toNat ((c.dr da).setWidth 16 ++ (c.dr db).setWidth 16 : BitVec 32) } : WCore).next) ∧
    (∀ hi : Bool, s.gives (.cbget co j dd hi) co (.cbget j dd hi) dd 1 (fun c =>
      ((tabGet (0 : BitVec 32) c.cb j.toNat).extractLsb' (if hi then 16 else 0) 16).setWidth 24) (fun c _ => c.fl)) ∧
    s.moves (.movdl co j da) co (.movdl j da) (fun c =>
      ({ c with lc := tabSet c.lc j.toNat ((c.dr da).setWidth 16) } : WCore).next) ∧
    s.gives (.movld co j dd) co (.movld j dd) dd 1 (fun c => (tabGet (0 : BitVec 16) c.lc j.toNat).setWidth 24) (fun c _ => c.fl) ∧
    (s.issues co (.movdw da) → ∃ u w, exec (.movdw co da) s = .next u ∧ s.coreOnly u (coreKey co) ∧
      u.core (coreKey co) = ({ s.sees co (.movdw da) with wsr := w } : WCore).next ∧
      (∀ i, 18 ≤ i → i < 24 → w.getLsbD i = ((s.seen co).dr da).getLsbD i) ∧ w.getLsbD 3 = ((s.seen co).dr da).getLsbD 3 ∧
      (∀ n < 4, (w >>> (8 + 2 * n)).setWidth 2 =
        let m := (((s.seen co).dr da) >>> (8 + 2 * n)).setWidth 2
        if m = 3#2 then 0#2 else m) ∧
      (∀ i, 4 ≤ i → i < 8 → w.getLsbD i = (isW (coreKey co) && ((s.seen co).dr da).getLsbD i)) ∧
      (∀ i, i < 3 ∨ 16 ≤ i ∧ i < 18 ∨ 24 ≤ i → w.getLsbD i = false)) ∧
    s.gives (.movwd co dd) co (.movwd dd) dd 1 (fun c => c.wsr.setWidth 24) (fun c _ => c.fl) ∧
    s.gives (.movrd co dd) co (.movrd dd) dd 1 (fun c => BitVec.ofNat 24 c.rrb.val) (fun c _ => c.fl)) ∧
  (∀ (s : State) (co : Core) (pk : BitVec 4) (cond : BitVec 4) (target : BitVec 14),
    let go := fun (c : WCore) (x : Nat) => ({ c with
      cyc := c.cyc + 2, pc := x, loops := c.loops.dropWhile fun l => !(decide (l.first ≤ x) && decide (x ≤ l.last)) } : WCore)
    s.moves (.br co cond target) co (.br cond target) (fun c => if c.holds cond.toNat then go c target.toNat else c.next) ∧
    s.moves (.jal co pk target) co (.jal pk target) (fun c =>
      go { c with p := tabSet c.p pk.toNat (BitVec.ofNat 16 (c.pc + 1)) } target.toNat) ∧
    s.moves (.jr co pk) co (.jr pk) (fun c => go c ((c.ptr pk).toNat % 16384)) ∧
    (∀ (lc : BitVec 2) (rot : Bool) (count : BitVec 16) (off : BitVec 7),
      (s.seen co).loopBad lc.toNat ((s.seen co).pc + 1 + off.toNat) = false →
      s.moves (.loopi co lc rot count off) co (.loopi lc rot count off) (fun c =>
        if count = 0 then { c with cyc := c.cyc + 1, pc := c.pc + off.toNat + 2 }
        else { c with cyc := c.cyc + 1, pc := c.pc + 1, lc := tabSet c.lc lc.toNat count
                      loops := ⟨lc.toNat, c.pc + 1, c.pc + 1 + off.toNat, rot⟩ :: c.loops })) ∧
    (∀ (lc : BitVec 2) (rot : Bool) (dc : BitVec 6) (e : BitVec 14), (s.seen co).loopBad lc.toNat e.toNat = false →
      s.moves (.loopr co lc rot dc e) co (.loopr lc rot dc e) (fun c =>
        if (c.dr dc).setWidth 16 = 0#16 then { c with cyc := c.cyc + 1, pc := e.toNat + 1 }
        else { c with cyc := c.cyc + 1, pc := c.pc + 1, lc := tabSet c.lc lc.toNat ((c.dr dc).setWidth 16)
                      loops := ⟨lc.toNat, c.pc + 1, e.toNat, rot⟩ :: c.loops })) ∧
    s.moves (.nop co) co .nop (fun c => c.next) ∧
    s.moves (.rot co) co .rot (fun c => ({ c with rrb := ⟨(c.rrb.val + 47) % 48, Nat.mod_lt _ (by decide)⟩ } : WCore).next))

/-- Parts of R245, R310: an instruction that its core cannot fetch, decode or run faults: the core stops before it
with the code and the pc latched, its task ends with BAD_ARGUMENT, and no data register takes a new result. A LOOP
that its rules forbid faults with code 3. -/
def Obligations.WickFaults : Prop :=
  (∀ (s : State) (co : Core) (code : Nat), s.canIssue (coreKey co) = true → s.fetchW (coreKey co) = (code, none) → code ≠ 0 →
    ∀ x ∈ [Instr.nop co, .halt co, .twait co, .fence co, .rot co], ∃ u, exec x s = .next u ∧
      (u.core (coreKey co)).st = .faulted ∧ (u.core (coreKey co)).fault = true ∧ (u.core (coreKey co)).faultCode = code ∧
      (u.core (coreKey co)).faultPc = (s.core (coreKey co)).pc ∧ (u.core (coreKey co)).pc = (s.core (coreKey co)).pc ∧
      (u.core (coreKey co)).task = none ∧ (u.core (coreKey co)).d = ((s.core (coreKey co)).drain).d) ∧
  ∀ (s : State) (co : Core) (lc : BitVec 2) (rot : Bool), let k := coreKey co
    let bad := fun (x : Instr) (i : WInstr) (e : Nat) => s.issues co i → (s.seen co).loopBad lc.toNat e = true →
      ∃ u, exec x s = .next u ∧ (u.core k).st = .faulted ∧ (u.core k).fault = true ∧ (u.core k).faultCode = 3 ∧
        (u.core k).faultPc = (s.core k).pc ∧ (u.core k).pc = (s.core k).pc ∧ (u.core k).loops = (s.core k).loops
    (∀ (count : BitVec 16) (off : BitVec 7), bad (.loopi co lc rot count off) (.loopi lc rot count off)
      ((s.seen co).pc + 1 + off.toNat)) ∧
    (∀ (dc : BitVec 6) (e : BitVec 14), bad (.loopr co lc rot dc e) (.loopr lc rot dc e) e.toNat)

/-- Parts of R231, R260, R261, R275 to R277, R307: HALT lands what is in flight and stops the core; TWAIT and TEND
leave it waiting for a dispatch, TEND after ending its task and advancing the task's generation; TID, DMAST and DMAWT
deliver, and DMAWT on a busy channel waits at its pc; FENCE goes on when no store is held; DMA starts an idle channel.
A FENCE or TEND behind a held store, and a DMA on a busy channel, do not issue. Completes: HALT, TWAIT, FENCE, TEND,
TID, DMAST, DMAWT, DMA. -/
def Obligations.WickSystem : Prop :=
  ∀ (s : State) (co : Core) (d : BitVec 6) (ch : BitVec 2) (out : Bool) (mode : BitVec 2) (pk : BitVec 4) (n : BitVec 5),
    let chan := fun (c : WCore) => tabGet ({} : DmaCh) c.dma ch.toNat
    s.moves (.halt co) co .halt (fun c => { c.next with st := .halted, inflight := [], d := c.drain.d }) ∧
    s.moves (.twait co) co .twait (fun c => { c.drain.next with wait := some .dispatch }) ∧
    ((s.core (coreKey co)).fstHeld = none → s.moves (.fence co) co .fence (fun c => c.drain.next)) ∧
    ((s.core (coreKey co)).fstHeld ≠ none → ∀ x ∈ [(Instr.fence co, WInstr.fence), (.tend co d, .tend d)],
      s.issues co x.2 → exec x.1 s = .next s) ∧
    s.gives (.tid co d) co (.tid d) d 1 (fun c => BitVec.ofNat 24 (c.task.getD 0)) (fun c _ => c.fl) ∧
    s.gives (.dmast co d ch) co (.dmast d ch) d 1
      (fun c => if (chan c).busy then 0x100 else BitVec.ofNat 24 (chan c).code.val) (fun c _ => c.fl) ∧
    s.moves (.dmawt co d ch) co (.dmawt d ch) (fun c =>
      if (chan c).busy then { c with wait := some (.dma ch.toNat d) }
      else (c.put d (BitVec.ofNat 24 (chan c).code.val)).next) ∧
    ((chan (s.core (coreKey co))).busy = false → s.moves (.dma co ch out mode pk n d) co (.dma ch out mode pk n d) (fun c =>
      ({ c with dma := tabSet c.dma ch.toNat (⟨true, out, mode.toNat, (c.dr (pairHi n)).toNat % 4096 * 2 ^ 24 +
        (c.dr (pairLo n)).toNat, (c.ptr pk).toNat, (c.dr d).toNat % 8192, .ok⟩ : DmaCh) } : WCore).next)) ∧
    ((chan (s.core (coreKey co))).busy = true → s.issues co (.dma ch out mode pk n d) →
      exec (.dma co ch out mode pk n d) s = .next s) ∧
    (s.issues co (.tend d) → (s.core (coreKey co)).fstHeld = none → ∃ u i, (s.core (coreKey co)).task = some i ∧
      exec (.tend co d) s = .next u ∧ (u.core (coreKey co)).task = none ∧
      (u.core (coreKey co)).wait = some .dispatch ∧ (u.core (coreKey co)).loops = [] ∧
      (u.core (coreKey co)).d = (s.seen co).drain.d ∧ (u.desc i).gen = (s.desc i).gen + 1 ∧
      (∀ j, j ≠ coreKey co → u.core j = s.core j))

/-- Parts of R230, R231, R279: FLD delivers a word of memory, or after a bus error 0xFFFFFF and 0x0000FF; FST stores
one and a bus error drops it; neither issues behind a held store. A transfer of a core in service moves COUNT words
between memory and local memory in its pack mode, delivers its code, and ends the DMAWT that waits for it. It rests on
the model's choices in assumptions 59, 162. Completes: FLD, FST, DMA_COMPLETE, DMA. -/
def Obligations.WickFabric : Prop :=
  ∀ (s : State) (t : Nat) (co : Core) (m n : BitVec 5) (a : Nat), a = (s.seen co).pairAddr n / 4 * 4 →
    (s.issues co (.fld m n) → (s.core (coreKey co)).fstHeld = none → inMemory a = true →
      ∃ u, exec (.fld t co m n) s = .next u ∧ u.mem = s.mem ∧ u.core (coreKey co) = ((s.sees co (.fld m n)).putPair m
        (match s.load a 4 with
          | some bs => leNat bs
          | none => 0xFFFFFFFF)).next) ∧
    (s.issues co (.fst m n) → (s.core (coreKey co)).fstHeld = none → inMemory a = true →
      ∃ u, exec (.fst t co m n) s = .next u ∧ u.core (coreKey co) = (s.sees co (.fst m n)).next ∧
        s.bytesBut u a 4 ∧ (s.memOk a = false → u.mem = s.mem) ∧ (s.memOk a = true → Memory.wf s.mem = true →
          ∀ j < 4, u.byte (a + j) = BitVec.ofNat 8 ((s.seen co).pairWord m / 2 ^ (8 * j)))) ∧
    ((s.core (coreKey co)).fstHeld ≠ none → ∀ x ∈ [(Instr.fld t co m n, WInstr.fld m n), (.fst t co m n, .fst m n)],
      s.issues co x.2 → exec x.1 s = .next (s.at t)) ∧
    (∀ (k : Core) (ch : Fin 4) (h : DmaCh), s.runs (coreDomain (coreKey k)) → s.coreIn (coreKey k) = true →
      tabGet ({} : DmaCh) (s.core (coreKey k)).dma ch.val = h → h.busy = true → ∃ u c,
        exec (.dmaComplete t k ch) s = .next u ∧
        tabGet ({} : DmaCh) (u.core (coreKey k)).dma ch.val = { h with busy := false, code := c } ∧
        (∀ j, j ≠ coreKey k → u.core j = s.core j) ∧ u.regs = s.regs ∧
        (∀ x d, (s.core (coreKey k)).wait = some (.dma x d) → x = ch.val → (u.core (coreKey k)).wait = none ∧
          (u.core (coreKey k)).phys (physReg (s.core (coreKey k)).rrb d.toNat) = BitVec.ofNat 24 c.val) ∧
        (h.bad = true → c = .badArgument ∧ u.mem = s.mem ∧ (u.core (coreKey k)).dmem = (s.core (coreKey k)).dmem) ∧
        (h.bad = false → h.outbound = true → s.memOk h.fabric = true → s.memOk (h.fabric + (4 * h.count - 1)) = true →
          c = .ok ∧ s.bytesBut u h.fabric (4 * h.count) ∧ (Memory.wf s.mem = true → ∀ j < h.count,
            cellsRead memZero u.mem (h.fabric + 4 * j) 4 = dmaOut (s.core (coreKey k)) (coreKey k) h.mode h.loc j)) ∧
        (h.bad = false → h.outbound = true → (s.memOk h.fabric = false ∨ s.memOk (h.fabric + (4 * h.count - 1)) = false) →
          c = .fenced ∧ u.mem = s.mem) ∧
        (∀ bs, h.bad = false → h.outbound = false → s.load h.fabric (4 * h.count) = some bs →
          c = .ok ∧ u.mem = s.mem ∧ ∀ j < h.count, ∀ i v, (dmaIn h.mode (leNat ((bs.drop (4 * j)).take 4)))[i]? = some v →
            (u.core (coreKey k)).ld (coreKey k)
              (h.loc + (if h.mode = 0 then 1 else if h.mode = 1 then 2 else 4) * j + i) = v) ∧
        (h.bad = false → h.outbound = false → s.load h.fabric (4 * h.count) = none → c = .fenced ∧ u.mem = s.mem))

/-- Parts of R220, R229, R232, R249 to R251: RUN 1 starts a halted core that has an image at ENTRY with its registers
cleared, and is refused without one; RUN 0 halts it. The memory windows read and write the addressed word; a write of
instruction memory ends in a bus error while the core runs and for Wick code. IMAGE_LOAD begins in steps, is refused
while a load or a target runs, and its last step marks every target loaded. It rests on the model's choices in
assumptions 60, 61, 162. Completes: WICK_RUN, WICK_HALT_REQUEST, DMEM_DATA_ACCESS, IMEM_DATA_WRITE, LANTERN_RUN,
IMAGE_LOAD, LONG_OPERATION_STEP. -/
def Obligations.CoreControl : Prop :=
  ∀ (s : State) (t : Nat) (by_ : Ini) (n : Fin 64) (v : Word),
    (s.opens by_ (WICK_CTL n) → s.inService (coreUnit n) = true →
      ((s.core n).running = false → (s.core n).loaded = true → ∃ u, exec (.wickRun t by_ n) s = .next u ∧
        (u.core n).st = .running ∧ (u.core n).pc = (s.core n).entry ∧ (u.core n).d = [] ∧ (u.core n).acc = [] ∧
        (u.core n).p = [] ∧ (u.core n).loops = [] ∧ (u.core n).wsr = 0xA8 ∧ (u.core n).wait = none ∧
        (u.core n).task = none ∧ (u.core n).dmem = (s.core n).dmem ∧ (u.core n).imem = (s.core n).imem ∧
        (∀ j, j ≠ n.val → u.core j = s.core j) ∧ u.regs = s.regs ∧ u.mem = s.mem) ∧
      ((s.core n).running = false → (s.core n).loaded = false → ∃ u, exec (.wickRun t by_ n) s = .next u ∧
        u.core n = { s.core n with startRefused := true } ∧ u.regs = s.regs ∧ u.mem = s.mem) ∧
      ((s.core n).running = true → ∃ u, exec (.wickHaltRequest t by_ n) s = .next u ∧ (u.core n).st = .halted ∧
        (u.core n).task = none ∧ (u.core n).frames = [] ∧ (u.core n).wait = none ∧
        ((s.core n).task = none → (s.core n).frames = [] → (∀ j, j ≠ n.val → u.core j = s.core j) ∧ u.regs = s.regs ∧
          u.mem = s.mem))) ∧
    (s.opens by_ (WICK_DMEM_DATA n) → s.inService (coreUnit n) = true →
      (∃ u, exec (.dmemDataAccess t by_ n (some v)) s = .next u ∧
        u.core n = { s.core n with dmem := tabSet (s.core n).dmem (s.rf (WICK_DMEM_ADDR n) 15 0) (v.setWidth 24) } ∧
        s.regsBut u [WICK_DMEM_ADDR n] ∧ u.mem = s.mem ∧ u.rf (WICK_DMEM_ADDR n) 15 0 =
          (s.rf (WICK_DMEM_ADDR n) 15 0 + if s.rb (WICK_DMEM_ADDR n) 31 then 1 else 0) % 65536)) ∧
    (s.opensRead by_ (WICK_DMEM_DATA n) → s.inService (coreUnit n) = true →
      (∃ u, exec (.dmemDataAccess t by_ n none) s = .next u ∧ u.cores = s.cores ∧ s.regsBut u [WICK_DMEM_ADDR n] ∧
        u.mem = s.mem ∧ tabGet BusResp.none u.resp (iniIdx by_) =
          .data (((tabGet 0 (s.core n).dmem (s.rf (WICK_DMEM_ADDR n) 15 0)).signExtend 32).toNat))) ∧
    (s.opens by_ (WICK_IMEM_DATA n) → s.inService (coreUnit n) = true →
      ((s.core n).running = false → fromCode by_ = false → ∃ u, exec (.imemDataWrite t by_ n v) s = .next u ∧
        u.core n = { s.core n with imem := tabSet (s.core n).imem (s.rf (WICK_IMEM_ADDR n) 13 0) v } ∧
        s.regsBut u [WICK_IMEM_ADDR n] ∧ u.mem = s.mem) ∧
      ((s.core n).running = true ∨ fromCode by_ = true → exec (.imemDataWrite t by_ n v) s =
        .next (((s.at t).writeError by_ (WICK_IMEM_DATA n)).answer by_ .error))) ∧
    (∀ k : Fin 6, s.opens by_ (LANT_RUN k) → s.inService (coreUnit (64 + k)) = true →
      ((s.core (64 + k)).running = false → (s.core (64 + k)).loaded = true →
        ∃ u, exec (.lanternRun t by_ k true) s = .next u ∧
        (u.core (64 + k)).st = .running ∧ (u.core (64 + k)).pc = (s.core (64 + k)).entry ∧
        (u.core (64 + k)).wsr = 0x08 ∧ (∀ j, j ≠ 64 + k.val → u.core j = s.core j) ∧ u.regs = s.regs ∧ u.mem = s.mem) ∧
      ((s.core (64 + k)).running = true → ∃ u, exec (.lanternRun t by_ k false) s = .next u ∧
        (u.core (64 + k)).st = .halted ∧ (u.core (64 + k)).wait = none)) ∧
    (∀ ks, ks = s.loadKeys v → s.opens by_ WICK_LOAD_CMD →
      (fld v 31 28 = 1 → ks ≠ [] → s.loader = none →
        ks.all (fun k => !(s.core k).running && s.coreIn k) = true → ∃ u l, exec (.imageLoad t by_ v) s = .next u ∧
        u.loader = some l ∧ l.keys = ks ∧ l.words = [] ∧ l.written = none ∧ u.latch by_ WICK_LOAD_RES = 8 ∧
        u.cores = s.cores ∧ u.mem = s.mem) ∧
      (fld v 31 28 = 1 → ks ≠ [] → (s.loader ≠ none ∨ ks.any (fun k => (s.core k).running) = true) →
        exec (.imageLoad t by_ v) s = .next (((s.at t).result by_ WICK_LOAD_RES .refused).answer by_ .done)) ∧
      (fld v 31 28 ≠ 1 ∨ ks = [] →
        exec (.imageLoad t by_ v) s = .next (((s.at t).result by_ WICK_LOAD_RES .badArgument).answer by_ .done))) ∧
    (∀ (l : LoadOp) (w : Nat), s.runs 20 → s.loader = some l → l.written = some w → l.keys.all s.coreIn = true →
      (s.load l.src (4 * l.words.length)).isSome = true → (imgWrites l.words).length ≤ w + 2048 →
      ∃ u, exec (.longOperationStep t .load) s = .next u ∧ u.loader = none ∧ u.mem = s.mem ∧
        (∀ k ∈ l.keys, (u.core k).loaded = true ∧ (u.core k).entry = imgAt l.words 8 % 16384) ∧
        tabGet 0 u.latches (l.by_ * 0x10000000000 + WICK_LOAD_RES) = (0 : Word))

/-- Parts of R280, R281: the tm registers. TNOW takes network time; TGET and TPUT move 24-bit parts (16 bits of part
2); TADD adds a signed register, times 1000 under U; TSUB saturates; TWAITU waits until network time reaches the
target. Completes: TNOW, TGET, TPUT, TADD, TSUB, TMOV, TWAITU, TWAITU_COMPLETE. -/
def Obligations.LanternTime : Prop :=
  ∀ (s : State) (t : Nat) (co : Core) (k j p : BitVec 2) (d : BitVec 6) (ub : Bool),
    (s.issues co (.tnow k) → ∃ u, exec (.tnow t co k) s = .next u ∧ (s.at t).coreOnly u (coreKey co) ∧
      u.core (coreKey co) = ({ s.sees co (.tnow k) with
        tm := tabSet (s.seen co).tm k.toNat (BitVec.ofInt 64 (s.at t).now) } : WCore).next) ∧
    s.gives (.tget co d k p) co (.tget d k p) d 1 (fun c => (c.tmr k).extractLsb' (24 * p.toNat) 24) (fun c _ => c.fl) ∧
    (s.issues co (.tput d k p) → ∃ u v, exec (.tput co d k p) s = .next u ∧ s.coreOnly u (coreKey co) ∧
      u.core (coreKey co) = ({ s.sees co (.tput d k p) with tm := tabSet (s.seen co).tm k.toNat v } : WCore).next ∧
      ∀ i < 64, v.getLsbD i = if 24 * p.toNat ≤ i ∧ i < 24 * p.toNat + 24 then
        ((s.seen co).dr d).getLsbD (i - 24 * p.toNat) else ((s.seen co).tmr k).getLsbD i) ∧
    s.moves (.tadd co k j d ub) co (.tadd k j d ub) (fun c => ({ c with
      tm := tabSet c.tm k.toNat (c.tmr j + BitVec.ofInt 64 ((c.dr d).toInt * if ub then 1000 else 1)) } : WCore).next) ∧
    s.gives (.tsub co d k j) co (.tsub d k j) d 1
      (fun c => BitVec.ofInt 24 (clampI (-8388608) 8388607 (c.tmr k - c.tmr j).toInt))
      (fun c _ => ⟨c.tmr k == c.tmr j, (c.tmr k - c.tmr j).msb, c.fC, decide ((c.tmr k - c.tmr j).toInt < -8388608 ∨
        8388607 < (c.tmr k - c.tmr j).toInt), false, false⟩) ∧
    s.moves (.tmov co k j) co (.tmov k j) (fun c => ({ c with tm := tabSet c.tm k.toNat (c.tmr j) } : WCore).next) ∧
    (s.issues co (.twaitu k) → ∃ u, exec (.twaitu t co k) s = .next u ∧ (s.at t).coreOnly u (coreKey co) ∧
      u.core (coreKey co) = if (BitVec.ofInt 64 (s.at t).now - (s.seen co).tmr k).msb
        then { s.sees co (.twaitu k) with wait := some (.time ((s.seen co).tmr k)) }
        else (s.sees co (.twaitu k)).drain.next) ∧
    (∀ (n : Fin 6) (v : BitVec 64), s.runs 13 → s.inService (coreUnit (64 + n)) = true →
      (s.core (64 + n)).wait = some (.time v) → ∃ u, exec (.twaituComplete t n) s = .next u ∧
        (s.at t).coreOnly u (64 + n) ∧ u.core (64 + n) = if (BitVec.ofInt 64 (s.at t).now - v).msb then s.core (64 + n)
          else ({ (s.core (64 + n)).drain with wait := none } : WCore).next)

/-- Parts of R105, R208, R282 to R285: a radio command that its lamp accepts delivers OK and the Lantern's next tag,
whose result is then pending; another delivers its code, and a reserved KIND or field BAD_ARGUMENT. A gap offer that
R105 lets pass and that is free of reservations is kept; another delivers its code. RSTAT delivers a final code, or
0x100, or waits at its pc. PLACE fills three tm registers and the result pair, or delivers a code and 0. It rests on
the model's choices in assumptions 88, 89, 90. Completes: RCMD_TRANSMIT, RCMD_GAP_OFFER, RSTAT, PLACE. -/
def Obligations.LanternRadio : Prop :=
  ∀ (s : State) (t : Nat) (n : Fin 6) (dd ds : BitVec 6) (pk : BitVec 4) (ts td tu : BitVec 2) (c : WCore) (v : State),
    let co := Core.lantern n
    let k := 64 + n.val
    let tag := tabGet 0 s.rtagCnt n
    c = { s.seen co with waited := 0 } → v = (s.at t).setCore k c →
    (∀ (x : TxCmd) (q : State) (y : Code), s.issues co (.rcmd dd pk ts td) → c.param k pk 0 / 2 ^ 22 = 0 →
      c.rcmdZero k pk = true → x = v.rcmdTx k c pk ts td → v.rcmdHand (v.txLamp (n / 2) x.ofs) x = (q, y) →
      ∃ u, exec (.rcmdTransmit t co dd pk ts td) s = .next u ∧ u.mem = s.mem ∧ u.lamps = q.lamps ∧
        u.core k = (c.put dd (BitVec.ofNat 24 (y.val + if y = .ok then tag % 16 * 256 else 0))).next ∧
        (y = .ok → tabGet 0 u.rtagCnt n = tag + 1 ∧ tabGet (some .badArgument) u.rtags (n * 16 + tag % 16) = none)) ∧
    (s.issues co (.rcmd dd pk ts td) → c.param k pk 0 / 2 ^ 22 = 1 ∨ c.param k pk 0 / 2 ^ 22 = 3 ∨
        (c.param k pk 0 / 2 ^ 22 = 0 ∧ c.rcmdZero k pk = false) →
      ∃ u, exec (.rcmdTransmit t co dd pk ts td) s = .next u ∧ u.core k = (c.put dd 11).next ∧ u.mem = s.mem ∧
        u.lamps = s.lamps) ∧
    (∀ (x : TxCmd) (m : Nat), s.issues co (.rcmd dd pk ts td) → c.param k pk 0 / 2 ^ 22 = 2 → c.rcmdZero k pk = true →
      x = v.rcmdTx k c pk ts td → m = v.txLamp (n / 2) x.ofs →
      (v.txJudge m x (.ok 0) = .ok 0 → v.gapClash m x.s x.d = false →
        ∃ u, exec (.rcmdGapOffer t co dd pk ts td) s = .next u ∧ u.mem = s.mem ∧
        (u.lamp m).gaps = (s.lamp m).gaps ++ [⟨x.owner, x.s, x.d, x.d⟩] ∧ (u.lamp m).queue = (s.lamp m).queue ∧
        u.core k = (c.put dd (BitVec.ofNat 24 (tag % 16 * 256))).next) ∧
      (∀ y : Code, (v.txJudge m x (.ok 0) = .error y) ∨
          (v.txJudge m x (.ok 0) = .ok 0 ∧ v.gapClash m x.s x.d = true ∧ y = .refused) →
        ∃ u, exec (.rcmdGapOffer t co dd pk ts td) s = .next u ∧ u.mem = s.mem ∧ u.lamps = s.lamps ∧
          u.core k = (c.put dd (BitVec.ofNat 24 y.val)).next)) ∧
    (∀ wait : Bool, s.issues co (.rstat dd ds wait) → ∃ u, exec (.rstat t co dd ds wait) s = .next u ∧
      (s.at t).coreOnly u k ∧ u.core k = match s.tagRead n ((c.dr ds).toNat % 16) with
        | some r => (if wait then c.put dd (BitVec.ofNat 24 r.val) else c.res dd (BitVec.ofNat 24 r.val) 1).next
        | none => if wait then { c with wait := some (.radio ((c.dr ds).toNat % 16) dd) } else (c.res dd 0x100 1).next) ∧
    (∀ (r b : BitVec 5) (ovr : Bool) (cls : BitVec 3) (q : State) (y : Code),
      s.issues co (.place r ds b ovr cls ts td tu) → (v.event 170).instEntry (c.dr ds).toNat eActive = (q, .error y) →
      ∃ u, exec (.place t co r ds b ovr cls ts td tu) s = .next u ∧ u.mem = q.mem ∧
        u.core k = ((c.put (pairLo r) (BitVec.ofNat 24 y.val)).put (pairHi r) 0).next) ∧
    (∀ (r b : BitVec 5) (ovr : Bool) (cls : BitVec 3) (q : State) (e : List Word),
      s.issues co (.place r ds b ovr cls ts td tu) → (v.event 170).instEntry (c.dr ds).toNat eActive = (q, .ok e) →
      ∃ u, exec (.place t co r ds b ovr cls ts td tu) s = .next u ∧ u.mem = q.mem ∧
        match q.placeOf e (c.pairWord b) (if ovr then cls.toNat else eFld e 10 7 5) with
        | some p => u.core k = (((((c.setTm ts (BitVec.ofInt 64 p.s)).setTm td (BitVec.ofInt 64 p.d)).setTm tu
            (BitVec.ofInt 64 p.u)).put (pairLo r) (BitVec.ofNat 24 (p.wide.toNat * 256 + wrap 27 p.ofs / 2 ^ 24 * 512))).put
            (pairHi r) (BitVec.ofNat 24 (wrap 27 p.ofs))).next
        | none => u.core k = ((c.put (pairLo r) 11).put (pairHi r) 0).next)

/-- Parts of R209, R211, R212, R214, R286, R287: BUILD takes the entry's next downlink number, seals the frame under
its key and writes its image; a downlink carries the head message of the queue and counts its attempt; a beacon takes
the next beacon number, one whose stamp point has passed ends with DEADLINE_MISSED, and one whose key and EPOCH have
served every number with KEY_SPENT. NBR reads any entry and writes WAKE_NEXT of an active one, no other word; with no
such entry it delivers the code. It rests on the model's choices in assumptions 91, 160. Completes: BUILD_POLL,
BUILD_DOWNLINK, BUILD_BEACON, NBR_INSTR_READ, NBR_INSTR_WRITE. -/
def Obligations.LanternBuild : Prop :=
  ∀ (s : State) (t : Nat) (n : Fin 6) (dd : BitVec 6) (pk : BitVec 4) (tm : BitVec 2) (c : WCore) (v q : State)
    (e : List Word),
    let co := Core.lantern n
    let k := 64 + n.val
    let w0 := c.param k pk 0
    let i := c.param k pk 1
    c = { s.seen co with waited := 0 } → v = (s.at t).setCore k c → e.length = 16 →
    (∀ (r y : State) (x : List Nat) (hdr : Word), let seq := eDseq e + 1
      s.issues co (.build dd pk tm) → w0 / 2 ^ 21 = 1 → c.buildZero k pk = true →
      (v.event 167).instEntry i eActive = (q, .ok e) → eBit e 1 29 = false → eDseq e ≠ 0xFFFFFF →
      q.encryptNow (q.keyrefOf (eKeyref e) (eEpoch e)) (eEpoch e) (w0.testBit 8)
        (if (if w0.testBit 20 then linkOf w0 else linkOfEntry e).mic16 then 16 else 8) 2 = (r, .ok x) →
      hdr = headerOf 1 0 0 1 (if w0.testBit 20 then linkOf w0 else linkOfEntry e).mic16 (eWord e 0).toNat seq →
      (r.nbrPut i (eSet (eSet e 5 23 0 seq) 1 25 25 0)).store (c.imgOf k pk 2)
        (imageOf (if w0.testBit 20 then linkOf w0 else linkOfEntry e) hdr (sealFrame x hdr (eWord e 0).toNat (eEpoch e) seq
          [(w0.testBit 9).toNat, w0 % 256])) = some y →
      ∃ u, exec (.buildPoll t co dd pk tm) s = .next u ∧ u.mem = y.mem ∧ u.core k = (c.put dd 0).next ∧
        (u.nbrFetch i).2 = some (eSet (eSet e 5 23 0 seq) 1 25 25 0)) ∧
    (∀ d : State × List Word, s.issues co (.build dd pk tm) → w0 / 2 ^ 21 = 2 → c.buildZero k pk = true →
      (v.event 168).instEntry i eActive = (q, .ok e) → eBit e 1 29 = false → d = q.dropMsgs 65535 e →
      (eHead d.2 = 0xFFFF → ∃ u, exec (.buildDownlink t co dd pk tm) s = .next u ∧ u.core k = (c.put dd 6).next ∧
        (u.nbrFetch i).2 = some d.2) ∧
      (∀ (w r : State) (m j : Nat) (h : List Word) (p : List Byte) (x : List Nat), let seq := eDseq d.2 + 1
        w = d.1.nbrPut i d.2 → w.msgHead d.2 = some (j, some h) → m = w.msgAt j → w.load (m + 16) (eFld h 1 15 0) = some p →
        eDseq d.2 ≠ 0xFFFFFF → w.encryptNow (w.keyrefOf (eKeyref d.2) (eEpoch d.2)) (eEpoch d.2) (w0.testBit 8)
          (if (if w0.testBit 20 then linkOf w0 else linkOfEntry d.2).mic16 then 16 else 8) p.length = (r, .ok x) →
        r.memOk (m + 1) = true → ∃ u y, exec (.buildDownlink t co dd pk tm) s = .next u ∧
          (u.nbrFetch i).2 = some (eSet (eSet d.2 5 23 0 seq) 1 25 25 1) ∧ y ∈ [Code.ok, .fenced] ∧
          u.core k = (c.put dd (BitVec.ofNat 24 y.val)).next ∧
          (y = .ok → Memory.wf r.mem = true → u.byte (m + 1) = BitVec.ofNat 8 (eFld h 0 15 8 + 1)))) ∧
    (∀ st : Int, st = (c.tmr tm).toInt + symNs 64 (linkOf w0).cls → s.issues co (.build dd pk tm) → w0 / 2 ^ 21 = 4 →
      w0.testBit 20 = true → c.buildZero k pk = true → s.rb NBR_CTL 31 = true →
      (st < (s.at t).now → ∃ u, exec (.buildBeacon t co dd pk tm) s = .next u ∧ u.core k = (c.put dd 5).next ∧
        u.mem = s.mem ∧ u.reg LANT_BCN_SEQ = s.reg LANT_BCN_SEQ) ∧
      ((s.at t).now ≤ st → s.bcnSpent = true → ∃ u, exec (.buildBeacon t co dd pk tm) s = .next u ∧
        u.core k = (c.put dd 3).next ∧ u.mem = s.mem ∧ u.reg LANT_BCN_SEQ = s.reg LANT_BCN_SEQ) ∧
      (∀ (r : State) (x : List Nat), (s.at t).now ≤ st → s.bcnSpent = false → (v.event 169).encryptNow (false, s.rf LANT_BCN_CTL 10 0)
          (s.rf LANT_BCN_CTL 31 24) (w0.testBit 8) 8 12 = (r, .ok x) → ∃ u y, exec (.buildBeacon t co dd pk tm) s = .next u ∧
        y ∈ [Code.ok, .fenced] ∧ u.core k = (c.put dd (BitVec.ofNat 24 y.val)).next ∧
        (u.reg LANT_BCN_SEQ).toNat = (r.rf LANT_BCN_SEQ 23 0 + 1) % 2 ^ 24)) ∧
    (∀ (r : BitVec 5) (w : BitVec 4) (dc : BitVec 6), s.issues co (.nbr r dd false w dc) →
      v.instEntry (c.dr dd).toNat (fun e => eState e != 0) = (q, .ok e) →
      ∃ u, exec (.nbrInstrRead t co r dd w dc) s = .next u ∧ u.mem = q.mem ∧ u.lant = q.lant ∧
        u.core k = ((c.putPair r (eWord e w.toNat).toNat).put dc 0).next) ∧
    (∀ (r : BitVec 5) (w : BitVec 4) (dc : BitVec 6) (y : Code), s.issues co (.nbr r dd false w dc) →
      v.instEntry (c.dr dd).toNat (fun e => eState e != 0) = (q, .error y) →
      ∃ u, exec (.nbrInstrRead t co r dd w dc) s = .next u ∧ u.mem = q.mem ∧
        u.core k = (c.put dc (BitVec.ofNat 24 y.val)).next) ∧
    (∀ (r : BitVec 5) (w : BitVec 4) (dc : BitVec 6), w ≠ 11 → s.issues co (.nbr r dd true w dc) →
      v.instEntry (c.dr dd).toNat eActive = (q, .ok e) →
      ∃ u, exec (.nbrInstrWrite t co r dd w dc) s = .next u ∧ u.mem = q.mem ∧ u.core k = (c.put dc 11).next ∧
        (u.nbrFetch (c.dr dd).toNat).2 = some e) ∧
    (∀ (r : BitVec 5) (dc : BitVec 6), s.issues co (.nbr r dd true 11 dc) →
      v.instEntry (c.dr dd).toNat eActive = (q, .ok e) →
      ∃ u, exec (.nbrInstrWrite t co r dd 11 dc) s = .next u ∧ u.mem = q.mem ∧ u.core k = (c.put dc 0).next ∧
        (u.nbrFetch (c.dr dd).toNat).2 = some (e.set 11 (BitVec.ofNat 32 (c.pairWord r))))

/-- Parts of R20, R23, R346 to R353, R361: a transaction comes to its initiator's port; one to a rank in service
enters the queue while the port has a place and holds nothing earlier outside, else it waits outside, and one to
another rank ends in a bus error. A lone write changes the enabled bytes only and a lone read returns the bytes; an
uncorrectable read returns none and marks its granule. Serving keeps the memory in its form. Scrubbing off, or its
budget spent, reads nothing; else it reads the next granule and counts passes and corrections. It rests on the model's
choices in assumption 70. Completes: DRAM_TRANSACTION, PATROL_SCRUB. -/
def Obligations.DramTransactions : Prop :=
  ∀ (s : State) (t : Nat), s.runs 22 →
    (∀ (y : DramIni) (a : Nat) (op : DramOp) (x : DmcTx),
      (∃ n, op = .readArrives y a n ∧ x = ⟨s.dmc.nextId, iniPort y, a, n, none, (s.at t).clk, false⟩) ∨
        (∃ bs, op = .writeArrives y a bs ∧ x = ⟨s.dmc.nextId, iniPort y, a, bs.length, some bs, (s.at t).clk, false⟩) →
      ∃ u, exec (.dramTransaction t op) s = .next u ∧ u.mem = s.mem ∧ u.regs = s.regs ∧
        u.dmc.nextId = s.dmc.nextId + 1 ∧
        (inDram a = true → s.rankIn (rankOf a) = true → s.placeFree x.port = true →
          (∀ z ∈ s.dmc.outside, z.port ≠ x.port) → u.dmc.queue = queueIn x s.dmc.queue ∧
            u.dmc.outside = s.dmc.outside ∧
            ((∀ z ∈ s.dmc.queue, fabCycle z.arrived ≠ fabCycle x.arrived) → u.dmc.queue = s.dmc.queue ++ [x])) ∧
        (inDram a = true → s.rankIn (rankOf a) = true →
          (s.placeFree x.port = false ∨ ∃ z ∈ s.dmc.outside, z.port = x.port) →
          u.dmc.queue = s.dmc.queue ∧ u.dmc.outside = s.dmc.outside ++ [x]) ∧
        (inDram a = false ∨ s.rankIn (rankOf a) = false → u.dmc.queue = s.dmc.queue ∧ u.dmc.outside = s.dmc.outside ∧
          u.dmc.served = some (s.dmc.nextId, none))) ∧
    (∀ (x : DmcTx) (e : Ecc), s.dmc.queue = [x] → s.dmc.outside = [] → s.dmc.selfRefresh = false →
      (s.at t).zqBlocks (rankOf x.addr) = false →
      ∃ u, exec (.dramTransaction t (.serve e)) s = .next u ∧ u.dmc.queue = [] ∧ (s.formed → u.formed) ∧
        (∀ bs, x.wr = some bs → Memory.wf s.mem = true → u.dmc.served = some (x.id, some []) ∧
          ∀ j, u.byte j = if x.addr ≤ j ∧ j < x.addr + bs.length then ((bs[j - x.addr]?).getD none).getD (s.byte j)
            else s.byte j) ∧
        (x.wr = none → u.mem = s.mem) ∧
        (x.wr = none → s.dmc.poison.contains (x.addr / 64) = false → (∀ b y, e ≠ .uncorrectable b y) →
          u.dmc.served = some (x.id, some ((List.range x.len).map fun j => s.byte (x.addr + j)))) ∧
        (∀ b y, x.wr = none → e = .uncorrectable b y → u.dmc.served = some (x.id, none) ∧
          x.addr / 64 ∈ u.dmc.poison ∧
          (u.reg DMC_CNT_UE).toNat = min 0xFFFFFFFF ((s.reg DMC_CNT_UE).toNat + 1))) ∧
    (∀ (e : Ecc) (w : Bool), s.rb DMC_SCRUB_CTL 31 = false ∨ (s.dmc.scrubMs = (s.at t).clk / 1000000 ∧
        s.rf DMC_SCRUB_CTL 11 0 ≤ s.dmc.scrubN) → exec (.patrolScrub t e w) s = .next (s.at t)) ∧
    (∀ (w : Bool), s.rb DMC_SCRUB_CTL 31 = true → s.dmc.selfRefresh = false → s.rankIn 0 = true → s.rankIn 1 = true →
      s.dmc.scrubMs ≠ (s.at t).clk / 1000000 → s.rf DMC_SCRUB_CTL 11 0 ≠ 0 → s.dmc.scrubPos < 0x8000000 →
      s.dmc.poison = [] →
      (∀ b y, ∃ u, exec (.patrolScrub t (.correctable b y) w) s = .next u ∧ u.mem = s.mem ∧
        (u.reg DMC_CNT_CE).toNat = min 0xFFFFFFFF ((s.reg DMC_CNT_CE).toNat + 1) ∧
        (u.reg DMC_CNT_SCRUB_CE).toNat = min 0xFFFFFFFF ((s.reg DMC_CNT_SCRUB_CE).toNat + if w then 0 else 1)) ∧
      ∃ u, exec (.patrolScrub t .clean w) s = .next u ∧ u.mem = s.mem ∧
        u.dmc.scrubPos = (s.dmc.scrubPos + 1) % 0x8000000 ∧ u.dmc.scrubN = 1 ∧
        (u.reg DMC_CNT_SCRUB_PASS).toNat = min 0xFFFFFFFF ((s.reg DMC_CNT_SCRUB_PASS).toNat +
          if s.dmc.scrubPos = 0x7FFFFFF then 1 else 0))

/-- Parts of R346, R354 to R361, R447: refresh is postponed at most eight times behind level-3 transactions; the
refresh rate follows the lid; a ZQ calibration begins to block its rank; training takes the lowest rank selected,
trains in steps and trains the rank with its 96th, and is refused while one runs; a fourth parity alert fences the
rank; a fence drops the rank's transactions and contents; self-refresh begins when nothing is queued; reservations
above 128 in all are refused. It rests on the model's choices in assumption 69. Completes: REFRESH,
REFRESH_RATE_CHANGE, ZQ_CALIBRATION, DRAM_TRAINING, LONG_OPERATION_STEP, CA_PARITY_ALERT, RANK_FENCE_WRITE,
SELF_REFRESH_REQUEST, SELF_REFRESH_ENTRY, PORT_CFG_WRITE. -/
def Obligations.DramUpkeep : Prop :=
  ∀ (s : State) (t : Nat) (by_ : Ini) (r : Fin 2) (v : Word), s.runs 22 → s.hears by_ = true →
    (∀ a, s.pmpOk by_ .write a 4 = true) →
    (s.rankIn r = true → s.dmc.selfRefresh = false → ∃ u, exec (.refresh t r) s = .next u ∧ u.mem = s.mem ∧
      u.dmc.queue = s.dmc.queue ∧ tabGet 0 u.dmc.postponed r =
        (if (s.at t).level3Waits r then (if tabGet 0 s.dmc.postponed r < 8 then tabGet 0 s.dmc.postponed r + 1
          else tabGet 0 s.dmc.postponed r) else 0) ∧
      (u.reg DMC_CNT_REF_FORCED).toNat = min 0xFFFFFFFF ((s.reg DMC_CNT_REF_FORCED).toNat +
        if (s.at t).level3Waits r ∧ 8 ≤ tabGet 0 s.dmc.postponed r then 1 else 0)) ∧
    (s.dmc.rate < refreshFor s.lid → ∃ u, exec (.refreshRateChange t) s = .next u ∧ u.dmc.rate = refreshFor s.lid ∧
      u.mem = s.mem ∧ u.regs = s.regs) ∧
    (∀ c, s.dmc.coolAt = some c → refreshFor s.lid ≤ s.dmc.rate → c + 1000000000 ≤ (s.at t).clk →
      ∃ u, exec (.refreshRateChange t) s = .next u ∧ u.dmc.rate = s.dmc.rate - 1 ∧ u.mem = s.mem ∧ u.regs = s.regs) ∧
    (s.rankIn r = true → s.dmc.selfRefresh = false → ∃ u, exec (.zqCalibration t r) s = .next u ∧
      tabGet 0 u.dmc.zqAt r = (s.at t).clk ∧ u = { s.at t with dmc := u.dmc }) ∧
    (fld v 31 28 = 1 → fld v 1 0 ≠ 0 → s.dmc.training = none → ∃ u g, exec (.dramTraining t by_ v) s = .next u ∧
      u.dmc.training = some g ∧ g.ranks = BitVec.ofNat 2 (fld v 1 0) ∧ g.steps = 0 ∧
      g.cur = (if bit v 0 then 0 else 1) ∧ u.latch by_ DMC_TRAIN_RES = 8 ∧ u.mem = s.mem ∧ u.regs = s.regs) ∧
    (fld v 31 28 = 1 → fld v 1 0 ≠ 0 → s.dmc.training ≠ none → ∃ u, exec (.dramTraining t by_ v) s = .next u ∧
      u.dmc = s.dmc ∧ u.latch by_ DMC_TRAIN_RES = 10 ∧ u.mem = s.mem ∧ u.regs = s.regs) ∧
    (fld v 31 28 ≠ 1 ∨ fld v 1 0 = 0 → ∃ u, exec (.dramTraining t by_ v) s = .next u ∧
      u.dmc = s.dmc ∧ u.latch by_ DMC_TRAIN_RES = 11 ∧ u.mem = s.mem ∧ u.regs = s.regs) ∧
    (∀ g, s.dmc.training = some g → g.steps = 95 → g.cur = 1 → g.set = none → g.failed = 0 →
      ∃ u, exec (.longOperationStep t (.training false false)) s = .next u ∧ u.mem = s.mem ∧ u.dmc.training = none ∧
        u.dmc.trained1 = true ∧ tabGet 0 u.latches (g.owner * 0x10000000000 + DMC_TRAIN_RES) = (0 : Word)) ∧
    (∀ g, s.dmc.training = some g → 1 ≤ g.steps → g.steps < 95 →
      ∃ u, exec (.longOperationStep t (.training false false)) s = .next u ∧ u.mem = s.mem ∧ u.regs = s.regs ∧
        u.dmc.training = some { g with steps := g.steps + 1, repeated := false, total := g.total + 1 }) ∧
    (∀ again : Bool, s.rankIn r = true → (if again then tabGet 0 s.dmc.alerts r + 1 else 1) < 4 →
      ∃ u, exec (.caParityAlert t r again) s = .next u ∧ u.mem = s.mem ∧ u.dmc.queue = s.dmc.queue ∧
        tabGet 0 u.dmc.alerts r = (if again then tabGet 0 s.dmc.alerts r + 1 else 1) ∧
        (u.reg DMC_CNT_CA_ALERT).toNat = min 0xFFFFFFFF ((s.reg DMC_CNT_CA_ALERT).toNat + 1)) ∧
    (s.rankIn r = true → 3 ≤ tabGet 0 s.dmc.alerts r → s.dmc.training = none →
      ∃ u, exec (.caParityAlert t r true) s = .next u ∧ u.rankIn r = false ∧ u.rb DMC_RANK_CTL r = true ∧
        (∀ x ∈ u.dmc.queue, rankOf x.addr ≠ r)) ∧
    (∀ a, s.dmc.training = none → s.rb DMC_RANK_CTL 0 = false → s.rb DMC_RANK_CTL 1 = bit v 1 → bit v 0 = true →
      ∃ u, exec (.rankFenceWrite t by_ v) s = .next u ∧ u.rb DMC_RANK_CTL 0 = true ∧ u.rankIn 0 = false ∧
        (inDram a = true → rankOf a = 0 → u.byte a = 0) ∧
        (inDram a = false ∨ rankOf a ≠ 0 → u.byte a = s.byte a) ∧ (s.formed → u.formed)) ∧
    (∃ u, exec (.selfRefreshRequest t by_ v) s = .next u ∧ u.reg DMC_CTL = v &&& 6 ∧ u.mem = s.mem ∧
      s.regsBut u [DMC_CTL] ∧ u.dmc.selfRefresh = (s.dmc.selfRefresh && bit v 1)) ∧
    (∃ u, exec (.selfRefreshEntry t) s = .next u ∧ u = { s.at t with dmc := u.dmc } ∧ u.dmc =
      { s.dmc with selfRefresh := s.dmc.selfRefresh || (s.rb DMC_CTL 1 && s.dmc.queue.isEmpty) }) ∧
    (∀ p : Fin 8, fld v 23 16 + (((List.range 8).filter fun q => q ≠ p.val).map s.portReserve).sum ≤ 128 →
      ∃ u, exec (.portCfgWrite t by_ p v) s = .next u ∧ u.rf (DMC_PORT_CFG p) 31 30 = fld v 31 30 ∧
        u.portReserve p = fld v 23 16 ∧ u.portTarget p = max 100 (fld v 15 0) ∧ s.regsBut u [DMC_PORT_CFG p] ∧
        u.mem = s.mem ∧ (s.dmc.outside = [] → u.dmc = s.dmc)) ∧
    (∀ p : Fin 8, 128 < min 128 (fld v 23 16) + (((List.range 8).filter fun q => q ≠ p.val).map s.portReserve).sum →
      ∃ u, exec (.portCfgWrite t by_ p v) s = .next u ∧ u.rb DMC_STATUS 6 = true ∧ s.regsBut u [DMC_STATUS] ∧
        u.mem = s.mem ∧ u.dmc = s.dmc)

/-- Parts of R365 to R373, R376, R377: a port's enable, its link, the frames it receives, its pauses, and MDIO. A
faulty frame is only counted; a good frame of an other EtherType on a permitted VLAN fills the next buffer of receive
ring 0 and its descriptor. A write to a port out of service is a bus error, and an MDIO frame behind one in progress
is refused. It rests on the model's choices in assumptions 95, 99, 100, 147. Completes: PORT_ENABLE, LINK_CHANGE,
FRAME_RECEIVE, PAUSE_END, PAUSE_XOFF, PAUSE_REPEAT, PAUSE_XON, PAUSE_SEND, MDIO, MDIO_DONE. -/
def Obligations.EthernetPorts : Prop :=
  ∀ (s : State) (t : Nat) (by_ : Ini) (p : Fin 5) (v : Word), s.runs 17 →
    (s.opens by_ (EMAC_CTL p) → s.inService (0x30 + p) = false → ∃ u, exec (.portEnable t by_ p v) s = .next u ∧
      tabGet .none u.resp (iniIdx by_) = .error ∧ u.emac = s.emac ∧ u.mem = s.mem ∧
      s.regsBut u [SYS_BUSERR_LO, SYS_BUSERR_HI]) ∧
    (s.inService (0x30 + p) = true →
    (s.opens by_ (EMAC_CTL p) → bit v 0 = true ∨ s.rb (EMAC_CTL p) 0 = false → ∃ u,
      exec (.portEnable t by_ p v) s = .next u ∧ tabGet .none u.resp (iniIdx by_) = .done ∧
      u.rb (EMAC_CTL p) 0 = bit v 0 ∧ u.maxLen p = max 1518 (min 9216 (fld v 29 16)) ∧ u.mem = s.mem ∧
      s.regsBut u [EMAC_CTL p, EMAC_STATUS p] ∧
      (bit v 0 = true → s.rb (EMAC_CTL p) 0 = false → (u.emacOf p).mode = u.rf (EMAC_CTL p) 3 2)) ∧
    (s.opens by_ (EMAC_CTL p) → bit v 0 = false → s.rb (EMAC_CTL p) 0 = true → ∃ u,
      exec (.portEnable t by_ p v) s = .next u ∧
      u.rb (EMAC_CTL p) 0 = false ∧ u.rb (EMAC_STATUS p) 0 = false ∧ u.mem = s.mem) ∧
    (∀ (up half sy as lf rf : Bool) (sp : Fin 3), s.rb (EMAC_CTL p) 0 = true →
      ∃ u, exec (.linkChange t p up half sp sy as lf rf) s = .next u ∧ u.mem = s.mem ∧ u.rb (EMAC_STATUS p) 0 =
        (up && !(decide (p.val < 4 ∧ (s.emacOf p).mode = 2) && s.rb (EMAC_CTL p) 1 && half) &&
          !(decide (p.val < 4 ∧ (s.emacOf p).mode = 0) && lf))) ∧
    (∀ (f : List Byte) (fill sfd c n : Nat), n = f.length → s.rb (EMAC_CTL p) 0 = true → s.rb (EMAC_STATUS p) 0 = true →
      (n < 64 ∧ c = 26) ∨ (64 ≤ n ∧ s.maxLen p + (if fTagged f then 4 else 0) < n ∧ c = 27) ∨
        (64 ≤ n ∧ n ≤ s.maxLen p ∧ f.drop (n - 4) ≠ leBytes 4 (crc32 (natsOf (f.take (n - 4)))) ∧ c = 24) →
      ∃ u, exec (.frameReceive t p f fill sfd) s = .next u ∧ u.mem = s.mem ∧
        u.reg (EMAC_CNT p c) = s.reg (EMAC_CNT p c) + 1 ∧ s.regsBut u [EMAC_CNT p c, EMAC_STAT_HALF p]) ∧
    (∀ (f : List Byte) (fill sfd a d buf n : Nat), n = f.length - 4 → a = EMAC_RX_BASE_LO p 0 → d = s.ringDesc a 0 →
      buf = s.word32 d / 64 * 64 + s.word32 (d + 4) % 16 * 2 ^ 32 → s.rb (EMAC_CTL p) 0 = true →
      s.rb (EMAC_STATUS p) 0 = true → s.rxFault p f = none → s.accepts p f ≠ .no →
      fHalf f 12 ∉ [0x8100, 0x8808, 0x0800, 0x86DD, 0x88F7] → fill + f.length ≤ 65536 →
      s.rb (FWD_VLAN (s.rf (EMAC_VLAN p) 11 0)) p = true → s.ringAvail a ≠ 0 → s.rf (a + 8) 3 0 ≤ 12 → n ≤ s.ringBuf a →
      Memory.wf s.mem = true → s.memOk buf = true → s.memOk (buf + (n - 1)) = true → buf + n ≤ d + 8 ∨ d + 32 ≤ buf →
      ∃ u, exec (.frameReceive t p f fill sfd) s = .next u ∧ u.ringHead a = (s.ringHead a + 1) % s.ringSize a ∧
        (∀ j < n, u.byte (buf + j) = f.getD j 0) ∧
        (s.memOk (d + 8) = true → s.memOk (d + 31) = true → ∀ j < 4, u.byte (d + 8 + j) =
          BitVec.ofNat 8 ((2 ^ 31 + 2 ^ 30 + 2 ^ 29 + p.val * 65536 + n) / 256 ^ j)) ∧
        ∀ x, (x < buf ∨ buf + n ≤ x) → (x < d + 8 ∨ d + 32 ≤ x) → u.byte x = s.byte x) ∧
    (∀ n st, (s.emacOf p).pause = some (n, some st) → ∃ u, exec (.pauseEnd t p) s = .next u ∧ (u.emacOf p).pause =
      if (s.at t).clk * 10 < st * 10 + n * 512 * s.bitTenths p then some (n, some st) else none) ∧
    (∀ (fill : Nat) (q on : Nat), q = s.rf (EMAC_PAUSE_CTL p) 31 16 → on = s.rf (EMAC_PAUSE_CTL p) 7 0 * 1024 →
      s.rb (EMAC_CTL p) 0 = true → s.rb (EMAC_CTL p) 9 = true →
      ((s.emacOf p).xoff = none → s.rf (EMAC_PAUSE_CTL p) 15 8 * 1024 ≤ fill → ∃ u,
        exec (.pauseXoff t p fill) s = .next u ∧ (u.emacOf p).sends = (s.emacOf p).sends ++ [q] ∧
        (u.emacOf p).xoff = some (s.at t).clk ∧ u.regs = s.regs ∧ u.mem = s.mem) ∧
      (∀ x, (s.emacOf p).xoff = some x → on ≤ fill → x * 20 + q * 512 * s.bitTenths p ≤ (s.at t).clk * 20 → ∃ u,
        exec (.pauseRepeat t p fill) s = .next u ∧ (u.emacOf p).sends = (s.emacOf p).sends ++ [q] ∧
        (u.emacOf p).xoff = some (s.at t).clk ∧ u.regs = s.regs ∧ u.mem = s.mem) ∧
      ((s.emacOf p).xoff ≠ none → fill < on → ∃ u, exec (.pauseXon t p fill) s = .next u ∧
        (u.emacOf p).sends = (s.emacOf p).sends ++ [0] ∧ (u.emacOf p).xoff = none ∧ u.regs = s.regs ∧ u.mem = s.mem)) ∧
    (s.opens by_ (EMAC_PAUSE_SEND p) → ∃ u, exec (.pauseSend t by_ p v) s = .next u ∧ u.regs = s.regs ∧ u.mem = s.mem ∧
      (u.emacOf p).sends = (s.emacOf p).sends ++ if bit v 16 then [fld v 15 0] else []) ∧
    (s.opens by_ EMAC_MDIO → s.inService 0x30 = true →
      (s.mdio = none → ∃ u, exec (.mdio t by_ v) s = .next u ∧ u.mem = s.mem ∧
        u.reg EMAC_MDIO = v &&& 0x7FFFFFFF ∧ s.regsBut u [EMAC_MDIO] ∧ u.mdio =
          if bit v 31 then some ⟨v &&& 0x7FFFFFFF, by_, (s.at t).clk + 25600⟩ else none) ∧
      (s.mdio ≠ none → ∃ u, exec (.mdio t by_ v) s = .next u ∧ u.mdio = s.mdio ∧ u.regs = s.regs ∧ u.mem = s.mem ∧
        u.latch by_ EMAC_MDIO_RES = if bit v 31 then 10 else s.latch by_ EMAC_MDIO_RES)) ∧
    (∀ (m : MdioRun) (x : BitVec 16), s.mdio = some m → m.due ≤ (s.at t).clk → ∃ u, exec (.mdioDone t x) s = .next u ∧
      u.mdio = none ∧ u.latch m.by_ EMAC_MDIO_RES = 0 ∧ u.irqPend.getLsbD (irqNo 11 11) = true ∧ u.mem = s.mem ∧
      s.regsBut u [EMAC_MDIO] ∧ u.rf EMAC_MDIO 15 0 = if mdioReads m.word then x.toNat else s.rf EMAC_MDIO 15 0))

/-- Parts of R374, R375, R397 to R399: a one-buffer frame is fetched, padded and offered; admission puts one that fits
at the tail of its queue and counts one that is dropped; the highest strict-priority queue sends its head, a pause
frame before any; the end of a transmission appends the FCS and counts the frame, and nothing ends before its time. It
rests on the model's choices in assumptions 92, 93, 108, 149. Completes: TRANSMIT_FRAME_FETCH, FRAME_ADMISSION,
TRANSMIT_SELECTION, FRAME_TRANSMIT_COMPLETE. -/
def Obligations.EthernetTransmit : Prop :=
  ∀ (s : State) (t : Nat) (p : Fin 5), s.runs 17 →
    (∀ (q : Fin 8) (a d n : Nat) (raw : List Byte), p.val < 4 → s.portUp p = true → a = txRing p q →
      s.tmgr.adm = [] → s.txPend p q = [] → s.ringAvail a ≠ 0 → d = s.ringDesc a 0 → n = s.word32 (d + 8) % 16384 →
      (s.word32 (d + 8)).testBit 30 = true → (s.word32 (d + 8)).testBit 27 = false →
      (s.word32 (d + 8)).testBit 28 = false → n ≠ 0 → max 60 n ≤ s.maxLen p →
      s.load (s.word32 d + s.word32 (d + 4) % 16 * 2 ^ 32) n = some raw →
      ∃ u f, exec (.transmitFrameFetch t p q) s = .next u ∧ u.tmgr.adm = [f] ∧ u.mem = s.mem ∧ u.regs = s.regs ∧
        f.src = .ring q (s.emacOf p).nextId ∧ f.port = p.val ∧ f.queue = q.val ∧ f.since = (s.at t).clk ∧
        f.data = raw ++ List.replicate (60 - raw.length) 0 ∧ f.tsReq = (s.word32 (d + 8)).testBit 29 ∧
        u.txPend p q = [⟨(s.emacOf p).nextId, 1, d, false⟩]) ∧
    (∀ f : TxFrame, s.tmgr.adm = [f] → f.port < 4 → f.queue < 8 → s.rb (TMGR_VCLS f.vid) 15 = false →
      (s.rb (TMGR_VCLS f.vid) 31 = false → s.fits f = true → ∃ u, exec (.frameAdmission t) s = .next u ∧
        u.queueOf (8 * f.port + f.queue) = s.queueOf (8 * f.port + f.queue) ++ [f] ∧ u.tmgr.adm = [] ∧
        (∀ i, i ≠ 8 * f.port + f.queue → u.queueOf i = s.queueOf i) ∧ u.regs = s.regs ∧ u.mem = s.mem) ∧
      (s.fits f = false → s.holds f = false → f.src = .transit → ∃ u, exec (.frameAdmission t) s = .next u ∧
        u.tmgr.adm = [] ∧ u.tmgr.queues = s.tmgr.queues ∧ u.mem = s.mem ∧
        (u.reg (TMGR_Q_CNT_DROP (8 * f.port + f.queue))).toNat =
          min 0xFFFFFFFF ((s.reg (TMGR_Q_CNT_DROP (8 * f.port + f.queue))).toNat + 1))) ∧
    (s.portUp p = true → s.rb (EMAC_STATUS p) 0 = true → (s.emacOf p).wire = none →
      (∀ n r, (s.emacOf p).sends = n :: r → ∃ u w, exec (.transmitSelection t p) s = .next u ∧
        (u.emacOf p).wire = some w ∧ (u.emacOf p).sends = r ∧ w.frame.src = .pause ∧ w.start = (s.at t).clk ∧
        w.frame.data = s.pauseFrame p n ∧ u.tmgr = s.tmgr ∧ u.mem = s.mem) ∧
      (∀ (q : Fin 8) (f : TxFrame) (r : List TxFrame), p.val < 4 → (s.emacOf p).sends = [] → (s.at t).paused p = false →
        s.rb (TMGR_GCL_CTL p) 31 = false → (s.gclOf p).running = false → (s.gclOf p).pend = none →
        s.queueOf (8 * p + q) = f :: r → s.rb (TMGR_Q_CFG (8 * p + q)) 30 = false →
        (∀ i : Fin 8, q < i → s.queueOf (8 * p + i) = []) → ∃ u, exec (.transmitSelection t p) s = .next u ∧
          (u.emacOf p).wire = some ⟨f, (s.at t).clk, (s.at t).clk + (s.wireTenths p f.len + 9) / 10⟩ ∧
          u.queueOf (8 * p + q) = r ∧ (∀ i, i ≠ 8 * p.val + q.val → u.queueOf i = s.queueOf i) ∧ u.regs = s.regs ∧
          u.mem = s.mem)) ∧
    (∀ w : TxWire, (s.emacOf p).wire = some w → (s.at t).clk < w.due →
      exec (.frameTransmitComplete t p) s = .next (s.at t)) ∧
    (∀ w : TxWire, (s.emacOf p).wire = some w → w.due ≤ (s.at t).clk → w.frame.oneStep = false → w.frame.queue < 8 →
      (∀ q id, w.frame.src = .ring q id → w.frame.port = p.val ∧ q < 8) → ∃ u, exec (.frameTransmitComplete t p) s = .next u ∧ (u.emacOf p).wire = none ∧
        (u.emacOf p).sent = w.frame.data ++ leBytes 4 (crc32 (natsOf w.frame.data)) ∧ u.tmgr.queues = s.tmgr.queues ∧
        u.reg (EMAC_CNT p (7 + sizeBin w.frame.len)) = s.reg (EMAC_CNT p (7 + sizeBin w.frame.len)) + 1 ∧
        (p.val < 4 → w.frame.src ≠ .pause → (u.reg (TMGR_Q_CNT_TX (8 * p + w.frame.queue))).toNat =
          min 0xFFFFFFFF ((s.reg (TMGR_Q_CNT_TX (8 * p + w.frame.queue))).toNat + 1)))

/-- Parts of R400 to R408: flows, policers and gate lists. A due flow releases its head and pays for it; rates, bursts
and bucket sizes are stored within their limits; a commit waits for the first cycle start at least 1 us ahead and its
switch-over exchanges the banks; an abort withdraws a pending commit and closes both commands. It rests on the model's
choices in assumptions 111, 113. Completes: FLOW_RELEASE, FLOW_RATE_WRITE, FLOW_BURST_WRITE, POLICER_RATE_WRITE,
GATE_ENTRY_BOUNDARY, GCL_SWITCH_OVER, COMMIT_GCL, ABORT_GCL. -/
def Obligations.TrafficShaping : Prop :=
  ∀ (s : State) (t : Nat) (by_ : Ini) (v : Word) (now : Nat), s.runs 17 → now = (s.at t).wheelNow →
    (∀ (f : Nat) (x : Flow) (g : TxFrame), s.tmgr.flows = [(f, x)] → x.frames = [g] → g.port < 4 →
      x.isDue now = true → x.dueSlot = now → s.tmgr.wheelSlot ≠ now → 0 ≤ x.t →
      ∃ u, exec (.flowRelease t) s = .next u ∧ (u.flowOf f).frames = [] ∧ u.regs = s.regs ∧ u.mem = s.mem ∧
        u.queueOf (8 * g.port + g.queue) = s.queueOf (8 * g.port + g.queue) ++ [g] ∧ (u.flowOf f).last = now ∧
        (u.flowOf f).t = min (s.rf (TMGR_FLOW_BURST f) 19 0 * 65536 : Int) (x.t +
          (slotsFrom x.last now * s.flowRate f * 8 * 65536 / 1000000 : Nat)) - withOvh (s.reg (TMGR_FLOW_BURST f)) g.len * 65536) ∧
    (∀ f : Fin 512, s.opens by_ (TMGR_FLOW_RATE f) → (s.flowOf f).frames = [] → ∃ u, exec (.flowRateWrite t by_ f v) s = .next u ∧
      u.flowOf f = ⟨0, now, now, []⟩ ∧ u.flowRate f = max 64 (min 10000000 (fld v 23 0)) ∧
      u.rb (TMGR_FLOW_RATE f) 31 = bit v 31 ∧ s.regsBut u [TMGR_FLOW_RATE f] ∧ u.mem = s.mem) ∧
    (∀ f : Fin 512, s.opens by_ (TMGR_FLOW_BURST f) → ∃ u, exec (.flowBurstWrite t by_ f v) s = .next u ∧
      u.rf (TMGR_FLOW_BURST f) 19 0 = max 64 (fld v 19 0) ∧
      u.flowOf f = { s.flowOf f with t := min (s.flowOf f).t ((max 64 (fld v 19 0) * 65536 : Nat) : Int) } ∧
      s.regsBut u [TMGR_FLOW_BURST f] ∧ u.mem = s.mem) ∧
    (∀ k : Fin 1024, let tok := min (s.rf (TMGR_POL_CBS k) 19 0 * 65536) ((s.policerOf k).tok +
        slotsFrom (s.policerOf k).last now * s.rf (TMGR_POL_RATE k) 23 0 * 8 * 65536 / 1000000)
      (s.opens by_ (TMGR_POL_RATE k) → ∃ u, exec (.policerRateWrite t by_ k false v) s = .next u ∧ s.regsBut u [TMGR_POL_RATE k] ∧ u.mem = s.mem ∧
        u.rf (TMGR_POL_RATE k) 23 0 = max 64 (min 10000000 (fld v 23 0)) ∧ u.policerOf k =
          ⟨if bit v 31 ∧ s.rb (TMGR_POL_RATE k) 31 = false then s.rf (TMGR_POL_CBS k) 19 0 * 65536 else tok, now⟩) ∧
      (s.opens by_ (TMGR_POL_CBS k) → ∃ u, exec (.policerRateWrite t by_ k true v) s = .next u ∧ s.regsBut u [TMGR_POL_CBS k] ∧ u.mem = s.mem ∧
        u.rf (TMGR_POL_CBS k) 19 0 = max 64 (fld v 19 0) ∧
        u.policerOf k = ⟨min tok (max 64 (fld v 19 0) * 65536), now⟩)) ∧
    (∀ p : Fin 4, (s.gclOf p).pend = none → (s.gclOf p).rawEnd = none →
      ((s.gclOf p).running = false → exec (.gateEntryBoundary t p) s = .next (s.at t)) ∧
      ((s.gclOf p).running = true → ∃ u, exec (.gateEntryBoundary t p) s = .next u ∧ (s.at t).now < (u.gclOf p).endAt ∧
        u.regs = s.regs ∧ u.mem = s.mem ∧ (u.gclOf p).bank = (s.gclOf p).bank)) ∧
    (∀ (p : Fin 4) (w : GclPend), (s.gclOf p).pend = some w → w.skipped = false → w.at_ ≤ (s.at t).now → ∃ u,
      exec (.gclSwitchOver t p) s = .next u ∧ (u.gclOf p).pend = none ∧ (u.gclOf p).running = true ∧
      (u.gclOf p).bank = 1 - (s.gclOf p).bank ∧ (u.gclOf p).base = w.at_ ∧ (u.gclOf p).cycle = w.cycle ∧
      u.latch w.by_ (TMGR_GCL_RES p) = 0 ∧ u.mem = s.mem) ∧
    (∀ (p : Fin 4) (cy n : Nat) (q : State), s.opens by_ (TMGR_GCL_CMD p) → q = (s.at t).gclRun p → cy = (q.reg (TMGR_ADMIN_CYCLE p)).toNat →
      n = q.rf (TMGR_GCL_CTL p) 8 0 → (q.gclOf p).pend = none →
      (1 ≤ n → n ≤ 256 → 1000 ≤ cy → cy ≤ 1000000000 → (∀ e < n, q.reg (TMGR_GCL_INTERVAL p (1 - (q.gclOf p).bank) e) ≠ 0) →
        ∃ u w, exec (.commitGcl t by_ p) s = .next u ∧ (u.gclOf p).pend = some w ∧ w.cycle = cy ∧ w.len = n ∧ w.by_ = by_ ∧
          u.latch by_ (TMGR_GCL_RES p) = 8 ∧ u.regs = q.regs ∧ u.mem = q.mem ∧ (s.at t).now + 1000 ≤ w.at_ ∧
          (∃ m : Nat, w.at_ = q.adminBase p + m * cy ∧ (m = 0 ∨ w.at_ - cy < (s.at t).now + 1000))) ∧
      (n = 0 ∨ 256 < n ∨ cy < 1000 ∨ 1000000000 < cy → ∃ u, exec (.commitGcl t by_ p) s = .next u ∧
        u.latch by_ (TMGR_GCL_RES p) = 11 ∧ u.tmgr = q.tmgr) ∧
      ∃ u, exec (.abortGcl t by_ p) s = .next u ∧ u.latch by_ (TMGR_GCL_RES p) = 1 ∧ u.tmgr = q.tmgr) ∧
    (∀ (p : Fin 4) (w : GclPend), s.opens by_ (TMGR_GCL_CMD p) → ((s.at t).gclRun p |>.gclOf p).pend = some w → ∃ u,
      exec (.abortGcl t by_ p) s = .next u ∧ (u.gclOf p).pend = none ∧ u.latch by_ (TMGR_GCL_RES p) = 0 ∧
      (iniIdx w.by_ ≠ iniIdx by_ → ∃ c < 12, c ≠ 8 ∧ u.latch w.by_ (TMGR_GCL_RES p) = BitVec.ofNat 32 c)) ∧
    (∀ (p : Fin 4) (w : GclPend) (q : State), s.opens by_ (TMGR_GCL_CMD p) → q = (s.at t).gclRun p →
      (q.gclOf p).pend = some w → 1 ≤ q.rf (TMGR_GCL_CTL p) 8 0 → q.rf (TMGR_GCL_CTL p) 8 0 ≤ 256 →
      1000 ≤ (q.reg (TMGR_ADMIN_CYCLE p)).toNat → (q.reg (TMGR_ADMIN_CYCLE p)).toNat ≤ 1000000000 →
      (∀ e < q.rf (TMGR_GCL_CTL p) 8 0, q.reg (TMGR_GCL_INTERVAL p (1 - (q.gclOf p).bank) e) ≠ 0) → ∃ u,
      exec (.commitGcl t by_ p) s = .next u ∧ u.latch by_ (TMGR_GCL_RES p) = 10 ∧ u.tmgr = q.tmgr)

/-- Parts of R381, R382: the router's tables. SET stores a well-formed entry where its twin stands, else at the lowest
free index, and is NO_BUFFER where there is none; DEL removes an entry; READ copies it to the buffer, and reading a
neighbour clears its HIT; a malformed entry and an index with none are BAD_ARGUMENT. It rests on the model's choices
in assumption 106. Completes: NEIGH_SET, ROUTE_SET, ROUTE_DEL, ROUTE_READ, NEIGH_DEL, NEIGH_READ. -/
def Obligations.ForwardingTables : Prop :=
  ∀ (s : State) (t : Nat) (by_ : Ini) (i : BitVec 13), s.runs 17 → s.opens by_ FWD_CMD →
    (s.bufNeigh = none → ∃ u, exec (.neighSet t by_) s = .next u ∧ u.fwd = s.fwd ∧ u.regs = s.regs ∧
      (u.latch by_ FWD_RES).toNat % 256 = 11) ∧
    (∀ r, s.bufRoute = some r → s.fwd.routes.find? (fun e => e.2.v4 == r.v4 && e.2.prefix_ == r.prefix_ &&
        e.2.len == r.len) = none → lowestFree s.fwd.routes 0 8192 = none → ∃ u, exec (.routeSet t by_) s = .next u ∧
      u.fwd = s.fwd ∧ u.regs = s.regs ∧ (u.latch by_ FWD_RES).toNat % 256 = 6) ∧
    (∀ r, s.bufNeigh = some r → s.fwd.neighs.find? (fun e => e.2.v4 == r.v4 && e.2.addr == r.addr &&
        e.2.port == r.port) = none → lowestFree s.fwd.neighs 0 4096 = none → ∃ u, exec (.neighSet t by_) s = .next u ∧
      u.fwd = s.fwd ∧ u.regs = s.regs ∧ (u.latch by_ FWD_RES).toNat % 256 = 6) ∧
    (∀ x, (s.routeAt i.toNat = none ∧ (x = .routeDel t by_ i ∨ x = .routeRead t by_ i)) ∨
        (s.neighAt i.toNat = none ∧ (x = .neighDel t by_ i ∨ x = .neighRead t by_ i)) →
      ∃ u, exec x s = .next u ∧ u.fwd = s.fwd ∧ u.regs = s.regs ∧ u.mem = s.mem ∧
        (u.latch by_ FWD_RES).toNat % 256 = 11) ∧
    (∀ (r : Route) (n : Nat), s.bufRoute = some r → (∃ r0, s.fwd.routes.find? (fun e => e.2.v4 == r.v4 &&
        e.2.prefix_ == r.prefix_ && e.2.len == r.len) = some (n, r0)) ∨ (s.fwd.routes.find? (fun e => e.2.v4 == r.v4 &&
        e.2.prefix_ == r.prefix_ && e.2.len == r.len) = none ∧ lowestFree s.fwd.routes 0 8192 = some n) →
      ∃ u, exec (.routeSet t by_) s = .next u ∧ u.routeAt n = some r ∧ (∀ j, j ≠ n → u.routeAt j = s.routeAt j) ∧
        u.latch by_ FWD_RES = BitVec.ofNat 32 (n * 256) ∧ u.fwd.neighs = s.fwd.neighs ∧ u.regs = s.regs ∧ u.mem = s.mem) ∧
    (s.bufRoute = none → ∃ u, exec (.routeSet t by_) s = .next u ∧ u.fwd = s.fwd ∧
      (u.latch by_ FWD_RES).toNat % 256 = 11) ∧
    ((s.routeAt i.toNat).isSome = true → ∃ u, exec (.routeDel t by_ i) s = .next u ∧ u.routeAt i.toNat = none ∧
      (∀ j, j ≠ i.toNat → u.routeAt j = s.routeAt j) ∧ (u.latch by_ FWD_RES).toNat % 256 = 0 ∧ u.regs = s.regs ∧
      u.mem = s.mem) ∧
    (∀ r, s.routeAt i.toNat = some r → ∃ u, exec (.routeRead t by_ i) s = .next u ∧ u.fwd = s.fwd ∧ u.mem = s.mem ∧
      (u.latch by_ FWD_RES).toNat % 256 = 0 ∧
      (∀ k < 4, u.reg (FWD_BUF k) = BitVec.ofNat 32 (r.prefix_ / 2 ^ (32 * (3 - k))) ∧
        u.reg (FWD_BUF (4 + k)) = BitVec.ofNat 32 (r.hop / 2 ^ (32 * (3 - k)))) ∧
      u.reg (FWD_BUF 8) = BitVec.ofNat 32 (r.v4.toNat * 2 ^ 31 + r.direct.toNat * 2 ^ 30 + r.black.toNat * 2 ^ 29 +
        r.len * 2 ^ 16 + r.port * 2 ^ 12 + r.vid)) ∧
    (∀ (r : Neigh) (n : Nat), s.bufNeigh = some r → (∃ r0, s.fwd.neighs.find? (fun e => e.2.v4 == r.v4 &&
        e.2.addr == r.addr && e.2.port == r.port) = some (n, r0)) ∨ (s.fwd.neighs.find? (fun e => e.2.v4 == r.v4 &&
        e.2.addr == r.addr && e.2.port == r.port) = none ∧ lowestFree s.fwd.neighs 0 4096 = some n) →
      ∃ u, exec (.neighSet t by_) s = .next u ∧ u.neighAt n = some r ∧ (∀ j, j ≠ n → u.neighAt j = s.neighAt j) ∧
        u.latch by_ FWD_RES = BitVec.ofNat 32 (n * 256) ∧ u.fwd.routes = s.fwd.routes ∧ u.regs = s.regs ∧ u.mem = s.mem) ∧
    ((s.neighAt i.toNat).isSome = true → ∃ u, exec (.neighDel t by_ i) s = .next u ∧ u.neighAt i.toNat = none ∧
      (∀ j, j ≠ i.toNat → u.neighAt j = s.neighAt j) ∧ (u.latch by_ FWD_RES).toNat % 256 = 0 ∧ u.regs = s.regs ∧
      u.mem = s.mem) ∧
    (∀ r, s.neighAt i.toNat = some r → ∃ u, exec (.neighRead t by_ i) s = .next u ∧
      u.neighAt i.toNat = some { r with hit := false } ∧ u.mem = s.mem ∧ (u.latch by_ FWD_RES).toNat % 256 = 0 ∧
      (∀ k < 4, u.reg (FWD_BUF k) = BitVec.ofNat 32 (r.addr / 2 ^ (32 * (3 - k)))) ∧
      u.reg (FWD_BUF 4) = BitVec.ofNat 32 (r.mac / 2 ^ 16) ∧
      u.reg (FWD_BUF 5) = BitVec.ofNat 32 (r.mac % 2 ^ 16 * 2 ^ 16 + r.v4.toNat * 2 ^ 15 + r.port * 2 ^ 12) ∧
      u.reg (FWD_BUF 6) = BitVec.ofNat 32 (r.hit.toNat * 2 ^ 31))

/-- Parts of R388, R389, R392: with the encapsulation on, a record that fits joins the open datagram; the first record
fixes its age; a datagram of that age closes and takes the next batch number. EN is taken only with a destination port
and an enabled local address. It rests on the model's choices in assumptions 104, 105, 106. Completes:
ENCAPSULATION_ENABLE, RECORD_ARRIVAL, DATAGRAM_FLUSH. -/
def Obligations.Encapsulation : Prop :=
  ∀ (s : State) (t : Nat) (by_ : Ini) (v : Word), s.runs 17 →
    (s.opens by_ FWD_ENC_CTL → bit v 31 = false ∨ (s.rf FWD_ENC_PORTS 31 16 ≠ 0 ∧
        s.rb FWD_LOCAL_EN (fld v 27 24) = true) → ∃ u,
      exec (.encapsulationEnable t by_ v) s = .next u ∧ u.reg FWD_ENC_CTL = v &&& 0xFFFFFF00 ∧
      s.regsBut u [FWD_ENC_CTL] ∧ u.mem = s.mem ∧ u.fwd = s.fwd) ∧
    (s.opens by_ FWD_ENC_CTL → bit v 31 = true → s.rf FWD_ENC_PORTS 31 16 = 0 ∨
        s.rb FWD_LOCAL_EN (fld v 27 24) = false → ∃ u, exec (.encapsulationEnable t by_ v) s = .next u ∧
      u.regs = s.regs ∧ u.fwd = s.fwd ∧ u.mem = s.mem) ∧
    (s.encWaits = false →
      (s.rb FWD_ENC_CTL 31 = false → exec (.recordArrival t) s = .next (s.at t)) ∧
      (∀ raw rest, s.rb FWD_ENC_CTL 31 = true → (s.at t).aged = false → s.lant.records = raw :: rest →
        16 + (s.fwd.openRecs ++ [wireRecord raw]).flatten.length ≤ s.rf FWD_ENC_LIM 13 0 → s.fwd.openRecs.length < 254 →
        ∃ u, exec (.recordArrival t) s = .next u ∧ u.fwd.openRecs = s.fwd.openRecs ++ [wireRecord raw] ∧
          u.fwd.openAt = (if s.fwd.openRecs = [] then (s.at t).clk else s.fwd.openAt) ∧ u.lant.records = rest ∧
          u.mem = s.mem ∧ (u.reg FWD_CNT_REC).toNat = min 0xFFFFFFFF ((s.reg FWD_CNT_REC).toNat + 1)) ∧
      ((s.at t).aged = false → exec (.datagramFlush t) s = .next (s.at t)) ∧
      ((s.at t).aged = true → ∃ u, exec (.datagramFlush t) s = .next u ∧ u.fwd.openRecs = [] ∧
        u.reg FWD_ENC_BSEQ = s.reg FWD_ENC_BSEQ + 1 ∧ u.lant = s.lant ∧ u.fwd.routes = s.fwd.routes))

/-- Parts of R411 to R423: Ember and single domains begin in steps; a domain that refuses, or does not answer in time,
rolls the command back with its reason; a domain that agrees stops; the entry leaves the retained banks and DRAM as
they were; wake events are recorded and start the wake, whose steps bring the domains up in order or leave one OFF. It
rests on the model's choices in assumptions 117, 119. Completes: EMBER, DOM_OFF, DOM_ON, DOMAIN_ANSWER,
DOMAIN_ACK_TIMEOUT, EMBER_ENTERED, WAKE_EVENT, WAKE_STEP_READY, WAKE_STEP_TIMEOUT. -/
def Obligations.PowerDomains : Prop :=
  ∀ (s : State) (t : Nat) (by_ : Ini) (d : BitVec 5), s.runs 0 → s.opens by_ PWR_CMD →
    let res := fun (u : State) => tabGet (0 : Word) u.latches (s.pwr.owner * 0x10000000000 + PWR_RES)
    (s.resumeOk = true → s.pwr.op = none → ∃ u, exec (.ember t by_) s = .next u ∧ u.pwr.op = some .ember ∧
      u.pwr.agreed = [] ∧ u.pwr.committed = false ∧ u.latch by_ PWR_RES = 8 ∧ u.regs = s.regs ∧ u.mem = s.mem) ∧
    (s.resumeOk = true → s.pwr.op ≠ none → ∃ u, exec (.ember t by_) s = .next u ∧ u.pwr = s.pwr ∧ u.latch by_ PWR_RES = 10) ∧
    (s.resumeOk = false → ∃ u, exec (.ember t by_) s = .next u ∧ u.pwr = s.pwr ∧ u.latch by_ PWR_RES = 11) ∧
    (1 ≤ d.toNat → d.toNat ≤ 18 → s.pwr.op = none →
      (s.dom d.toNat = .on → ∃ u, exec (.domOff t by_ d) s = .next u ∧ u.pwr.op = some (.domOff d.toNat) ∧
        u.pwr.asked = d.toNat ∧ u.latch by_ PWR_RES = 8 ∧ u.regs = s.regs ∧ u.mem = s.mem) ∧
      (s.dom d.toNat = .off → ∃ u, exec (.domOn t by_ d) s = .next u ∧ u.pwr.op = some (.domOn d.toNat) ∧
        u.pwr.waking = some (100 + d.toNat) ∧ u.latch by_ PWR_RES = 8 ∧ u.regs = s.regs ∧ u.mem = s.mem) ∧
      (∀ c, (s.dom d.toNat = .off ∧ c = .domOff t by_ d) ∨ (s.domOn d.toNat = true ∧ c = .domOn t by_ d) → ∃ u,
        exec c s = .next u ∧ u.pwr = s.pwr ∧ u.regs = s.regs ∧ u.mem = s.mem ∧ u.latch by_ PWR_RES = 0)) ∧
    (1 ≤ d.toNat → d.toNat ≤ 18 → s.pwr.op ≠ none → ∀ c ∈ [Instr.domOff t by_ d, .domOn t by_ d], ∃ u,
      exec c s = .next u ∧ u.pwr = s.pwr ∧ u.regs = s.regs ∧ u.mem = s.mem ∧ u.latch by_ PWR_RES = 10) ∧
    (d = 0 ∨ 18 < d.toNat → ∀ c ∈ [Instr.domOff t by_ d, .domOn t by_ d], ∃ u, exec c s = .next u ∧ u.pwr = s.pwr ∧
      u.latch by_ PWR_RES = 11) ∧
    (∀ wfi : Bool, s.asking = true → s.pwr.wakePending = false → s.pwr.asked ≠ 19 ∨ wfi = true →
      (∀ r, s.domRefuses s.pwr.asked = some r → s.pwr.asked < 24 → ∃ u, exec (.domainAnswer t wfi) s = .next u ∧
        u.pwr.op = none ∧ u.reg PWR_REFUSE = BitVec.ofNat 32 (r * 256 + s.pwr.asked) ∧ res u = 10 ∧
        (∀ x ∈ s.pwr.agreed, u.domOn x = true) ∧ u.mem = s.mem) ∧
      (s.domRefuses s.pwr.asked = none → s.pwr.asked ≠ 13 → s.pwr.op = some .ember → ∃ u,
        exec (.domainAnswer t wfi) s = .next u ∧ u.dom s.pwr.asked = .stopped ∧
        u.pwr.agreed = s.pwr.asked :: s.pwr.agreed ∧ u.pwr.op = some .ember ∧ u.regs = s.regs ∧ u.mem = s.mem) ∧
      (∀ x, s.domRefuses s.pwr.asked = none → s.pwr.op = some (.domOff x) → 1 ≤ s.pwr.asked → s.pwr.asked ≤ 18 → ∃ u,
        exec (.domainAnswer t wfi) s = .next u ∧ u.dom s.pwr.asked = .off ∧ u.pwr.op = none ∧ res u = 0)) ∧
    (s.asking = true → s.pwr.wakePending = false → s.pwr.asked < 24 →
      s.pwr.askedAt + s.rf PWR_ACK_TIMEOUT 15 0 * 1000 ≤ (s.at t).clk → ∃ u, exec (.domainAckTimeout t) s = .next u ∧
        u.pwr.op = none ∧ u.reg PWR_REFUSE = BitVec.ofNat 32 (512 + s.pwr.asked) ∧ res u = 10 ∧ u.mem = s.mem) ∧
    (s.pwr.op = some .ember → s.pwr.committed = true → s.pwr.ember = false →
      s.pwr.askedAt + s.retained.length * 41000 ≤ (s.at t).clk → ∃ u, exec (.emberEntered t) s = .next u ∧
        u.pwr.ember = true ∧ (∀ x, 1 ≤ x → x ≤ 20 → u.dom x = .off) ∧ u.dom 21 = .ret ∧ u.dom 22 = .ret ∧
        u.dmc.selfRefresh = true ∧ (s.formed → u.formed) ∧
        (∀ a, inSram a = false ∨ s.rb PWR_RET_MASK ((a - 0x08000000) / 0x100000) = true → u.byte a = s.byte a) ∧
        (∀ a, inSram a = true → s.rb PWR_RET_MASK ((a - 0x08000000) / 0x100000) = false → u.byte a = 0)) ∧
    (∀ b : Fin 11, b ≠ 1 → ∃ u, exec (.wakeEvent t b) s = .next u ∧ u.rb PWR_WAKE_CAUSE b = true ∧ u.mem = s.mem ∧
      s.regsBut u [PWR_WAKE_CAUSE] ∧ (s.wakeEnabled b = true → s.pwr.ember = true → s.pwr.waking = none →
        u.pwr.waking = some 1 ∧ u.pwr.wakePending = true) ∧ (s.wakeEnabled b = false → u.pwr = s.pwr)) ∧
    (∀ (lost : BitVec 16) (k : Nat), s.pwr.waking = some k →
      (s.pwr.op = some .ember → 2 ≤ k → k ≤ 9 → ∃ u, exec (.wakeStepReady t lost) s = .next u ∧ u.domOn (24 - k) = true ∧
        u.pwr.waking = some (if k = 9 then 114 else k + 1)) ∧
      (s.pwr.op = some .ember → k = 1 → ∃ u, exec (.wakeStepReady t lost) s = .next u ∧ u.pwr.waking = some 2 ∧
        u.pwr.dom = s.pwr.dom ∧ u.regs = s.regs ∧ u.mem = s.mem) ∧
      (s.pwr.op = some .ember → 102 ≤ k → k ≤ 114 → ∃ u, exec (.wakeStepReady t lost) s = .next u ∧
        u.domOn (k - 100) = true ∧ u.pwr.waking = some (k - 1) ∧ u.mem = s.mem) ∧
      (s.pwr.op = some .ember → k ∈ [1, 4, 5] → s.pwr.stepAt + stepTimeout k ≤ (s.at t).clk → ∃ u,
        exec (.wakeStepTimeout t) s = .next u ∧ u.board.held = true ∧ u.mem = [] ∧
          if k = 1 then u.rb SYS_SUPPLY 3 = true ∧ u.rb SYS_RESET_CAUSE 4 = true else u.rb PWR_STATUS 4 = true) ∧
      (s.pwr.op = some .ember → k = 101 → ∃ u, exec (.wakeStepReady t lost) s = .next u ∧ u.domOn 1 = true ∧
        u.pwr.op = none ∧ u.pwr.ember = false ∧ u.pwr.wakeDone = true ∧ res u = 0 ∧
        (u.reg PWR_CNT_EMBER).toNat = min 0xFFFFFFFF ((s.reg PWR_CNT_EMBER).toNat + 1)) ∧
      (∀ x, s.pwr.op = some (.domOn x) → x ≤ 18 → ∃ u, exec (.wakeStepReady t lost) s = .next u ∧ u.domOn x = true ∧
        u.pwr.op = none ∧ res u = 0 ∧ u.mem = s.mem) ∧
      (∀ x, s.pwr.op = some (.domOn x) → 1 ≤ x → x ≤ 18 → s.pwr.stepAt + stepTimeout k ≤ (s.at t).clk → ∃ u,
        exec (.wakeStepTimeout t) s = .next u ∧ u.dom x = .off ∧ u.rb (PWR_DOM_STATUS x) 2 = true ∧ u.pwr.op = none ∧
        res u = 7) ∧
      (s.pwr.op = some .ember → k ∈ [2, 3, 6, 7, 8] → s.pwr.stepAt + stepTimeout k ≤ (s.at t).clk → ∃ u,
        exec (.wakeStepTimeout t) s = .next u ∧ u.dom (24 - k) = .off ∧ u.rb (PWR_DOM_STATUS (24 - k)) 2 = true ∧
        u.pwr.waking = some (k + 1)))

/-- Parts of R34, R35, R38 to R43, R47, R56 to R58: the events that take the power or reset the functional logic, and
its return. A cold reset empties SRAM and DRAM, a warm reset keeps them; the release starts the local time at 0 and
samples the straps. It rests on the model's choices in assumptions 9, 114, 116. Completes: VIN_LOCKOUT_FALL,
OVERVOLTAGE_SHUTOFF, BREAKER_TRIP, HS_EN_LOW, VIN_RISE, OVERVOLTAGE_RELEASE, HS_EN_RISE, BREAKER_RETRY, PWR_GOOD_RISE,
SUPPLY_FAULT, REFERENCE_ABSENT_TIMEOUT, INTERNAL_RESET_RELEASE, RESET_N_ASSERT, RESET_N_RISE, SOFT_COLD, SOFT_WARM,
THERMAL_TRIP, THERMAL_TRIP_RECOVERY, TAP_INSTRUCTION_UPDATE. -/
def Obligations.Resets : Prop :=
  ∀ (s : State) (t : Nat) (by_ : Ini),
    let off := fun (c : Instr) => ∃ u, exec c s = .next u ∧ u.board.passOn = false ∧ u.board.pwrGood = false ∧
      u.board.held = true ∧ u.mem = [] ∧ u.nor = s.nor ∧ u.pending = s.pending
    let on := fun (c : Instr) => ∃ u, exec c s = .next u ∧ u.board.passOn = true ∧ u.board.held = true ∧
      u.reg SYS_RESET_CAUSE = (if u.board.breakerRec then 0x41 else 1) ∧ u.mem = [] ∧ u.nor = s.nor
    let cold := fun (c : Instr) (b : Nat) => ∃ u, exec c s = .next u ∧ u.board.held = true ∧ u.rb SYS_RESET_CAUSE b = true ∧
      u.mem = [] ∧ u.nor = s.nor ∧ u.cores = [] ∧ u.pending = s.pending
    (s.board.passOn = true → off (.vinLockoutFall t) ∧ off (.overvoltageShutoff t) ∧ off (.breakerTrip t) ∧
      off (.hsEnLow t)) ∧
    (s.board.passOn = false →
      (∀ absent : Bool, s.board.vinOk = false → s.board.hsEn = true → s.board.overVolt = false →
        absent = true ∨ s.board.breakerAt = none → on (.vinRise t absent)) ∧
      (s.board.vinOk = true → s.board.hsEn = true → s.board.overVolt = true → s.board.breakerAt = none →
        on (.overvoltageRelease t)) ∧
      (s.board.vinOk = true → s.board.overVolt = false → s.board.breakerAt = none → on (.hsEnRise t)) ∧
      (∀ a, s.board.vinOk = true → s.board.hsEn = true → s.board.overVolt = false → s.board.breakerAt = some a →
        a + 900000000 ≤ (s.at t).clk → on (.breakerRetry t))) ∧
    (∀ ref : Bool, s.board.passOn = true → s.board.pwrGood = false → s.board.thermalHold = false → ∃ u,
      exec (.pwrGoodRise t ref) s = .next u ∧ u.board.pwrGood = true ∧ u.board.refOk = ref ∧
      (s.at t).clk + 500000 ≤ u.board.relDue ∧ u.regs = s.regs ∧ u.mem = s.mem) ∧
    (s.board.passOn = true → s.board.pwrGood = true → cold (.supplyFault t) 4) ∧
    (s.board.held = true → s.board.pwrGood = true → s.board.refOk = false → s.board.pwrGoodAt + 100000000 ≤ (s.at t).clk →
      ∃ u, exec (.referenceAbsentTimeout t) s = .next u ∧ u.faultLand = true ∧ u.regs = s.regs ∧ u.mem = s.mem) ∧
    (∀ strap : BitVec 2, s.board.held = true → s.board.pwrGood = true → s.board.resetN = true → s.board.refOk = true →
      s.board.thermalHold = false → s.board.tapDirty = false → s.board.relDue ≤ (s.at t).clk → ∃ u,
      exec (.internalResetRelease t strap) s = .next u ∧ u.board.held = false ∧ u.board.bootSel = strap ∧ u.raw = 0 ∧
      u.nor = s.nor) ∧
    (∀ (low : Nat) (takes : Bool), s.board.passOn = true → 1000 ≤ low ∨ (200 ≤ low ∧ takes = true) →
      cold (.resetNAssert t low takes) 1) ∧
    (∀ (low : Nat) (takes : Bool), low < 200 ∨ (low < 1000 ∧ takes = false) →
      exec (.resetNAssert t low takes) s = .next (s.at t)) ∧
    (∀ low : Nat, 1000 ≤ low → s.board.passOn = false → ∃ u, exec (.resetNAssert t low true) s = .next u ∧
      u.board.resetN = false ∧ u.regs = s.regs ∧ u.mem = s.mem) ∧
    (s.board.resetN = false → ∃ u, exec (.resetNRise t) s = .next u ∧ u.board.resetN = true ∧
      (s.at t).clk + 500000 ≤ u.board.relDue ∧ u.regs = s.regs) ∧
    (∀ w : Bool, s.opens by_ SYS_RESET_CTRL → cold (.softCold t by_ w) 2) ∧
    (s.opens by_ SYS_RESET_CTRL → ∃ u, exec (.softWarm t by_) s = .next u ∧ u.board.held = true ∧ u.rb SYS_RESET_CAUSE 3 = true ∧
      u.mem = s.mem ∧ u.nor = s.nor ∧ u.cores = [] ∧ u.dmc.trained0 = s.dmc.trained0) ∧
    (∀ temp : Int, 2080 ≤ temp → s.board.passOn = true → s.board.thermalHold = false → cold (.thermalTrip t temp) 5 ∧
      ∃ u, exec (.thermalTrip t temp) s = .next u ∧ u.board.thermalHold = true) ∧
    (∀ temp : Int, temp ≤ 1840 → s.board.thermalHold = true → ∃ u, exec (.thermalTripRecovery t temp) s = .next u ∧
      u.board.thermalHold = false ∧ u.board.held = true ∧ u.mem = []) ∧
    (∀ (i : TapOp) (scan : List (Land × Bool)), s.board.passOn = true → ∃ u,
      exec (.tapInstructionUpdate t ⟨i, scan⟩) s = .next u ∧ u.nor = s.nor ∧
      u.board.boundary = (if i = .sample ∨ i = .extest then scan else s.board.boundary) ∧
      (i ∈ [TapOp.extest, .clamp, .highz] → u.board.held = true ∧ u.board.tapDirty = true ∧ u.lamps = []) ∧
      (i ∉ [TapOp.extest, .clamp, .highz] → u.board.held = s.board.held ∧ u.board.tapDirty = s.board.tapDirty ∧
        u.regs = s.regs ∧ u.mem = s.mem))

/-- Parts of R42, R46, R49, R50, R59 to R61, R437: warnings, samples, the alert with its 5 degrees of hysteresis, the
reference, and PERST_N, whose fall clears READY and empties the mailbox rings. It rests on the model's choices in
assumption 142. Completes: POWER_FAIL_WARNING, TEMP_ALERT_SET, TEMP_ALERT_CLEAR, LID_TEMPERATURE_SAMPLE,
SUPPLY_SAMPLE, REFERENCE_LOSS, REFERENCE_RECOVERY, PERST_FALL, PERST_RISE, PCIE_LINK_CHANGE. -/
def Obligations.BoardEvents : Prop :=
  ∀ (s : State) (t : Nat), s.runs 0 →
    (∃ u, exec (.powerFailWarning t) s = .next u ∧ u.rb SYS_SUPPLY 2 = true ∧ u.rb PWR_WAKE_CAUSE 8 = true ∧
      s.regsBut u [SYS_SUPPLY, PWR_WAKE_CAUSE] ∧ u.mem = s.mem) ∧
    (∀ temp : Int, s.board.tempAlert = false → sfld (s.reg SYS_THERMAL) 31 24 * 16 ≤ temp → ∃ u,
      exec (.tempAlertSet t temp) s = .next u ∧ u.board.tempAlert = true ∧ u.irqPend.getLsbD (irqNo 0 2) = true ∧
      s.regsBut u [PWR_WAKE_CAUSE] ∧ u.mem = s.mem) ∧
    (∀ temp : Int, s.board.tempAlert = true → ∃ u, exec (.tempAlertClear t temp) s = .next u ∧ u.regs = s.regs ∧
      u.mem = s.mem ∧ u.board.tempAlert = decide ((sfld (s.reg SYS_THERMAL) 31 24 - 5) * 16 < temp)) ∧
    (∀ lid l0 l1 l2 : BitVec 16, s.domOn 1 = true → ∃ u, exec (.lidTemperatureSample t lid l0 l1 l2) s = .next u ∧
      u.rf SYS_THERMAL 15 0 = lid.toNat ∧ s.regsBut u [SYS_THERMAL] ∧ (u.lamp 0).temp = l0.toInt ∧ u.mem = s.mem) ∧
    (∀ (vin : BitVec 16) (iin : BitVec 8), ∃ u, exec (.supplySample t vin iin) s = .next u ∧
      u.rf SYS_SUPPLY 31 16 = vin.toNat ∧ u.rf SYS_SUPPLY 15 8 = iin.toNat ∧ s.regsBut u [SYS_SUPPLY] ∧ u.mem = s.mem) ∧
    (s.board.refOk = true → ∃ u, exec (.referenceLoss t) s = .next u ∧ u.board.refOk = false ∧
      u.board.locked = false ∧ u.rb SYS_CLOCK 7 = true ∧ u.faultLand = true) ∧
    (s.board.refOk = false → ∃ u, exec (.referenceRecovery t) s = .next u ∧ u.board.refOk = true ∧ u.board.locked = true) ∧
    (s.domOn 18 = true → ∃ u, exec (.perstFall t) s = .next u ∧ u.board.perstN = false ∧ u.board.linkUp = false ∧
      u.reg HIF_MBX_STATUS = 0 ∧ u.reg HIF_MBX_CMD_IDX = 0 ∧ u.reg HIF_MBX_RSP_IDX = 0 ∧ u.mbx.opened = [] ∧
      u.mbx.out = [] ∧ u.mbx.minor = none ∧ u.rb PWR_WAKE_CAUSE 7 = true ∧ u.mem = s.mem) ∧
    (∀ temp : Int, s.board.tempAlert = true ∨ temp < sfld (s.reg SYS_THERMAL) 31 24 * 16 →
      exec (.tempAlertSet t temp) s = .next (s.at t)) ∧
    (∃ u, exec (.perstRise t) s = .next u ∧ u.board.perstN = true ∧ u.regs = s.regs ∧ u.mem = s.mem) ∧
    (∀ up : Bool, s.domOn 18 = true → s.board.perstN = true → ∃ u, exec (.pcieLinkChange t up) s = .next u ∧
      u.board.linkUp = up ∧ u.regs = s.regs ∧ u.mem = s.mem)

/-- Parts of R434, R437 to R439, R444: the command at the head of the ring is taken and answered with its OPCODE and
TAG: HELLO by version, GET_INFO, ABORT, UNIT_SET, UNIT_GET, CAL_READ, CAL_WRITE (in steps), JOURNAL_READ; in the boot
ROM BOOT. An opcode whose row is another's stays for it, an empty ring answers nothing. A response fills the next
entry of its ring. A TAIL written before READY is only reported. It rests on the model's choices in assumptions 122,
123, 124. Completes: HELLO, GET_INFO, MBX_ABORT, UNIT_GET, CAL_READ, CAL_WRITE, JOURNAL_READ, BOOT, UNIT_SET,
MAILBOX_TAIL_WRITE. -/
def Obligations.MailboxCommands : Prop :=
  ∀ (s : State) (t : Nat) (q v : State) (c : MbxCmd), s.runs 18 → q = (s.at t).mbxFlush s.mbx.out.length →
    q.mbxHead = some c → v = q.setRf HIF_MBX_CMD_IDX 23 16 ((q.rf HIF_MBX_CMD_IDX 23 16 + 1) % 256) → c.len ≤ 56 →
    q.mbx.opened.lookup c.tag = none → q.mbx.minor ≠ none ∨ c.opcode = 1 ∨ c.opcode = 2 →
    let answers := fun (x : Instr) (w : State) (y : Code) (p : List Word) =>
      exec x s = .next (w.mbxRespond c.opcode c.tag y.val p)
    let own := v.rf HIF_MBX_VER 15 0
    (c.opcode = 1 → c.word 0 / 256 % 256 = own / 256 →
      answers (.hello t) { v with mbx := { v.mbx with minor := some (min (c.word 0 % 256) (own % 256)) } } .ok
        [BitVec.ofNat 32 own]) ∧
    (c.opcode = 1 → c.word 0 / 256 % 256 ≠ own / 256 → answers (.hello t) v .versionMismatch [BitVec.ofNat 32 own]) ∧
    (c.opcode = 2 → answers (.getInfo t) v .ok ([setBit (regReset SYS_IDENT) 0 Config.grade, Config.serial.setWidth 32,
      (Config.serial >>> 32).setWidth 32, BitVec.ofNat 32 own] ++ (List.range 8).map fun i => v.reg (SYS_BOOT_MEAS i))) ∧
    (∀ x ∈ [Instr.hello t, .getInfo t, .mbxAbort t, .unitGet t, .calRead t, .calWrite t, .journalRead t, .boot t],
      (∀ z : State, z.runs 18 → z.mbx.out = [] → (z.at t).mbxHead = none → exec x z = .next (z.at t)) ∧
      (v.romServes = false → c.opcode = 0x10 → exec x s = .next q)) ∧
    (v.romServes = false →
      (∀ r : State × Code, c.opcode = 0x10 → r = v.unitSet (c.word 0 % 64) (c.word 1 / 65536) (c.word 1 % 2 == 1)
        (256 + c.tag) → r.2 ≠ .inSteps → exec (.unitSet t .mailbox) s = .next ((r.1.mbxRespond 0x10 c.tag r.2.val
          [BitVec.ofNat 32 (r.1.nextEpoch (c.word 0 % 64))]).pulse (irqNo 0 7))) ∧
      (c.opcode = 3 → q.mbx.opened.lookup (c.word 0 % 65536) = none → answers (.mbxAbort t) v .tooLate []) ∧
      (c.opcode = 0x11 → isUnit (c.word 0 % 64) = true → answers (.unitGet t) v .ok
        [v.reg (SYS_UNIT_MGMT (c.word 0 % 64)), v.reg (SYS_UNIT_DP (c.word 0 % 64))]) ∧
      (∀ y, c.opcode = 0x20 → c.word 0 < 4 → v.store (c.word 1 + c.word 2 * 2 ^ 32)
        (cellsRead norZero v.nor (0x10000 + 0x10000 * c.word 0) 65536) = some y → answers (.calRead t) y .ok []) ∧
      (∀ bs : List Byte, c.opcode = 0x21 → c.word 0 = 1 → v.calWr = none →
        v.load (c.word 1 + c.word 2 * 2 ^ 32) 65536 = some bs → ∃ u, exec (.calWrite t) s = .next u ∧ u.nor = s.nor ∧
          (∃ w, u.calWr = some w ∧ w.secs = [0] ∧ w.step = 0 ∧ w.tag = c.tag ∧ w.data = [bs]) ∧
          u.mbx.opened.lookup c.tag = some 0x21) ∧
      (c.opcode = 0x30 → v.jrn.used = 0 → answers (.journalRead t) v .badArgument []) ∧
      (∀ len, c.opcode = 0x30 → v.jrn.used = 1 → v.jrn.first < 1520 → v.jrnLen (jrnSector v.jrn.first + 16) = some len →
        v.norWord (jrnSector v.jrn.first + 28 + len) = 0xC0DE → v.norWord (jrnSector v.jrn.first + 20) = c.word 0 →
        ∀ y, v.store (c.word 1 + c.word 2 * 2 ^ 32) (cellsRead norZero v.nor (jrnSector v.jrn.first + 28) len) = some y →
          answers (.journalRead t) y .ok [BitVec.ofNat 32 len])) ∧
    (∀ (img : List Byte) (r : State × Code), v.romServes = true → c.opcode = 4 → inSram (c.word 0) = true →
      inSram (c.word 0 + 63) = true → headerCode ((v.load (c.word 0) 64).getD []) v.board.svn = none →
      inSram (c.word 0 + imgLen ((v.load (c.word 0) 64).getD []) + 135) = true →
      v.load (c.word 0) (imgLen ((v.load (c.word 0) 64).getD []) + 136) = some img → r = v.romVerify 3 img →
      (r.2 ≠ .ok → answers (.boot t) r.1 r.2 []) ∧
      (r.2 = .ok → exec (.boot t) s = .next ((r.1.mbxRespond 4 c.tag 0 []).setRb HIF_MBX_STATUS 0 false))) ∧
    (∀ (w y : State) (op tag code : Nat) (p : List Word), w.mbx.out = [] → p.length ≤ 14 →
      (w.rf HIF_MBX_RSP_IDX 23 16 + 1) % 256 ≠ w.rf HIF_MBX_RSP_IDX 7 0 →
      w.store (w.mbxBase + 0x4000 + 64 * w.rf HIF_MBX_RSP_IDX 23 16) (MbxRsp.bytes ⟨op, tag, code, p⟩) = some y →
      (w.mbxRespond op tag code p).mem = y.mem ∧ (w.mbxRespond op tag code p).mbx.out = [] ∧
      (w.mbxRespond op tag code p).rf HIF_MBX_RSP_IDX 23 16 = (w.rf HIF_MBX_RSP_IDX 23 16 + 1) % 256) ∧
    (∀ x : BitVec 8, s.opens .host HIF_MBX_CMD_IDX → s.rb HIF_MBX_STATUS 0 = true → ∃ u, exec (.mailboxTailWrite t x) s = .next u ∧
      u.rf HIF_MBX_CMD_IDX 7 0 = x.toNat ∧ s.regsBut u [HIF_MBX_CMD_IDX] ∧ u.mem = s.mem ∧
      u.irqPend.getLsbD (irqNo 14 0) = true) ∧
    (∀ x : BitVec 8, s.opens .host HIF_MBX_CMD_IDX → s.rb HIF_MBX_STATUS 0 = false → ∃ u, exec (.mailboxTailWrite t x) s = .next u ∧
      u.rb HIF_MBX_STATUS 1 = true ∧ s.regsBut u [HIF_MBX_STATUS] ∧ u.mem = s.mem)

/-- Parts of R430, R431, R433, R435, R446, R451, R456: a unit is set in or out of service with both records at the
next epoch, and an epoch that is not the next is refused; the fuses only rise; the first store error is kept; console
blocks are taken in order; a snapshot copies the counters; a claim takes the pending, enabled source of highest
priority. It rests on the model's choices in assumptions 18, 31, 128. Completes: UNIT_SET, SYS_SVN_BURN,
STORE_BUS_ERROR, CONSOLE_IMAGE_BLOCK, SNAP, INTERRUPT_CLAIM. -/
def Obligations.ControlCommands : Prop :=
  ∀ (s : State) (t : Nat) (by_ : Ini) (v : Word), s.runs 0 →
    (∀ u0 e : Nat, s.opens by_ SYS_UNIT_CMD → u0 = fld v 5 0 → e = s.rf SYS_UNIT_ARG 31 16 → fld v 31 28 = 1 → isUnit u0 = true → u0 < 0x38 →
      (e ≠ s.nextEpoch u0 → ∃ u, exec (.unitSet t (.reg by_ v)) s = .next u ∧ u.regs = s.regs ∧ u.mem = s.mem ∧
        (u.latch by_ SYS_UNIT_RES).toNat % 65536 = 10) ∧
      (e = s.nextEpoch u0 → s.rb SYS_UNIT_ARG 0 = true → s.domOn (unitDomain u0) = true → ∃ u,
        exec (.unitSet t (.reg by_ v)) s = .next u ∧ u.inService u0 = true ∧ u.mgmtEpoch u0 = e ∧ u.dpEpoch u0 = e ∧
        s.regsBut u [SYS_UNIT_MGMT u0, SYS_UNIT_DP u0] ∧ u.mem = s.mem ∧
        (u.latch by_ SYS_UNIT_RES).toNat % 65536 = 0) ∧
      (e = s.nextEpoch u0 → s.rb SYS_UNIT_ARG 0 = false → ∃ u, exec (.unitSet t (.reg by_ v)) s = .next u ∧
        u.inService u0 = false ∧ u.mgmtEpoch u0 = e ∧ u.dpEpoch u0 = e ∧
        (u.latch by_ SYS_UNIT_RES).toNat % 65536 = 0)) ∧
    (s.opens by_ SYS_SVN_BURN → ∃ u, exec (.sysSvnBurn t by_ v) s = .next u ∧ u.regs = s.regs ∧ u.mem = s.mem ∧ u.board.svn =
      if s.board.svn < fld v 6 0 ∧ fld v 6 0 ≤ 64 then fld v 6 0 else s.board.svn) ∧
    (∀ a : BitVec 36, ∃ u, exec (.storeBusError t a) s = .next u ∧ u.mem = s.mem ∧
      s.regsBut u [SYS_BUSERR_LO, SYS_BUSERR_HI] ∧ u.rb SYS_BUSERR_HI 31 = true ∧
      (s.rb SYS_BUSERR_HI 31 = true → u.regs = s.regs) ∧ (s.rb SYS_BUSERR_HI 31 = false →
        u.reg SYS_BUSERR_LO = a.setWidth 32 ∧ u.rf SYS_BUSERR_HI 3 0 = a.toNat / 2 ^ 32)) ∧
    (∀ (i : BitVec 32) (data : List Byte) (ok : Bool), s.boot.phase = .console →
      (ok = true → i.toNat = s.boot.next → data.length = 1024 → ∃ u, exec (.consoleImageBlock t i data ok) s = .next u ∧
        u.boot = { s.boot with next := s.boot.next + 1, bytes := s.boot.bytes ++ data, reply := some 0x06 } ∧
        u.mem = s.mem ∧ u.regs = s.regs) ∧
      (ok = false ∨ i.toNat ≠ s.boot.next → ∃ u, exec (.consoleImageBlock t i data ok) s = .next u ∧
        u.boot = { s.boot with reply := some 0x15 } ∧ u.mem = s.mem ∧ u.regs = s.regs)) ∧
    (∀ (h : Fin 4) (f : Bool), s.opens (.hart h .machine) PCNT_CTL → ∃ u, exec (.snap t (.hart h .machine) f) s = .next u ∧
      u.pcntShd = s.pcnt ∧ u.reg PCNT_CTL = BitVec.ofNat 32 f.toNat ∧ s.regsBut u [PCNT_CTL] ∧ u.mem = s.mem) ∧
    (∀ f : Bool, s.opens .host PCNT_CTL → exec (.snap t .host f) s = .next ((s.at t).answer .host .error)) ∧
    (∀ (h : Fin 4) (p : Priv) (f : Bool), p ≠ .machine → s.opens (.hart h p) PCNT_CTL → ∃ u,
      exec (.snap t (.hart h p) f) s = .next u ∧ tabGet .none u.resp h = .error ∧ u.pcntShd = s.pcntShd ∧
      s.regsBut u [SYS_BUSERR_LO, SYS_BUSERR_HI] ∧ u.mem = s.mem) ∧
    (∀ (h : Fin 4) (sup : Bool), ∃ u n, exec (.interruptClaim t h sup) s = .next u ∧ u.regs = s.regs ∧ u.mem = s.mem ∧
      tabGet BusResp.none u.resp h = .data n ∧
      let can := fun (m : Nat) => (s.at t).irqPending m = true ∧ s.irqEnabled (2 * h + sup.toNat) m = true ∧
        0 < s.rf (PLIC_PRIORITY m) 2 0
      (n = 0 → u.irqPend = s.irqPend ∧ u.irqServed = s.irqServed ∧ ∀ m < 256, ¬can m) ∧
      (n ≠ 0 → can n ∧ n < 256 ∧ u.irqPend.getLsbD n = false ∧ u.irqServed.getLsbD n = true ∧
        ∀ m < 256, can m → s.rf (PLIC_PRIORITY m) 2 0 ≤ s.rf (PLIC_PRIORITY n) 2 0 ∧
          (s.rf (PLIC_PRIORITY m) 2 0 = s.rf (PLIC_PRIORITY n) 2 0 → n ≤ m)))

/-- Parts of R441 to R443, R445: an append that fits the open sector writes one record there; an erase frees the
oldest sector and leaves its count; the SRAM scrub, the telemetry ring and the calibration seconds. It rests on the
model's choices in assumptions 121, 127. Completes: JOURNAL_APPEND, NOR_ERASE, SRAM_SCRUB, TELEMETRY_SAMPLE,
BG_CAL_SECOND. -/
def Obligations.BackgroundWork : Prop :=
  ∀ (s : State) (t : Nat), s.runs 0 →
    (∀ (data : List Byte) (cut : Bool), 1 ≤ data.length → data.length ≤ 4080 → 1 ≤ s.jrn.used →
      s.jrn.off + 16 + data.length ≤ 0x10000 → ∃ u, exec (.journalAppend t data cut) s = .next u ∧ u.mem = s.mem ∧
        u.regs = s.regs ∧ u.jrn = { s.jrn with off := s.jrn.off + 16 + data.length, seq := (s.jrn.seq + 1) % 2 ^ 32,
                                               code := some .ok } ∧
        u.nor = cellsWrite norZero s.nor (0x2100000 + 0x10000 * ((s.jrn.first + s.jrn.used + 1519) % 1520) + s.jrn.off)
          (jrnRecord s.jrn.seq data cut)) ∧
    (∀ (data : List Byte) (cut : Bool), data = [] ∨ 4080 < data.length → ∃ u,
      exec (.journalAppend t data cut) s = .next u ∧ u.nor = s.nor ∧ u.jrn = { s.jrn with code := some .badArgument }) ∧
    (∀ (data : List Byte) (cut : Bool), 1 ≤ data.length → data.length ≤ 4080 → s.jrn.used = 1520 →
      0x10000 < s.jrn.off + 16 + data.length → ∃ u, exec (.journalAppend t data cut) s = .next u ∧ u.nor = s.nor ∧
      u.jrn = { s.jrn with code := some .noBuffer }) ∧
    (1517 ≤ s.jrn.used → s.bg.norSec ≠ (s.at t).clk / 1000000000 → s.rf SYS_NOR_CTL 7 0 ≠ 0 → ∃ u,
      exec (.norErase t) s = .next u ∧ u.jrn.first = (s.jrn.first + 1) % 1520 ∧ u.jrn.used = s.jrn.used - 1 ∧
      (u.reg SYS_CNT_NOR_ERASE).toNat = min 0xFFFFFFFF ((s.reg SYS_CNT_NOR_ERASE).toNat + 1) ∧ u.mem = s.mem ∧
      (∀ j, jrnSector s.jrn.first + 4 ≤ j → j < jrnSector s.jrn.first + 0x10000 → cellGet norZero u.nor j = 0xFF) ∧
      (∀ j, j < jrnSector s.jrn.first ∨ jrnSector s.jrn.first + 0x10000 ≤ j →
        cellGet norZero u.nor j = cellGet norZero s.nor j)) ∧
    (s.jrn.used < 1517 → exec (.norErase t) s = .next (s.at t)) ∧
    (∀ (e : Ecc) (w : Bool) (g : Nat), s.domOn 21 = true → s.rb SYS_SSCRUB_CTL 31 = true → s.rf SYS_SSCRUB_CTL 11 0 ≠ 0 →
      s.bg.sramMs ≠ (s.at t).clk / 1000000 → g = 0x200000 + s.bg.sramPos → s.bg.sramBad.contains g = false → ∃ u,
        exec (.sramScrub t e w) s = .next u ∧ u.mem = s.mem ∧ u.bg.sramPos = (s.bg.sramPos + 1) % 262144 ∧
        (e = .clean → u.bg.sramBad = s.bg.sramBad) ∧
        (∀ b y, e = .uncorrectable b y → g ∈ u.bg.sramBad ∧ u.irqPend.getLsbD (irqNo 0 5) = true ∧
          (u.reg SYS_CNT_SSCRUB_UE).toNat = min 0xFFFFFFFF ((s.reg SYS_CNT_SSCRUB_UE).toNat + 1))) ∧
    (s.rb SYS_TELEM_CTL 31 = false → exec (.telemetrySample t) s = .next (s.at t)) ∧
    (∀ b, s.bg.telemAt = some b → (s.at t).clk < b + s.rf SYS_TELEM_CTL 9 0 * 1000000 →
      exec (.telemetrySample t) s = .next (s.at t)) ∧
    (s.rb SYS_TELEM_CTL 31 = true → (∀ b, s.bg.telemAt = some b → b + s.rf SYS_TELEM_CTL 9 0 * 1000000 ≤ (s.at t).clk) →
      ((s.rf SYS_TELEM_IDX 25 16 + 1) % 1024 = s.rf SYS_TELEM_IDX 9 0 → ∃ u, exec (.telemetrySample t) s = .next u ∧
        u.mem = s.mem ∧ (u.reg SYS_CNT_TELEM_DROP).toNat = min 0xFFFFFFFF ((s.reg SYS_CNT_TELEM_DROP).toNat + 1)) ∧
      (∀ a, a = s.rf SYS_TELEM_HI 3 0 * 2 ^ 32 + s.rf SYS_TELEM_LO 31 16 * 2 ^ 16 + 64 * s.rf SYS_TELEM_IDX 25 16 →
        (s.rf SYS_TELEM_IDX 25 16 + 1) % 1024 ≠ s.rf SYS_TELEM_IDX 9 0 → s.memOk a = true → s.memOk (a + 63) = true →
        Memory.wf s.mem = true → ∃ u, exec (.telemetrySample t) s = .next u ∧ s.bytesBut u a 64 ∧
          u.rf SYS_TELEM_IDX 25 16 = (s.rf SYS_TELEM_IDX 25 16 + 1) % 1024 ∧
          (∀ j < 4, u.byte (a + j) = BitVec.ofNat 8 (((s.at t).now % 1000000000).toNat / 2 ^ (8 * j))))) ∧
    (∃ u, exec (.bgCalSecond t) s = .next u ∧ u.mem = s.mem ∧ ∀ n : Fin 3, (u.reg (SYS_BG_CAL_LATE n)).toNat =
      min 0xFFFFFFFF ((s.reg (SYS_BG_CAL_LATE n)).toNat + if s.domOn (1 + n) ∧ (s.lamp n).calDue ≠ 0 then 1 else 0))

/-- Parts of R448 to R450: a HELLO is answered and sets VER_OK by its version and member id; a KEEPALIVE is timed and
an unknown type counted; another cluster's messages change nothing; masks are offered, agreed and applied at T; an
choices in assumptions 129, 130, 131. Completes: CLUSTER_HELLO, HELLO_ACK, KEEPALIVE, MASK_COMMIT, SOFT_EXPORT,
MASK_PROPOSE, MASK_APPLY, CLU_IMPORT. -/
def Obligations.ClusterMessages : Prop :=
  ∀ (s : State) (t : Nat) (by_ : Ini) (k : Fin 4) (h : CluHdr) (m : Masks) (v : Word), s.runs 17 →
    let sent := fun (u : State) (ty : Nat) (c : Option Code) (b : List Byte) => u.clu.sent = s.clu.sent ++ [⟨k, ty, c, b⟩]
    (∃ u, exec (.clusterHello t k none) s = .next u ∧ sent u 1 none [0, 1] ∧ u.regs = s.regs ∧ u.mem = s.mem) ∧
    (h.cluster ≠ Config.clusterId → ∀ c ∈ [Instr.clusterHello t k (some h), .helloAck t k h 0, .keepalive t k h 5,
      .maskCommit t k h 0 m, .softExport t k (some (h, v))], exec c s = .next (s.at t)) ∧
    (h.cluster = Config.clusterId →
      (h.src.toNat ≠ s.member → h.major = 1 → ∃ u, exec (.clusterHello t k (some h)) s = .next u ∧
        u.rb (CLU_PEER k) 0 = true ∧ sent u 2 (some .ok) [0, 1] ∧ s.regsBut u [CLU_PEER k] ∧ u.mem = s.mem) ∧
      (h.src.toNat = s.member ∨ h.major ≠ 1 → ∃ u, exec (.clusterHello t k (some h)) s = .next u ∧
        u.rb (CLU_PEER k) 0 = false ∧ s.regsBut u [CLU_PEER k] ∧ u.mem = s.mem ∧
        sent u 2 (some (if h.src.toNat = s.member then .badArgument else .versionMismatch)) [0, 1]) ∧
      (∀ c : BitVec 8, ∃ u, exec (.helloAck t k h c) s = .next u ∧ u.rb (CLU_PEER k) 0 = decide (h.major = 1 ∧ c = 0) ∧
        s.regsBut u [CLU_PEER k] ∧ u.mem = s.mem) ∧
      (∃ u, exec (.keepalive t k h 5) s = .next u ∧ tabGet 0 u.clu.heard k = (s.at t).clk ∧ u.regs = s.regs ∧
        u.mem = s.mem) ∧
      (∀ ty : BitVec 8, ty ≠ 5 → ∃ u, exec (.keepalive t k h ty) s = .next u ∧ u.clu = { s.clu with
        unknown := s.clu.unknown + 1 } ∧ u.regs = s.regs ∧ u.mem = s.mem) ∧
      (∀ d, s.clu.deal = some d → s.rb (CLU_PEER k) 0 = true →
        (∀ c : BitVec 8, c ≠ 0 → ∃ u, exec (.maskCommit t k h c m) s = .next u ∧ u.clu.deal = none ∧ u.regs = s.regs) ∧
        (∃ u y, exec (.maskCommit t k h 0 m) s = .next u ∧ u.clu.deal = some y ∧ y.agreed = true ∧
          y.partLen = d.partLen ∧ (s.member < h.src.toNat → y.masks = d.masks) ∧
          ((s.at t).now ≤ (d.at_ : Int) * 1000000000 → y.at_ = d.at_) ∧ u.regs = s.regs)) ∧
      (∀ (at_ : BitVec 48) (n : BitVec 16), s.rb (CLU_PEER k) 0 = true → ∃ u,
        exec (.maskPropose t k (some h) n m at_) s = .next u ∧ u.regs = s.regs ∧ u.mem = s.mem ∧
        (n.toNat ≠ s.rf LANT_PART 15 0 → sent u 4 (some .refused) [] ∧ u.clu.deal = s.clu.deal) ∧
        (n.toNat = s.rf LANT_PART 15 0 → ∃ y, u.clu.deal = some y ∧ y.partLen = n.toNat ∧ y.agreed = true ∧
          y.masks = s.settle s.claims [m.l0, m.l1, m.l2] h.src.toNat ∧ sent u 4 (some .ok) (maskBytes y.masks))) ∧
      (inSram (v.toNat * 16) = false → inDram (v.toNat * 16) = false → ∃ u,
        exec (.softExport t k (some (h, v))) s = .next u ∧ (u.reg CLU_CNT_IMP_BAD).toNat = min 0xFFFFFFFF ((s.reg CLU_CNT_IMP_BAD).toNat + 1))) ∧
    (∀ (at_ : BitVec 48) (n : BitVec 16), s.rb (CLU_PEER k) 0 = true → ∃ u,
      exec (.maskPropose t k none n m at_) s = .next u ∧ u.regs = s.regs ∧ u.mem = s.mem ∧
      u.clu.deal = some ⟨s.rf LANT_PART 15 0, [m.l0, m.l1, m.l2], at_.toNat, false⟩) ∧
    (∀ d a b c, s.clu.deal = some d → d.agreed = true → d.masks = [a, b, c] → (d.at_ : Int) * 1000000000 ≤ (s.at t).now →
      s.domOn 13 = true → ∃ u, exec (.maskApply t) s = .next u ∧ u.clu.deal = none ∧ u.mem = s.mem ∧
        (∀ i : Fin 3, u.reg (LANT_PART_LO i) = ([a, b, c][i]).setWidth 32 ∧
          u.reg (LANT_PART_HI i) = ([a, b, c][i] >>> 32).setWidth 32)) ∧
    (s.opens by_ CLU_IMPORT → (inSram (v.toNat * 16) || inDram (v.toNat * 16)) = false → ∃ u, exec (.cluImport t by_ v) s = .next u ∧
      (u.reg CLU_CNT_IMP_BAD).toNat = min 0xFFFFFFFF ((s.reg CLU_CNT_IMP_BAD).toNat + 1) ∧ u.mem = s.mem ∧
      s.regsBut u [CLU_CNT_IMP_BAD]) ∧
    (∀ b0 b1 : List Byte, s.opens by_ CLU_IMPORT → inSram (v.toNat * 16) = true ∨ inDram (v.toNat * 16) = true → s.load (v.toNat * 16) 0x20 = some b0 →
      s.load (v.toNat * 16) (bodyLen b0) = some b1 → s.domOn 14 = true →
      exec (.cluImport t by_ v) s = .next (((s.at t).importBody b1).answer by_
        (if ((s.at t).importBody b1).fabricHolds (iniIdx by_) then .held else .done))) ∧
    (∀ (x : Export) (r : List Export), s.domOn 14 = true → s.mant.exports = x :: r →
      x.peers = [s.rf (MANT_EXP_PEER k) 9 0] → (s.at t).now ≤ x.t0 + 2000000 - s.rf MANT_EXP_CTL 29 20 * 1000 →
      ∃ u, exec (.softExport t k none) s = .next u ∧ u.mant.exports = r ∧
        (s.rb (CLU_PEER k) 0 = false → u.clu = s.clu ∧ u.regs = s.regs) ∧
        (s.rb (CLU_PEER k) 0 = true → sent u 0x10 none x.body ∧ u.clu.seq = (s.clu.seq + 1) % 2 ^ 32 ∧
          (u.reg MANT_CNT_EXP_SENT).toNat = min 0xFFFFFFFF ((s.reg MANT_CNT_EXP_SENT).toNat + 1)))

/-- Parts of R3, R5, R20, R22, R40, R42, R65, R412, R428, R459: an access of an initiator that does not reach the
fabric does nothing, one that PMP stops is an access fault; a served write of a register without a meaning of its own
stores its RW bits and clears its W1C bits; a read returns its RC bits to reset; a reserved entry reads 0 and ignores
writes; memory is written byte by byte; an access that nothing serves, one of another width among them, is a bus error
that changes nothing else; a low read fixes the high half. It rests on the model's choices in assumptions 15, 16, 136,
140. Completes: REGISTER_WRITE, RC_READ, LOW_READ. -/
def Obligations.RegisterAccess : Prop :=
  ∀ (s : State) (t : Nat) (by_ : Ini) (a : BitVec 36) (v : BitVec 64) (n : Fin 9),
    (s.hears by_ = false → ∀ c ∈ [Instr.registerWrite t by_ a n v, .rcRead t by_ a n, .lowRead t by_ a],
      exec c s = .next (s.at t)) ∧
    (s.hears by_ = true →
    (s.pmpOk by_ .write a.toNat n = false → exec (.registerWrite t by_ a n v) s = .next ((s.at t).answer by_ .fault)) ∧
    (s.pmpOk by_ .read a.toNat n = false → exec (.rcRead t by_ a n) s = .next ((s.at t).answer by_ .fault)) ∧
    let answers := fun (u : State) (r : BusResp) => tabGet BusResp.none u.resp (iniIdx by_) = r
    let reg := inMemory a.toNat = false ∧ 0x10000 ≤ a.toNat
    let w : Word := v.setWidth 32
    (∀ f, reg → s.pmpOk by_ .write a.toNat 4 = true → s.served by_ a.toNat 4 true = true → rsvdEntry a.toNat = false →
      (s.at t).ownWrite by_ a.toNat w = none → regFind a.toNat = some f →
      ∃ u, exec (.registerWrite t by_ a 4 v) s = .next u ∧ answers u .done ∧ s.regsBut u [a.toNat] ∧ u.mem = s.mem ∧
        ∀ i < 32, (u.reg a.toNat).getLsbD i = if f.rw.testBit i then (regClamp a.toNat w).getLsbD i
          else (s.reg a.toNat).getLsbD i && !(f.w1c.testBit i && (regClamp a.toNat w).getLsbD i)) ∧
    (reg → s.pmpOk by_ .write a.toNat n = true → s.served by_ a.toNat n true = false → ∃ u,
      exec (.registerWrite t by_ a n v) s = .next u ∧ answers u .error ∧
      s.regsBut u [SYS_BUSERR_LO, SYS_BUSERR_HI] ∧ u.mem = s.mem) ∧
    (reg → s.pmpOk by_ .read a.toNat n = true → s.served by_ a.toNat n false = false →
      exec (.rcRead t by_ a n) s = .next ((s.at t).answer by_ .error)) ∧
    (reg → n ≠ 4 → s.served by_ a.toNat n false = false ∧ s.served by_ a.toNat n true = false) ∧
    (reg → rsvdEntry a.toNat = true →
      (s.pmpOk by_ .write a.toNat 4 = true → s.served by_ a.toNat 4 true = true →
        exec (.registerWrite t by_ a 4 v) s = .next ((s.at t).answer by_ .done)) ∧
      (s.pmpOk by_ .read a.toNat 4 = true → s.served by_ a.toNat 4 false = true →
        exec (.rcRead t by_ a 4) s = .next ((s.at t).answer by_ (.data 0)))) ∧
    (inMemory a.toNat = true → n ≠ 0 → s.pmpOk by_ .write a.toNat n = true → s.hostSees by_ a.toNat n = true →
      s.memOk a.toNat = true → s.memOk (a.toNat + (n - 1)) = true → Memory.wf s.mem = true → ∃ u,
        exec (.registerWrite t by_ a n v) s = .next u ∧
        answers u .done ∧ s.bytesBut u a.toNat n ∧ u.regs = s.regs ∧ Memory.wf u.mem = true ∧
        ∀ j < n.val, u.byte (a.toNat + j) = BitVec.ofNat 8 (v.toNat / 2 ^ (8 * j))) ∧
    (∀ bs : List Byte, inMemory a.toNat = true → n ≠ 0 → s.pmpOk by_ .read a.toNat n = true →
      s.hostSees by_ a.toNat n = true → s.load a.toNat n = some bs →
      exec (.rcRead t by_ a n) s = .next ((s.at t).answer by_ (.data (leNat bs)))) ∧
    (s.opensRead by_ SYS_CNT_SSCRUB_UE → ∃ u, exec (.rcRead t by_ (BitVec.ofNat 36 SYS_CNT_SSCRUB_UE) 4) s = .next u ∧
      answers u (.data (s.reg SYS_CNT_SSCRUB_UE).toNat) ∧ u.reg SYS_CNT_SSCRUB_UE = 0 ∧
      s.regsBut u [SYS_CNT_SSCRUB_UE] ∧ u.mem = s.mem) ∧
    (s.opensRead by_ NTIM_RAW_LO → ∃ u, exec (.lowRead t by_ (BitVec.ofNat 36 NTIM_RAW_LO)) s = .next u ∧
      answers u (.data ((s.at t).raw % 2 ^ 32)) ∧ u.latch by_ NTIM_RAW_HI = BitVec.ofNat 32 ((s.at t).raw / 2 ^ 32) ∧
      u.regs = s.regs ∧ u.mem = s.mem) ∧
    (s.opensRead by_ NTIM_RAW_HI → ∃ u, exec (.rcRead t by_ (BitVec.ofNat 36 NTIM_RAW_HI) 4) s = .next u ∧
      answers u (.data (s.latch by_ NTIM_RAW_HI).toNat) ∧ u.regs = s.regs ∧ u.mem = s.mem))

/-- A step takes the command at the front of the queue and runs it on the state with the queue's rest; on an empty
queue the block idles (the model's choice, assumption 2). -/
def Obligations.StepTakesFront : Prop :=
  (∀ (c : Instr) (rest : List Instr) (s : State), step { s with pending := c :: rest } = exec c { s with pending := rest }) ∧
    ∀ s : State, s.pending = [] → step s = .next s

/-- Parts of R2, R39, R42, R62, R70, R225, R333, R411, R447, R458: what stands right after reset: memories in their
form, the local time 0, network time not valid, every domain on and every unit but the DRAM ranks in service, and the
reset words. It rests on the model's choices in assumptions 9, 10. Completes: SOFT_WARM. -/
def Obligations.ResetState : Prop :=
  State.reset.formed ∧ State.reset.pending = [] ∧ State.reset.board.held = false ∧ State.reset.raw = 0 ∧
    State.reset.ntim.valid = false ∧ (∀ d, State.reset.domOn d = true) ∧
    (∀ u, u < 0x38 → State.reset.inService u = isUnit u) ∧ State.reset.inService 0x38 = false ∧
    (∀ n : Fin 64, (State.reset.core n).wsr = 0xA8) ∧ (∀ k : Fin 6, (State.reset.core (64 + k)).wsr = 0x08) ∧
    (∀ i : Nat, (State.reset.desc i).st = .free) ∧
    (∀ (s : State) (t : Nat) (y : Ini), s.opens y SYS_RESET_CTRL → ∃ u, exec (.softWarm t y) s = .next u ∧
      u.mem = s.mem ∧ (s.formed → u.formed))

/-- Parts of R257 to R287: the words of the Wick instruction set lose nothing: every well-formed instruction decodes
from its word. -/
def Obligations.WickWordsDecode : Prop :=
  ∀ i : WInstr, i.wf = true → wdecode (wencode i) = some i

/-- R223: logical d16 to d63 name physical registers through rrb, d0 to d15 never rotate. A rotation turns rrb down by
one, so that d(N+1) reads what dN read and d16 what d63 read; it happens at ROT and where an iteration of a rotating
loop ends, and nowhere else as a core moves to its next instruction. Completes: ROT. -/
def Obligations.Rotation : Prop :=
  let turned := fun (c u : WCore) => u.rrb.val = (c.rrb.val + 47) % 48 ∧ (∀ n : BitVec 6, n.toNat < 16 → u.dr n = c.dr n) ∧
    (∀ n : BitVec 6, 16 ≤ n.toNat → n.toNat < 63 → u.dr (n + 1) = c.dr n) ∧ u.dr 16 = c.dr 63
  let ends := fun (c : WCore) => match c.loops with | [] => false | l :: _ => decide (l.last = c.pc) && l.rot
  (∀ (c : WCore) (n : BitVec 6), (n.toNat < 16 → c.dr n = c.phys n.toNat) ∧
    (16 ≤ n.toNat → c.dr n = c.phys (16 + (n.toNat - 16 + c.rrb.val) % 48))) ∧
  (∀ c : WCore, (ends c = true → turned c c.next) ∧
    (ends c = false → c.next.rrb = c.rrb ∧ ∀ n, c.next.dr n = c.dr n)) ∧
  ∀ (s : State) (co : Core), s.issues co .rot → ends (s.seen co) = false →
    ∃ u, exec (.rot co) s = .next u ∧ s.coreOnly u (coreKey co) ∧ turned (s.seen co) (u.core (coreKey co))

/-- R234, R235: with wsr.AMk 0b01 or 0b10 every post-increment and post-modify of p0 to p3, by LD, ST and both slots
of DMOV, is circular on its buffer, or bit-reversed relative to FIRST; a load or store without one leaves the pointer.
Completes: LD, ST, DMOV. -/
def Obligations.PointerModes : Prop :=
  ∀ (s : State) (co : Core) (reg : BitVec 6) (k : Fin 4),
    let key := coreKey co
    let pk := BitVec.ofNat 4 k
    let am := fun (c : WCore) (v : BitVec 2) => (c.wsr >>> (8 + 2 * k.val)).setWidth 2 = v
    let first := fun (c : WCore) => (tabGet (0 : BitVec 32) c.cb k).extractLsb' 16 16
    let last := fun (c : WCore) => (tabGet (0 : BitVec 32) c.cb k).extractLsb' 0 16
    let circ := fun (c : WCore) (p : BitVec 16) (step : Int) =>
      let l := (last c - first c).toNat + 1
      let off := (p - first c).toNat
      first c + BitVec.ofInt 16 ((off + step) % l)
    let brev := fun (c : WCore) (p : BitVec 16) (step : Int) =>
      first c + ((p - first c).reverse + (BitVec.ofInt 16 step).reverse).reverse
    ∀ rule ∈ [((1 : BitVec 2), circ), (2, brev)], am (s.seen co) rule.1 →
      (∀ (m : MemMode) (step : Int), (∃ i, m = .inc i ∧ step = i.toInt) ∨
          (∃ j, m = .post j ∧ step = ((s.seen co).ptr j).toInt) →
        (s.issues co (.mem false reg m pk) → ∃ u, exec (.ld co reg m pk) s = .next u ∧
          (u.core key).ptr pk = rule.2 (s.seen co) ((s.seen co).ptr pk) step) ∧
        (s.issues co (.mem true reg m pk) → ∃ u, exec (.st co reg m pk) s = .next u ∧
          (u.core key).ptr pk = rule.2 (s.seen co) ((s.seen co).ptr pk) step)) ∧
      (∀ x y : DMove, s.issues co (.dmov x y) → ∃ u, exec (.dmov co x y) s = .next u ∧
        (x.pk = pk → y.pk ≠ pk → (u.core key).ptr pk = rule.2 (s.seen co) ((s.seen co).ptr pk) x.i.toInt) ∧
        (x.pk ≠ pk → y.pk = pk → (u.core key).ptr pk = rule.2 (s.seen co) ((s.seen co).ptr pk) y.i.toInt) ∧
        (x.pk = pk → y.pk = pk → (u.core key).ptr pk =
          rule.2 (s.seen co) (rule.2 (s.seen co) ((s.seen co).ptr pk) x.i.toInt) y.i.toInt)) ∧
      (∀ m : MemMode, m = .ind ∨ (∃ i, m = .idx i) →
        (s.issues co (.mem false reg m pk) → ∃ u, exec (.ld co reg m pk) s = .next u ∧
          (u.core key).ptr pk = (s.seen co).ptr pk) ∧
        (s.issues co (.mem true reg m pk) → ∃ u, exec (.st co reg m pk) s = .next u ∧
          (u.core key).ptr pk = (s.seen co).ptr pk))

/-- The byte memories keep their one form through every command: from any state with both in it, a step leads to one
with both in it, so equal memories stay equal data. -/
def Obligations.MemoriesStayFormed : Prop :=
  ∀ s u : State, s.formed → step s = .next u → u.formed
end

