-- ==== Sys2Proof/Laws/Dsp.lean ====
section
/-! SUPPORT. Laws of the transform of Lens: zero samples stay zero, and a transform whose odd samples are zero is that of its
even ones, twice. -/
namespace Sys2Proof.Laws
open Sys2Proof.Machine

theorem cscale_zero (k : Int) : cscale (0, 0) k 524288 = (0, 0) := by simp [cscale, roundDiv]
theorem rotate_zero (z : Int) : rotate (0, 0) z = (0, 0) := by simp [rotate, cmul, roundDiv]
theorem hann_zero (n : Nat) : hann (List.replicate n (0, 0)) = List.replicate (min n 256) (0, 0) := by
  apply List.ext_getElem <;> simp [hann, cscale_zero]
theorem evens_zero (x : Cx) : ∀ n, evens (List.replicate (2 * n) x) = List.replicate n x ∧
    evens ((List.replicate (2 * n) x).drop 1) = List.replicate n x
  | 0 => ⟨rfl, rfl⟩
  | 1 => ⟨rfl, rfl⟩
  | n + 2 => by
    have h := evens_zero x (n + 1)
    simp only [List.drop_replicate] at h ⊢
    have a : 2 * (n + 2) = 2 * (n + 1) + 1 + 1 := by omega
    have b : 2 * (n + 2) - 1 = 2 * (n + 1) - 1 + 1 + 1 := by omega
    constructor
    · rw [a, List.replicate_succ, List.replicate_succ, evens, h.1, ← List.replicate_succ]
    · rw [b, List.replicate_succ, List.replicate_succ, evens, h.2, ← List.replicate_succ]
theorem rotated_zero (k : Nat) : ((List.replicate (2 ^ k) ((0 : Int), (0 : Int))).zip (List.range (2 ^ k))).map
    (fun (x : Cx × Nat) => rotate x.1 (-((x.2 : Int) * 2 ^ (31 - k)))) = List.replicate (2 ^ k) (0, 0) := by
  apply List.ext_getElem <;> simp [rotate_zero]
theorem pairs_zero (op : Cx → Cx → Cx) (h : ∀ x, op x (0, 0) = x) (e : List Cx) :
    (e.zip (List.replicate e.length ((0 : Int), (0 : Int)))).map (fun x => op x.1 x.2) = e := by
  apply List.ext_getElem <;> simp [h]
/-- A transform whose odd samples are zero is that of the even ones, twice. -/
theorem fft_even (k : Nat) (xs ys f : List Cx) (e : evens xs = ys) (h : fft k ys = f) (l : f.length = 2 ^ k)
    (o : fft k (evens (xs.drop 1)) = List.replicate (2 ^ k) (0, 0)) : fft (k + 1) xs = f ++ f := by
  subst e h
  simp only [fft, o, rotated_zero]
  rw [← l, pairs_zero cadd (by simp [cadd]), pairs_zero csub (by simp [csub])]
theorem fft_zero : ∀ k, fft k (List.replicate (2 ^ k) (0, 0)) = List.replicate (2 ^ k) (0, 0)
  | 0 => rfl
  | k + 1 => by
    have e := evens_zero (0, 0) (2 ^ k)
    rw [Nat.pow_succ, Nat.mul_comm]
    rw [fft_even k _ _ _ e.1 (fft_zero k) (by simp) (by rw [e.2, fft_zero k]), ← List.replicate_add, Nat.two_mul]

end Sys2Proof.Laws
end

