-- ==== Sys2Proof/Laws/Memory.lean ====
section
/-! SUPPORT. Laws of byte memory: reads after writes, and the canonical form. -/
namespace Sys2Proof.Machine

/-- Keys above `lo`. -/
theorem cellsAbove_weaken {z : Byte} {m : List Host.Cell} {lo lo' : Option Nat}
    (h : cellsAbove z lo m = true) (hl : ∀ l', lo' = some l' → ∃ l, lo = some l ∧ l' ≤ l) :
    cellsAbove z lo' m = true := by
  cases m with
  | nil => cases lo' <;> rfl
  | cons c r =>
    obtain ⟨a, b⟩ := c
    cases lo' with
    | none => cases lo <;> simp_all [cellsAbove]
    | some l' =>
      obtain ⟨l, rfl, hle⟩ := hl l' rfl
      simp only [cellsAbove, Bool.and_eq_true, decide_eq_true_eq] at h ⊢
      exact ⟨⟨by omega, h.1.2⟩, h.2⟩

/-- A key below every listed one reads as the unlisted byte. -/
theorem cellGet_below {z : Byte} {m : List Host.Cell} {l k : Nat} (h : cellsAbove z (some l) m = true) (hk : k ≤ l) :
    cellGet z m k = z := by
  induction m generalizing l with
  | nil => rfl
  | cons c r ih =>
    obtain ⟨a, b⟩ := c
    simp only [cellsAbove, Bool.and_eq_true, decide_eq_true_eq] at h
    simp only [cellGet]
    rw [if_neg (by omega)]
    exact ih h.2 (by omega)

/-- Writing keeps the canonical form above any bound below the key. -/
theorem cellSet_above {z : Byte} {m : List Host.Cell} {lo : Option Nat} {k : Nat} {v : Byte}
    (h : cellsAbove z lo m = true) (hk : ∀ l, lo = some l → l < k) : cellsAbove z lo (cellSet z m k v) = true := by
  induction m generalizing lo with
  | nil =>
    by_cases hv : v = z
    · simpa [cellSet, hv] using h
    · cases lo with
      | none => simp [cellSet, hv, cellsAbove]
      | some l => simp [cellSet, hv, cellsAbove, hk l rfl]
  | cons c r ih =>
    obtain ⟨a, b⟩ := c
    have ht : cellsAbove z (some a) r = true := by
      cases lo <;> simp_all [cellsAbove]
    have hb : b ≠ z := by
      cases lo <;> simp_all [cellsAbove]
    simp only [cellSet]
    split
    · rename_i hlt
      split
      · exact h
      · rename_i hv
        have hr : cellsAbove z (some k) ((a, b) :: r) = true := by
          simp [cellsAbove, hlt, hb, ht]
        cases lo with
        | none => simp [cellsAbove, hv] at hr ⊢; exact hr
        | some l => simp [cellsAbove, hv, hk l rfl] at hr ⊢; exact hr
    · split
      · rename_i hnlt heq
        subst heq
        split
        · exact cellsAbove_weaken ht (by intro l' hl'; exact ⟨k, rfl, by have := hk l' hl'; omega⟩)
        · rename_i hv
          cases lo with
          | none => simp [cellsAbove, hv, ht]
          | some l => simp [cellsAbove, hv, ht, hk l rfl]
      · rename_i hnlt hne
        have := ih ht (by intro l hl; cases hl; omega)
        cases lo with
        | none => simp [cellsAbove, hb, this]
        | some l =>
          simp only [cellsAbove, Bool.and_eq_true, decide_eq_true_eq] at h
          simp [cellsAbove, hb, this, h.1.1]

/-- A write of one byte keeps the canonical form. -/
theorem cellSet_wf {m : List Host.Cell} {k : Nat} {v : Byte} (h : Memory.wf m = true) :
    Memory.wf (cellSet memZero m k v) = true := cellSet_above h (by intro l hl; cases hl)

/-- A write of bytes keeps the canonical form, whatever an unlisted byte reads as. -/
theorem cellsWrite_above {z : Byte} {bs : List Byte} {m : List Host.Cell} {a : Nat} (h : cellsAbove z none m = true) :
    cellsAbove z none (cellsWrite z m a bs) = true := by
  induction bs generalizing m a with
  | nil => exact h
  | cons b bs ih => exact ih (cellSet_above h (by intro l hl; cases hl))

/-- A write of bytes keeps the canonical form. -/
theorem cellsWrite_wf {bs : List Byte} {m : List Host.Cell} {a : Nat} (h : Memory.wf m = true) :
    Memory.wf (cellsWrite memZero m a bs) = true := cellsWrite_above h

/-- A write of enabled bytes keeps the canonical form. -/
theorem writeEnabled_wf {bs : List (Option Byte)} {m : List Host.Cell} {a : Nat} (h : Memory.wf m = true) :
    Memory.wf (writeEnabled m a bs) = true := by
  induction bs generalizing m a with
  | nil => exact h
  | cons b bs ih =>
    cases b with
    | none => exact ih h
    | some b => exact ih (cellSet_wf h)

/-- Dropping cells keeps the canonical form above any bound. -/
theorem filter_above {z : Byte} {p : Host.Cell → Bool} {m : List Host.Cell} {lo : Option Nat}
    (h : cellsAbove z lo m = true) : cellsAbove z lo (m.filter p) = true := by
  induction m generalizing lo with
  | nil => exact h
  | cons c r ih =>
    obtain ⟨a, b⟩ := c
    have ht : cellsAbove z (some a) r = true := by cases lo <;> simp_all [cellsAbove]
    simp only [List.filter_cons]
    split
    · have := ih ht
      cases lo <;> simp_all [cellsAbove]
    · refine ih (cellsAbove_weaken ht ?_)
      intro l' hl'
      subst hl'
      simp only [cellsAbove, Bool.and_eq_true, decide_eq_true_eq] at h
      exact ⟨a, rfl, by omega⟩

/-- Dropping cells keeps the canonical form. -/
theorem filter_wf {p : Host.Cell → Bool} {m : List Host.Cell} (h : Memory.wf m = true) :
    Memory.wf (m.filter p) = true := filter_above h

/-- The contents of a rank dropped: the form stays. -/
theorem dropRank_wf {m : List Host.Cell} {r : Nat} (h : Memory.wf m = true) : Memory.wf (dropRank m r) = true :=
  filter_wf h

/-- A read after a write of the same byte gives what was written. -/
theorem cellGet_cellSet_same {z : Byte} {m : List Host.Cell} {lo : Option Nat} {k : Nat} {v : Byte}
    (h : cellsAbove z lo m = true) : cellGet z (cellSet z m k v) k = v := by
  induction m generalizing lo with
  | nil =>
    by_cases hv : v = z <;> simp [cellSet, hv, cellGet]
  | cons c r ih =>
    obtain ⟨a, b⟩ := c
    have ht : cellsAbove z (some a) r = true := by cases lo <;> simp_all [cellsAbove]
    simp only [cellSet]
    split
    · rename_i hlt
      split
      · rename_i hv
        subst hv
        simp only [cellGet]
        rw [if_neg (by omega)]
        exact cellGet_below ht (by omega)
      · simp [cellGet]
    · split
      · rename_i heq
        subst heq
        split
        · rename_i hv
          subst hv
          exact cellGet_below ht (Nat.le_refl _)
        · simp [cellGet]
      · rename_i hne
        simp only [cellGet]
        rw [if_neg (fun h => hne h.symm)]
        exact ih ht

/-- A write of one byte leaves every other byte. -/
theorem cellGet_cellSet_other {z : Byte} {m : List Host.Cell} {lo : Option Nat} {k j : Nat} {v : Byte}
    (h : cellsAbove z lo m = true) (hj : j ≠ k) : cellGet z (cellSet z m k v) j = cellGet z m j := by
  induction m generalizing lo with
  | nil =>
    by_cases hv : v = z
    · simp [cellSet, hv, cellGet]
    · simp [cellSet, hv, cellGet, Ne.symm hj]
  | cons c r ih =>
    obtain ⟨a, b⟩ := c
    have ht : cellsAbove z (some a) r = true := by cases lo <;> simp_all [cellsAbove]
    simp only [cellSet]
    split
    · split
      · rfl
      · simp [cellGet, Ne.symm hj]
    · split
      · rename_i heq
        subst heq
        split
        · simp [cellGet, Ne.symm hj]
        · simp [cellGet, Ne.symm hj]
      · simp only [cellGet]
        rw [ih ht]

/-- A write of bytes leaves every byte outside them. -/
theorem cellGet_cellsWrite_other {z : Byte} {bs : List Byte} {m : List Host.Cell} {a j : Nat}
    (h : cellsAbove z none m = true) (hj : j < a ∨ a + bs.length ≤ j) :
    cellGet z (cellsWrite z m a bs) j = cellGet z m j := by
  induction bs generalizing m a with
  | nil => rfl
  | cons b bs ih =>
    simp only [List.length_cons] at hj
    have h' := cellSet_above (v := b) (k := a) h (by intro l hl; cases hl)
    rw [cellsWrite, ih h' (by omega), cellGet_cellSet_other h (by omega)]

/-- Reading back the bytes written. -/
theorem cellsRead_cellsWrite {z : Byte} {bs : List Byte} {m : List Host.Cell} {a : Nat}
    (h : cellsAbove z none m = true) : cellsRead z (cellsWrite z m a bs) a bs.length = bs := by
  induction bs generalizing m a with
  | nil => rfl
  | cons b bs ih =>
    have h' := cellSet_above (v := b) (k := a) h (by intro l hl; cases hl)
    simp only [List.length_cons, cellsRead, cellsWrite]
    rw [ih h', cellGet_cellsWrite_other h' (by omega), cellGet_cellSet_same h]

/-- A store changes no byte outside it, and keeps the canonical form. -/
theorem store_frame {s t : State} {a : Nat} {bs : List Byte} (hw : Memory.wf s.mem = true) (h : s.store a bs = some t) :
    Memory.wf t.mem = true ∧ ∀ j, (j < a ∨ a + bs.length ≤ j) → t.byte j = s.byte j := by
  simp only [State.store] at h
  split at h
  · cases h
    exact ⟨cellsWrite_wf hw, fun j hj => cellGet_cellsWrite_other hw hj⟩
  · cases h

end Sys2Proof.Machine
end

