-- ==== Sys2Proof/Laws/State.lean ====
section
/-! SUPPORT. What each update of the state leaves as it was: one lemma per field per update, so that no proof unfolds one. -/
namespace Sys2Proof.Machine
variable (s : State)

/-! ### State.at -/
@[simp] theorem State.at_pending (t : Nat) : (s.at t).pending = s.pending := rfl
@[simp] theorem State.at_relAt (t : Nat) : (s.at t).relAt = s.relAt := rfl
@[simp] theorem State.at_freeCtr (t : Nat) : (s.at t).freeCtr = s.freeCtr := rfl
@[simp] theorem State.at_regs (t : Nat) : (s.at t).regs = s.regs := rfl
@[simp] theorem State.at_latches (t : Nat) : (s.at t).latches = s.latches := rfl
@[simp] theorem State.at_resp (t : Nat) : (s.at t).resp = s.resp := rfl
@[simp] theorem State.at_mem (t : Nat) : (s.at t).mem = s.mem := rfl
@[simp] theorem State.at_nor (t : Nat) : (s.at t).nor = s.nor := rfl
@[simp] theorem State.at_board (t : Nat) : (s.at t).board = s.board := rfl
@[simp] theorem State.at_ntim (t : Nat) : (s.at t).ntim = s.ntim := rfl
@[simp] theorem State.at_pps (t : Nat) : (s.at t).pps = s.pps := rfl
@[simp] theorem State.at_tmr (t : Nat) : (s.at t).tmr = s.tmr := rfl
@[simp] theorem State.at_lamps (t : Nat) : (s.at t).lamps = s.lamps := rfl
@[simp] theorem State.at_pair (t : Nat) : (s.at t).pair = s.pair := rfl
@[simp] theorem State.at_lens (t : Nat) : (s.at t).lens = s.lens := rfl
@[simp] theorem State.at_dets (t : Nat) : (s.at t).dets = s.dets := rfl
@[simp] theorem State.at_ctxs (t : Nat) : (s.at t).ctxs = s.ctxs := rfl
@[simp] theorem State.at_rtags (t : Nat) : (s.at t).rtags = s.rtags := rfl
@[simp] theorem State.at_rtagCnt (t : Nat) : (s.at t).rtagCnt = s.rtagCnt := rfl
@[simp] theorem State.at_rtagBase (t : Nat) : (s.at t).rtagBase = s.rtagBase := rfl
@[simp] theorem State.at_irqPend (t : Nat) : (s.at t).irqPend = s.irqPend := rfl
@[simp] theorem State.at_irqServed (t : Nat) : (s.at t).irqServed = s.irqServed := rfl
@[simp] theorem State.at_pcnt (t : Nat) : (s.at t).pcnt = s.pcnt := rfl
@[simp] theorem State.at_pcntShd (t : Nat) : (s.at t).pcntShd = s.pcntShd := rfl
@[simp] theorem State.at_pcntFrac (t : Nat) : (s.at t).pcntFrac = s.pcntFrac := rfl
@[simp] theorem State.at_dmc (t : Nat) : (s.at t).dmc = s.dmc := rfl
@[simp] theorem State.at_pwr (t : Nat) : (s.at t).pwr = s.pwr := rfl
@[simp] theorem State.at_cores (t : Nat) : (s.at t).cores = s.cores := rfl
@[simp] theorem State.at_chnd (t : Nat) : (s.at t).chnd = s.chnd := rfl
@[simp] theorem State.at_mant (t : Nat) : (s.at t).mant = s.mant := rfl
@[simp] theorem State.at_lant (t : Nat) : (s.at t).lant = s.lant := rfl
@[simp] theorem State.at_ciph (t : Nat) : (s.at t).ciph = s.ciph := rfl
@[simp] theorem State.at_sec (t : Nat) : (s.at t).sec = s.sec := rfl
@[simp] theorem State.at_emac (t : Nat) : (s.at t).emac = s.emac := rfl
@[simp] theorem State.at_mdio (t : Nat) : (s.at t).mdio = s.mdio := rfl
@[simp] theorem State.at_fwd (t : Nat) : (s.at t).fwd = s.fwd := rfl
@[simp] theorem State.at_tmgr (t : Nat) : (s.at t).tmgr = s.tmgr := rfl
@[simp] theorem State.at_harts (t : Nat) : (s.at t).harts = s.harts := rfl
@[simp] theorem State.at_boot (t : Nat) : (s.at t).boot = s.boot := rfl
@[simp] theorem State.at_mbx (t : Nat) : (s.at t).mbx = s.mbx := rfl
@[simp] theorem State.at_calWr (t : Nat) : (s.at t).calWr = s.calWr := rfl
@[simp] theorem State.at_jrn (t : Nat) : (s.at t).jrn = s.jrn := rfl
@[simp] theorem State.at_loader (t : Nat) : (s.at t).loader = s.loader := rfl
@[simp] theorem State.at_clu (t : Nat) : (s.at t).clu = s.clu := rfl
@[simp] theorem State.at_bg (t : Nat) : (s.at t).bg = s.bg := rfl

/-! ### State.setReg -/
@[simp] theorem State.setReg_pending (a : Nat) (v : Word) : (s.setReg a v).pending = s.pending := rfl
@[simp] theorem State.setReg_clk (a : Nat) (v : Word) : (s.setReg a v).clk = s.clk := rfl
@[simp] theorem State.setReg_relAt (a : Nat) (v : Word) : (s.setReg a v).relAt = s.relAt := rfl
@[simp] theorem State.setReg_freeCtr (a : Nat) (v : Word) : (s.setReg a v).freeCtr = s.freeCtr := rfl
@[simp] theorem State.setReg_latches (a : Nat) (v : Word) : (s.setReg a v).latches = s.latches := rfl
@[simp] theorem State.setReg_resp (a : Nat) (v : Word) : (s.setReg a v).resp = s.resp := rfl
@[simp] theorem State.setReg_mem (a : Nat) (v : Word) : (s.setReg a v).mem = s.mem := rfl
@[simp] theorem State.setReg_nor (a : Nat) (v : Word) : (s.setReg a v).nor = s.nor := rfl
@[simp] theorem State.setReg_board (a : Nat) (v : Word) : (s.setReg a v).board = s.board := rfl
@[simp] theorem State.setReg_ntim (a : Nat) (v : Word) : (s.setReg a v).ntim = s.ntim := rfl
@[simp] theorem State.setReg_pps (a : Nat) (v : Word) : (s.setReg a v).pps = s.pps := rfl
@[simp] theorem State.setReg_tmr (a : Nat) (v : Word) : (s.setReg a v).tmr = s.tmr := rfl
@[simp] theorem State.setReg_lamps (a : Nat) (v : Word) : (s.setReg a v).lamps = s.lamps := rfl
@[simp] theorem State.setReg_pair (a : Nat) (v : Word) : (s.setReg a v).pair = s.pair := rfl
@[simp] theorem State.setReg_lens (a : Nat) (v : Word) : (s.setReg a v).lens = s.lens := rfl
@[simp] theorem State.setReg_dets (a : Nat) (v : Word) : (s.setReg a v).dets = s.dets := rfl
@[simp] theorem State.setReg_ctxs (a : Nat) (v : Word) : (s.setReg a v).ctxs = s.ctxs := rfl
@[simp] theorem State.setReg_rtags (a : Nat) (v : Word) : (s.setReg a v).rtags = s.rtags := rfl
@[simp] theorem State.setReg_rtagCnt (a : Nat) (v : Word) : (s.setReg a v).rtagCnt = s.rtagCnt := rfl
@[simp] theorem State.setReg_rtagBase (a : Nat) (v : Word) : (s.setReg a v).rtagBase = s.rtagBase := rfl
@[simp] theorem State.setReg_irqPend (a : Nat) (v : Word) : (s.setReg a v).irqPend = s.irqPend := rfl
@[simp] theorem State.setReg_irqServed (a : Nat) (v : Word) : (s.setReg a v).irqServed = s.irqServed := rfl
@[simp] theorem State.setReg_pcnt (a : Nat) (v : Word) : (s.setReg a v).pcnt = s.pcnt := rfl
@[simp] theorem State.setReg_pcntShd (a : Nat) (v : Word) : (s.setReg a v).pcntShd = s.pcntShd := rfl
@[simp] theorem State.setReg_pcntFrac (a : Nat) (v : Word) : (s.setReg a v).pcntFrac = s.pcntFrac := rfl
@[simp] theorem State.setReg_dmc (a : Nat) (v : Word) : (s.setReg a v).dmc = s.dmc := rfl
@[simp] theorem State.setReg_pwr (a : Nat) (v : Word) : (s.setReg a v).pwr = s.pwr := rfl
@[simp] theorem State.setReg_cores (a : Nat) (v : Word) : (s.setReg a v).cores = s.cores := rfl
@[simp] theorem State.setReg_chnd (a : Nat) (v : Word) : (s.setReg a v).chnd = s.chnd := rfl
@[simp] theorem State.setReg_mant (a : Nat) (v : Word) : (s.setReg a v).mant = s.mant := rfl
@[simp] theorem State.setReg_lant (a : Nat) (v : Word) : (s.setReg a v).lant = s.lant := rfl
@[simp] theorem State.setReg_ciph (a : Nat) (v : Word) : (s.setReg a v).ciph = s.ciph := rfl
@[simp] theorem State.setReg_sec (a : Nat) (v : Word) : (s.setReg a v).sec = s.sec := rfl
@[simp] theorem State.setReg_emac (a : Nat) (v : Word) : (s.setReg a v).emac = s.emac := rfl
@[simp] theorem State.setReg_mdio (a : Nat) (v : Word) : (s.setReg a v).mdio = s.mdio := rfl
@[simp] theorem State.setReg_fwd (a : Nat) (v : Word) : (s.setReg a v).fwd = s.fwd := rfl
@[simp] theorem State.setReg_tmgr (a : Nat) (v : Word) : (s.setReg a v).tmgr = s.tmgr := rfl
@[simp] theorem State.setReg_harts (a : Nat) (v : Word) : (s.setReg a v).harts = s.harts := rfl
@[simp] theorem State.setReg_boot (a : Nat) (v : Word) : (s.setReg a v).boot = s.boot := rfl
@[simp] theorem State.setReg_mbx (a : Nat) (v : Word) : (s.setReg a v).mbx = s.mbx := rfl
@[simp] theorem State.setReg_calWr (a : Nat) (v : Word) : (s.setReg a v).calWr = s.calWr := rfl
@[simp] theorem State.setReg_jrn (a : Nat) (v : Word) : (s.setReg a v).jrn = s.jrn := rfl
@[simp] theorem State.setReg_loader (a : Nat) (v : Word) : (s.setReg a v).loader = s.loader := rfl
@[simp] theorem State.setReg_clu (a : Nat) (v : Word) : (s.setReg a v).clu = s.clu := rfl
@[simp] theorem State.setReg_bg (a : Nat) (v : Word) : (s.setReg a v).bg = s.bg := rfl

/-! ### State.setRf -/
@[simp] theorem State.setRf_pending (a hi lo x : Nat) : (s.setRf a hi lo x).pending = s.pending := rfl
@[simp] theorem State.setRf_clk (a hi lo x : Nat) : (s.setRf a hi lo x).clk = s.clk := rfl
@[simp] theorem State.setRf_relAt (a hi lo x : Nat) : (s.setRf a hi lo x).relAt = s.relAt := rfl
@[simp] theorem State.setRf_freeCtr (a hi lo x : Nat) : (s.setRf a hi lo x).freeCtr = s.freeCtr := rfl
@[simp] theorem State.setRf_latches (a hi lo x : Nat) : (s.setRf a hi lo x).latches = s.latches := rfl
@[simp] theorem State.setRf_resp (a hi lo x : Nat) : (s.setRf a hi lo x).resp = s.resp := rfl
@[simp] theorem State.setRf_mem (a hi lo x : Nat) : (s.setRf a hi lo x).mem = s.mem := rfl
@[simp] theorem State.setRf_nor (a hi lo x : Nat) : (s.setRf a hi lo x).nor = s.nor := rfl
@[simp] theorem State.setRf_board (a hi lo x : Nat) : (s.setRf a hi lo x).board = s.board := rfl
@[simp] theorem State.setRf_ntim (a hi lo x : Nat) : (s.setRf a hi lo x).ntim = s.ntim := rfl
@[simp] theorem State.setRf_pps (a hi lo x : Nat) : (s.setRf a hi lo x).pps = s.pps := rfl
@[simp] theorem State.setRf_tmr (a hi lo x : Nat) : (s.setRf a hi lo x).tmr = s.tmr := rfl
@[simp] theorem State.setRf_lamps (a hi lo x : Nat) : (s.setRf a hi lo x).lamps = s.lamps := rfl
@[simp] theorem State.setRf_pair (a hi lo x : Nat) : (s.setRf a hi lo x).pair = s.pair := rfl
@[simp] theorem State.setRf_lens (a hi lo x : Nat) : (s.setRf a hi lo x).lens = s.lens := rfl
@[simp] theorem State.setRf_dets (a hi lo x : Nat) : (s.setRf a hi lo x).dets = s.dets := rfl
@[simp] theorem State.setRf_ctxs (a hi lo x : Nat) : (s.setRf a hi lo x).ctxs = s.ctxs := rfl
@[simp] theorem State.setRf_rtags (a hi lo x : Nat) : (s.setRf a hi lo x).rtags = s.rtags := rfl
@[simp] theorem State.setRf_rtagCnt (a hi lo x : Nat) : (s.setRf a hi lo x).rtagCnt = s.rtagCnt := rfl
@[simp] theorem State.setRf_rtagBase (a hi lo x : Nat) : (s.setRf a hi lo x).rtagBase = s.rtagBase := rfl
@[simp] theorem State.setRf_irqPend (a hi lo x : Nat) : (s.setRf a hi lo x).irqPend = s.irqPend := rfl
@[simp] theorem State.setRf_irqServed (a hi lo x : Nat) : (s.setRf a hi lo x).irqServed = s.irqServed := rfl
@[simp] theorem State.setRf_pcnt (a hi lo x : Nat) : (s.setRf a hi lo x).pcnt = s.pcnt := rfl
@[simp] theorem State.setRf_pcntShd (a hi lo x : Nat) : (s.setRf a hi lo x).pcntShd = s.pcntShd := rfl
@[simp] theorem State.setRf_pcntFrac (a hi lo x : Nat) : (s.setRf a hi lo x).pcntFrac = s.pcntFrac := rfl
@[simp] theorem State.setRf_dmc (a hi lo x : Nat) : (s.setRf a hi lo x).dmc = s.dmc := rfl
@[simp] theorem State.setRf_pwr (a hi lo x : Nat) : (s.setRf a hi lo x).pwr = s.pwr := rfl
@[simp] theorem State.setRf_cores (a hi lo x : Nat) : (s.setRf a hi lo x).cores = s.cores := rfl
@[simp] theorem State.setRf_chnd (a hi lo x : Nat) : (s.setRf a hi lo x).chnd = s.chnd := rfl
@[simp] theorem State.setRf_mant (a hi lo x : Nat) : (s.setRf a hi lo x).mant = s.mant := rfl
@[simp] theorem State.setRf_lant (a hi lo x : Nat) : (s.setRf a hi lo x).lant = s.lant := rfl
@[simp] theorem State.setRf_ciph (a hi lo x : Nat) : (s.setRf a hi lo x).ciph = s.ciph := rfl
@[simp] theorem State.setRf_sec (a hi lo x : Nat) : (s.setRf a hi lo x).sec = s.sec := rfl
@[simp] theorem State.setRf_emac (a hi lo x : Nat) : (s.setRf a hi lo x).emac = s.emac := rfl
@[simp] theorem State.setRf_mdio (a hi lo x : Nat) : (s.setRf a hi lo x).mdio = s.mdio := rfl
@[simp] theorem State.setRf_fwd (a hi lo x : Nat) : (s.setRf a hi lo x).fwd = s.fwd := rfl
@[simp] theorem State.setRf_tmgr (a hi lo x : Nat) : (s.setRf a hi lo x).tmgr = s.tmgr := rfl
@[simp] theorem State.setRf_harts (a hi lo x : Nat) : (s.setRf a hi lo x).harts = s.harts := rfl
@[simp] theorem State.setRf_boot (a hi lo x : Nat) : (s.setRf a hi lo x).boot = s.boot := rfl
@[simp] theorem State.setRf_mbx (a hi lo x : Nat) : (s.setRf a hi lo x).mbx = s.mbx := rfl
@[simp] theorem State.setRf_calWr (a hi lo x : Nat) : (s.setRf a hi lo x).calWr = s.calWr := rfl
@[simp] theorem State.setRf_jrn (a hi lo x : Nat) : (s.setRf a hi lo x).jrn = s.jrn := rfl
@[simp] theorem State.setRf_loader (a hi lo x : Nat) : (s.setRf a hi lo x).loader = s.loader := rfl
@[simp] theorem State.setRf_clu (a hi lo x : Nat) : (s.setRf a hi lo x).clu = s.clu := rfl
@[simp] theorem State.setRf_bg (a hi lo x : Nat) : (s.setRf a hi lo x).bg = s.bg := rfl

/-! ### State.setRb -/
@[simp] theorem State.setRb_pending (a n : Nat) (b : Bool) : (s.setRb a n b).pending = s.pending := rfl
@[simp] theorem State.setRb_clk (a n : Nat) (b : Bool) : (s.setRb a n b).clk = s.clk := rfl
@[simp] theorem State.setRb_relAt (a n : Nat) (b : Bool) : (s.setRb a n b).relAt = s.relAt := rfl
@[simp] theorem State.setRb_freeCtr (a n : Nat) (b : Bool) : (s.setRb a n b).freeCtr = s.freeCtr := rfl
@[simp] theorem State.setRb_latches (a n : Nat) (b : Bool) : (s.setRb a n b).latches = s.latches := rfl
@[simp] theorem State.setRb_resp (a n : Nat) (b : Bool) : (s.setRb a n b).resp = s.resp := rfl
@[simp] theorem State.setRb_mem (a n : Nat) (b : Bool) : (s.setRb a n b).mem = s.mem := rfl
@[simp] theorem State.setRb_nor (a n : Nat) (b : Bool) : (s.setRb a n b).nor = s.nor := rfl
@[simp] theorem State.setRb_board (a n : Nat) (b : Bool) : (s.setRb a n b).board = s.board := rfl
@[simp] theorem State.setRb_ntim (a n : Nat) (b : Bool) : (s.setRb a n b).ntim = s.ntim := rfl
@[simp] theorem State.setRb_pps (a n : Nat) (b : Bool) : (s.setRb a n b).pps = s.pps := rfl
@[simp] theorem State.setRb_tmr (a n : Nat) (b : Bool) : (s.setRb a n b).tmr = s.tmr := rfl
@[simp] theorem State.setRb_lamps (a n : Nat) (b : Bool) : (s.setRb a n b).lamps = s.lamps := rfl
@[simp] theorem State.setRb_pair (a n : Nat) (b : Bool) : (s.setRb a n b).pair = s.pair := rfl
@[simp] theorem State.setRb_lens (a n : Nat) (b : Bool) : (s.setRb a n b).lens = s.lens := rfl
@[simp] theorem State.setRb_dets (a n : Nat) (b : Bool) : (s.setRb a n b).dets = s.dets := rfl
@[simp] theorem State.setRb_ctxs (a n : Nat) (b : Bool) : (s.setRb a n b).ctxs = s.ctxs := rfl
@[simp] theorem State.setRb_rtags (a n : Nat) (b : Bool) : (s.setRb a n b).rtags = s.rtags := rfl
@[simp] theorem State.setRb_rtagCnt (a n : Nat) (b : Bool) : (s.setRb a n b).rtagCnt = s.rtagCnt := rfl
@[simp] theorem State.setRb_rtagBase (a n : Nat) (b : Bool) : (s.setRb a n b).rtagBase = s.rtagBase := rfl
@[simp] theorem State.setRb_irqPend (a n : Nat) (b : Bool) : (s.setRb a n b).irqPend = s.irqPend := rfl
@[simp] theorem State.setRb_irqServed (a n : Nat) (b : Bool) : (s.setRb a n b).irqServed = s.irqServed := rfl
@[simp] theorem State.setRb_pcnt (a n : Nat) (b : Bool) : (s.setRb a n b).pcnt = s.pcnt := rfl
@[simp] theorem State.setRb_pcntShd (a n : Nat) (b : Bool) : (s.setRb a n b).pcntShd = s.pcntShd := rfl
@[simp] theorem State.setRb_pcntFrac (a n : Nat) (b : Bool) : (s.setRb a n b).pcntFrac = s.pcntFrac := rfl
@[simp] theorem State.setRb_dmc (a n : Nat) (b : Bool) : (s.setRb a n b).dmc = s.dmc := rfl
@[simp] theorem State.setRb_pwr (a n : Nat) (b : Bool) : (s.setRb a n b).pwr = s.pwr := rfl
@[simp] theorem State.setRb_cores (a n : Nat) (b : Bool) : (s.setRb a n b).cores = s.cores := rfl
@[simp] theorem State.setRb_chnd (a n : Nat) (b : Bool) : (s.setRb a n b).chnd = s.chnd := rfl
@[simp] theorem State.setRb_mant (a n : Nat) (b : Bool) : (s.setRb a n b).mant = s.mant := rfl
@[simp] theorem State.setRb_lant (a n : Nat) (b : Bool) : (s.setRb a n b).lant = s.lant := rfl
@[simp] theorem State.setRb_ciph (a n : Nat) (b : Bool) : (s.setRb a n b).ciph = s.ciph := rfl
@[simp] theorem State.setRb_sec (a n : Nat) (b : Bool) : (s.setRb a n b).sec = s.sec := rfl
@[simp] theorem State.setRb_emac (a n : Nat) (b : Bool) : (s.setRb a n b).emac = s.emac := rfl
@[simp] theorem State.setRb_mdio (a n : Nat) (b : Bool) : (s.setRb a n b).mdio = s.mdio := rfl
@[simp] theorem State.setRb_fwd (a n : Nat) (b : Bool) : (s.setRb a n b).fwd = s.fwd := rfl
@[simp] theorem State.setRb_tmgr (a n : Nat) (b : Bool) : (s.setRb a n b).tmgr = s.tmgr := rfl
@[simp] theorem State.setRb_harts (a n : Nat) (b : Bool) : (s.setRb a n b).harts = s.harts := rfl
@[simp] theorem State.setRb_boot (a n : Nat) (b : Bool) : (s.setRb a n b).boot = s.boot := rfl
@[simp] theorem State.setRb_mbx (a n : Nat) (b : Bool) : (s.setRb a n b).mbx = s.mbx := rfl
@[simp] theorem State.setRb_calWr (a n : Nat) (b : Bool) : (s.setRb a n b).calWr = s.calWr := rfl
@[simp] theorem State.setRb_jrn (a n : Nat) (b : Bool) : (s.setRb a n b).jrn = s.jrn := rfl
@[simp] theorem State.setRb_loader (a n : Nat) (b : Bool) : (s.setRb a n b).loader = s.loader := rfl
@[simp] theorem State.setRb_clu (a n : Nat) (b : Bool) : (s.setRb a n b).clu = s.clu := rfl
@[simp] theorem State.setRb_bg (a n : Nat) (b : Bool) : (s.setRb a n b).bg = s.bg := rfl

/-! ### State.bump -/
@[simp] theorem State.bump_pending (a n : Nat) : (s.bump a n).pending = s.pending := rfl
@[simp] theorem State.bump_clk (a n : Nat) : (s.bump a n).clk = s.clk := rfl
@[simp] theorem State.bump_relAt (a n : Nat) : (s.bump a n).relAt = s.relAt := rfl
@[simp] theorem State.bump_freeCtr (a n : Nat) : (s.bump a n).freeCtr = s.freeCtr := rfl
@[simp] theorem State.bump_latches (a n : Nat) : (s.bump a n).latches = s.latches := rfl
@[simp] theorem State.bump_resp (a n : Nat) : (s.bump a n).resp = s.resp := rfl
@[simp] theorem State.bump_mem (a n : Nat) : (s.bump a n).mem = s.mem := rfl
@[simp] theorem State.bump_nor (a n : Nat) : (s.bump a n).nor = s.nor := rfl
@[simp] theorem State.bump_board (a n : Nat) : (s.bump a n).board = s.board := rfl
@[simp] theorem State.bump_ntim (a n : Nat) : (s.bump a n).ntim = s.ntim := rfl
@[simp] theorem State.bump_pps (a n : Nat) : (s.bump a n).pps = s.pps := rfl
@[simp] theorem State.bump_tmr (a n : Nat) : (s.bump a n).tmr = s.tmr := rfl
@[simp] theorem State.bump_lamps (a n : Nat) : (s.bump a n).lamps = s.lamps := rfl
@[simp] theorem State.bump_pair (a n : Nat) : (s.bump a n).pair = s.pair := rfl
@[simp] theorem State.bump_lens (a n : Nat) : (s.bump a n).lens = s.lens := rfl
@[simp] theorem State.bump_dets (a n : Nat) : (s.bump a n).dets = s.dets := rfl
@[simp] theorem State.bump_ctxs (a n : Nat) : (s.bump a n).ctxs = s.ctxs := rfl
@[simp] theorem State.bump_rtags (a n : Nat) : (s.bump a n).rtags = s.rtags := rfl
@[simp] theorem State.bump_rtagCnt (a n : Nat) : (s.bump a n).rtagCnt = s.rtagCnt := rfl
@[simp] theorem State.bump_rtagBase (a n : Nat) : (s.bump a n).rtagBase = s.rtagBase := rfl
@[simp] theorem State.bump_irqPend (a n : Nat) : (s.bump a n).irqPend = s.irqPend := rfl
@[simp] theorem State.bump_irqServed (a n : Nat) : (s.bump a n).irqServed = s.irqServed := rfl
@[simp] theorem State.bump_pcnt (a n : Nat) : (s.bump a n).pcnt = s.pcnt := rfl
@[simp] theorem State.bump_pcntShd (a n : Nat) : (s.bump a n).pcntShd = s.pcntShd := rfl
@[simp] theorem State.bump_pcntFrac (a n : Nat) : (s.bump a n).pcntFrac = s.pcntFrac := rfl
@[simp] theorem State.bump_dmc (a n : Nat) : (s.bump a n).dmc = s.dmc := rfl
@[simp] theorem State.bump_pwr (a n : Nat) : (s.bump a n).pwr = s.pwr := rfl
@[simp] theorem State.bump_cores (a n : Nat) : (s.bump a n).cores = s.cores := rfl
@[simp] theorem State.bump_chnd (a n : Nat) : (s.bump a n).chnd = s.chnd := rfl
@[simp] theorem State.bump_mant (a n : Nat) : (s.bump a n).mant = s.mant := rfl
@[simp] theorem State.bump_lant (a n : Nat) : (s.bump a n).lant = s.lant := rfl
@[simp] theorem State.bump_ciph (a n : Nat) : (s.bump a n).ciph = s.ciph := rfl
@[simp] theorem State.bump_sec (a n : Nat) : (s.bump a n).sec = s.sec := rfl
@[simp] theorem State.bump_emac (a n : Nat) : (s.bump a n).emac = s.emac := rfl
@[simp] theorem State.bump_mdio (a n : Nat) : (s.bump a n).mdio = s.mdio := rfl
@[simp] theorem State.bump_fwd (a n : Nat) : (s.bump a n).fwd = s.fwd := rfl
@[simp] theorem State.bump_tmgr (a n : Nat) : (s.bump a n).tmgr = s.tmgr := rfl
@[simp] theorem State.bump_harts (a n : Nat) : (s.bump a n).harts = s.harts := rfl
@[simp] theorem State.bump_boot (a n : Nat) : (s.bump a n).boot = s.boot := rfl
@[simp] theorem State.bump_mbx (a n : Nat) : (s.bump a n).mbx = s.mbx := rfl
@[simp] theorem State.bump_calWr (a n : Nat) : (s.bump a n).calWr = s.calWr := rfl
@[simp] theorem State.bump_jrn (a n : Nat) : (s.bump a n).jrn = s.jrn := rfl
@[simp] theorem State.bump_loader (a n : Nat) : (s.bump a n).loader = s.loader := rfl
@[simp] theorem State.bump_clu (a n : Nat) : (s.bump a n).clu = s.clu := rfl
@[simp] theorem State.bump_bg (a n : Nat) : (s.bump a n).bg = s.bg := rfl

/-! ### State.bumpFld -/
@[simp] theorem State.bumpFld_pending (a hi lo : Nat) : (s.bumpFld a hi lo).pending = s.pending := rfl
@[simp] theorem State.bumpFld_clk (a hi lo : Nat) : (s.bumpFld a hi lo).clk = s.clk := rfl
@[simp] theorem State.bumpFld_relAt (a hi lo : Nat) : (s.bumpFld a hi lo).relAt = s.relAt := rfl
@[simp] theorem State.bumpFld_freeCtr (a hi lo : Nat) : (s.bumpFld a hi lo).freeCtr = s.freeCtr := rfl
@[simp] theorem State.bumpFld_latches (a hi lo : Nat) : (s.bumpFld a hi lo).latches = s.latches := rfl
@[simp] theorem State.bumpFld_resp (a hi lo : Nat) : (s.bumpFld a hi lo).resp = s.resp := rfl
@[simp] theorem State.bumpFld_mem (a hi lo : Nat) : (s.bumpFld a hi lo).mem = s.mem := rfl
@[simp] theorem State.bumpFld_nor (a hi lo : Nat) : (s.bumpFld a hi lo).nor = s.nor := rfl
@[simp] theorem State.bumpFld_board (a hi lo : Nat) : (s.bumpFld a hi lo).board = s.board := rfl
@[simp] theorem State.bumpFld_ntim (a hi lo : Nat) : (s.bumpFld a hi lo).ntim = s.ntim := rfl
@[simp] theorem State.bumpFld_pps (a hi lo : Nat) : (s.bumpFld a hi lo).pps = s.pps := rfl
@[simp] theorem State.bumpFld_tmr (a hi lo : Nat) : (s.bumpFld a hi lo).tmr = s.tmr := rfl
@[simp] theorem State.bumpFld_lamps (a hi lo : Nat) : (s.bumpFld a hi lo).lamps = s.lamps := rfl
@[simp] theorem State.bumpFld_pair (a hi lo : Nat) : (s.bumpFld a hi lo).pair = s.pair := rfl
@[simp] theorem State.bumpFld_lens (a hi lo : Nat) : (s.bumpFld a hi lo).lens = s.lens := rfl
@[simp] theorem State.bumpFld_dets (a hi lo : Nat) : (s.bumpFld a hi lo).dets = s.dets := rfl
@[simp] theorem State.bumpFld_ctxs (a hi lo : Nat) : (s.bumpFld a hi lo).ctxs = s.ctxs := rfl
@[simp] theorem State.bumpFld_rtags (a hi lo : Nat) : (s.bumpFld a hi lo).rtags = s.rtags := rfl
@[simp] theorem State.bumpFld_rtagCnt (a hi lo : Nat) : (s.bumpFld a hi lo).rtagCnt = s.rtagCnt := rfl
@[simp] theorem State.bumpFld_rtagBase (a hi lo : Nat) : (s.bumpFld a hi lo).rtagBase = s.rtagBase := rfl
@[simp] theorem State.bumpFld_irqPend (a hi lo : Nat) : (s.bumpFld a hi lo).irqPend = s.irqPend := rfl
@[simp] theorem State.bumpFld_irqServed (a hi lo : Nat) : (s.bumpFld a hi lo).irqServed = s.irqServed := rfl
@[simp] theorem State.bumpFld_pcnt (a hi lo : Nat) : (s.bumpFld a hi lo).pcnt = s.pcnt := rfl
@[simp] theorem State.bumpFld_pcntShd (a hi lo : Nat) : (s.bumpFld a hi lo).pcntShd = s.pcntShd := rfl
@[simp] theorem State.bumpFld_pcntFrac (a hi lo : Nat) : (s.bumpFld a hi lo).pcntFrac = s.pcntFrac := rfl
@[simp] theorem State.bumpFld_dmc (a hi lo : Nat) : (s.bumpFld a hi lo).dmc = s.dmc := rfl
@[simp] theorem State.bumpFld_pwr (a hi lo : Nat) : (s.bumpFld a hi lo).pwr = s.pwr := rfl
@[simp] theorem State.bumpFld_cores (a hi lo : Nat) : (s.bumpFld a hi lo).cores = s.cores := rfl
@[simp] theorem State.bumpFld_chnd (a hi lo : Nat) : (s.bumpFld a hi lo).chnd = s.chnd := rfl
@[simp] theorem State.bumpFld_mant (a hi lo : Nat) : (s.bumpFld a hi lo).mant = s.mant := rfl
@[simp] theorem State.bumpFld_lant (a hi lo : Nat) : (s.bumpFld a hi lo).lant = s.lant := rfl
@[simp] theorem State.bumpFld_ciph (a hi lo : Nat) : (s.bumpFld a hi lo).ciph = s.ciph := rfl
@[simp] theorem State.bumpFld_sec (a hi lo : Nat) : (s.bumpFld a hi lo).sec = s.sec := rfl
@[simp] theorem State.bumpFld_emac (a hi lo : Nat) : (s.bumpFld a hi lo).emac = s.emac := rfl
@[simp] theorem State.bumpFld_mdio (a hi lo : Nat) : (s.bumpFld a hi lo).mdio = s.mdio := rfl
@[simp] theorem State.bumpFld_fwd (a hi lo : Nat) : (s.bumpFld a hi lo).fwd = s.fwd := rfl
@[simp] theorem State.bumpFld_tmgr (a hi lo : Nat) : (s.bumpFld a hi lo).tmgr = s.tmgr := rfl
@[simp] theorem State.bumpFld_harts (a hi lo : Nat) : (s.bumpFld a hi lo).harts = s.harts := rfl
@[simp] theorem State.bumpFld_boot (a hi lo : Nat) : (s.bumpFld a hi lo).boot = s.boot := rfl
@[simp] theorem State.bumpFld_mbx (a hi lo : Nat) : (s.bumpFld a hi lo).mbx = s.mbx := rfl
@[simp] theorem State.bumpFld_calWr (a hi lo : Nat) : (s.bumpFld a hi lo).calWr = s.calWr := rfl
@[simp] theorem State.bumpFld_jrn (a hi lo : Nat) : (s.bumpFld a hi lo).jrn = s.jrn := rfl
@[simp] theorem State.bumpFld_loader (a hi lo : Nat) : (s.bumpFld a hi lo).loader = s.loader := rfl
@[simp] theorem State.bumpFld_clu (a hi lo : Nat) : (s.bumpFld a hi lo).clu = s.clu := rfl
@[simp] theorem State.bumpFld_bg (a hi lo : Nat) : (s.bumpFld a hi lo).bg = s.bg := rfl

/-! ### State.setLatch -/
@[simp] theorem State.setLatch_pending (y : Ini) (a : Nat) (v : Word) : (s.setLatch y a v).pending = s.pending := rfl
@[simp] theorem State.setLatch_clk (y : Ini) (a : Nat) (v : Word) : (s.setLatch y a v).clk = s.clk := rfl
@[simp] theorem State.setLatch_relAt (y : Ini) (a : Nat) (v : Word) : (s.setLatch y a v).relAt = s.relAt := rfl
@[simp] theorem State.setLatch_freeCtr (y : Ini) (a : Nat) (v : Word) : (s.setLatch y a v).freeCtr = s.freeCtr := rfl
@[simp] theorem State.setLatch_regs (y : Ini) (a : Nat) (v : Word) : (s.setLatch y a v).regs = s.regs := rfl
@[simp] theorem State.setLatch_resp (y : Ini) (a : Nat) (v : Word) : (s.setLatch y a v).resp = s.resp := rfl
@[simp] theorem State.setLatch_mem (y : Ini) (a : Nat) (v : Word) : (s.setLatch y a v).mem = s.mem := rfl
@[simp] theorem State.setLatch_nor (y : Ini) (a : Nat) (v : Word) : (s.setLatch y a v).nor = s.nor := rfl
@[simp] theorem State.setLatch_board (y : Ini) (a : Nat) (v : Word) : (s.setLatch y a v).board = s.board := rfl
@[simp] theorem State.setLatch_ntim (y : Ini) (a : Nat) (v : Word) : (s.setLatch y a v).ntim = s.ntim := rfl
@[simp] theorem State.setLatch_pps (y : Ini) (a : Nat) (v : Word) : (s.setLatch y a v).pps = s.pps := rfl
@[simp] theorem State.setLatch_tmr (y : Ini) (a : Nat) (v : Word) : (s.setLatch y a v).tmr = s.tmr := rfl
@[simp] theorem State.setLatch_lamps (y : Ini) (a : Nat) (v : Word) : (s.setLatch y a v).lamps = s.lamps := rfl
@[simp] theorem State.setLatch_pair (y : Ini) (a : Nat) (v : Word) : (s.setLatch y a v).pair = s.pair := rfl
@[simp] theorem State.setLatch_lens (y : Ini) (a : Nat) (v : Word) : (s.setLatch y a v).lens = s.lens := rfl
@[simp] theorem State.setLatch_dets (y : Ini) (a : Nat) (v : Word) : (s.setLatch y a v).dets = s.dets := rfl
@[simp] theorem State.setLatch_ctxs (y : Ini) (a : Nat) (v : Word) : (s.setLatch y a v).ctxs = s.ctxs := rfl
@[simp] theorem State.setLatch_rtags (y : Ini) (a : Nat) (v : Word) : (s.setLatch y a v).rtags = s.rtags := rfl
@[simp] theorem State.setLatch_rtagCnt (y : Ini) (a : Nat) (v : Word) : (s.setLatch y a v).rtagCnt = s.rtagCnt := rfl
@[simp] theorem State.setLatch_rtagBase (y : Ini) (a : Nat) (v : Word) : (s.setLatch y a v).rtagBase = s.rtagBase := rfl
@[simp] theorem State.setLatch_irqPend (y : Ini) (a : Nat) (v : Word) : (s.setLatch y a v).irqPend = s.irqPend := rfl
@[simp] theorem State.setLatch_irqServed (y : Ini) (a : Nat) (v : Word) : (s.setLatch y a v).irqServed = s.irqServed := rfl
@[simp] theorem State.setLatch_pcnt (y : Ini) (a : Nat) (v : Word) : (s.setLatch y a v).pcnt = s.pcnt := rfl
@[simp] theorem State.setLatch_pcntShd (y : Ini) (a : Nat) (v : Word) : (s.setLatch y a v).pcntShd = s.pcntShd := rfl
@[simp] theorem State.setLatch_pcntFrac (y : Ini) (a : Nat) (v : Word) : (s.setLatch y a v).pcntFrac = s.pcntFrac := rfl
@[simp] theorem State.setLatch_dmc (y : Ini) (a : Nat) (v : Word) : (s.setLatch y a v).dmc = s.dmc := rfl
@[simp] theorem State.setLatch_pwr (y : Ini) (a : Nat) (v : Word) : (s.setLatch y a v).pwr = s.pwr := rfl
@[simp] theorem State.setLatch_cores (y : Ini) (a : Nat) (v : Word) : (s.setLatch y a v).cores = s.cores := rfl
@[simp] theorem State.setLatch_chnd (y : Ini) (a : Nat) (v : Word) : (s.setLatch y a v).chnd = s.chnd := rfl
@[simp] theorem State.setLatch_mant (y : Ini) (a : Nat) (v : Word) : (s.setLatch y a v).mant = s.mant := rfl
@[simp] theorem State.setLatch_lant (y : Ini) (a : Nat) (v : Word) : (s.setLatch y a v).lant = s.lant := rfl
@[simp] theorem State.setLatch_ciph (y : Ini) (a : Nat) (v : Word) : (s.setLatch y a v).ciph = s.ciph := rfl
@[simp] theorem State.setLatch_sec (y : Ini) (a : Nat) (v : Word) : (s.setLatch y a v).sec = s.sec := rfl
@[simp] theorem State.setLatch_emac (y : Ini) (a : Nat) (v : Word) : (s.setLatch y a v).emac = s.emac := rfl
@[simp] theorem State.setLatch_mdio (y : Ini) (a : Nat) (v : Word) : (s.setLatch y a v).mdio = s.mdio := rfl
@[simp] theorem State.setLatch_fwd (y : Ini) (a : Nat) (v : Word) : (s.setLatch y a v).fwd = s.fwd := rfl
@[simp] theorem State.setLatch_tmgr (y : Ini) (a : Nat) (v : Word) : (s.setLatch y a v).tmgr = s.tmgr := rfl
@[simp] theorem State.setLatch_harts (y : Ini) (a : Nat) (v : Word) : (s.setLatch y a v).harts = s.harts := rfl
@[simp] theorem State.setLatch_boot (y : Ini) (a : Nat) (v : Word) : (s.setLatch y a v).boot = s.boot := rfl
@[simp] theorem State.setLatch_mbx (y : Ini) (a : Nat) (v : Word) : (s.setLatch y a v).mbx = s.mbx := rfl
@[simp] theorem State.setLatch_calWr (y : Ini) (a : Nat) (v : Word) : (s.setLatch y a v).calWr = s.calWr := rfl
@[simp] theorem State.setLatch_jrn (y : Ini) (a : Nat) (v : Word) : (s.setLatch y a v).jrn = s.jrn := rfl
@[simp] theorem State.setLatch_loader (y : Ini) (a : Nat) (v : Word) : (s.setLatch y a v).loader = s.loader := rfl
@[simp] theorem State.setLatch_clu (y : Ini) (a : Nat) (v : Word) : (s.setLatch y a v).clu = s.clu := rfl
@[simp] theorem State.setLatch_bg (y : Ini) (a : Nat) (v : Word) : (s.setLatch y a v).bg = s.bg := rfl

/-! ### State.result -/
@[simp] theorem State.result_pending (y : Ini) (a : Nat) (c : Code) : (s.result y a c).pending = s.pending := rfl
@[simp] theorem State.result_clk (y : Ini) (a : Nat) (c : Code) : (s.result y a c).clk = s.clk := rfl
@[simp] theorem State.result_relAt (y : Ini) (a : Nat) (c : Code) : (s.result y a c).relAt = s.relAt := rfl
@[simp] theorem State.result_freeCtr (y : Ini) (a : Nat) (c : Code) : (s.result y a c).freeCtr = s.freeCtr := rfl
@[simp] theorem State.result_regs (y : Ini) (a : Nat) (c : Code) : (s.result y a c).regs = s.regs := rfl
@[simp] theorem State.result_resp (y : Ini) (a : Nat) (c : Code) : (s.result y a c).resp = s.resp := rfl
@[simp] theorem State.result_mem (y : Ini) (a : Nat) (c : Code) : (s.result y a c).mem = s.mem := rfl
@[simp] theorem State.result_nor (y : Ini) (a : Nat) (c : Code) : (s.result y a c).nor = s.nor := rfl
@[simp] theorem State.result_board (y : Ini) (a : Nat) (c : Code) : (s.result y a c).board = s.board := rfl
@[simp] theorem State.result_ntim (y : Ini) (a : Nat) (c : Code) : (s.result y a c).ntim = s.ntim := rfl
@[simp] theorem State.result_pps (y : Ini) (a : Nat) (c : Code) : (s.result y a c).pps = s.pps := rfl
@[simp] theorem State.result_tmr (y : Ini) (a : Nat) (c : Code) : (s.result y a c).tmr = s.tmr := rfl
@[simp] theorem State.result_lamps (y : Ini) (a : Nat) (c : Code) : (s.result y a c).lamps = s.lamps := rfl
@[simp] theorem State.result_pair (y : Ini) (a : Nat) (c : Code) : (s.result y a c).pair = s.pair := rfl
@[simp] theorem State.result_lens (y : Ini) (a : Nat) (c : Code) : (s.result y a c).lens = s.lens := rfl
@[simp] theorem State.result_dets (y : Ini) (a : Nat) (c : Code) : (s.result y a c).dets = s.dets := rfl
@[simp] theorem State.result_ctxs (y : Ini) (a : Nat) (c : Code) : (s.result y a c).ctxs = s.ctxs := rfl
@[simp] theorem State.result_rtags (y : Ini) (a : Nat) (c : Code) : (s.result y a c).rtags = s.rtags := rfl
@[simp] theorem State.result_rtagCnt (y : Ini) (a : Nat) (c : Code) : (s.result y a c).rtagCnt = s.rtagCnt := rfl
@[simp] theorem State.result_rtagBase (y : Ini) (a : Nat) (c : Code) : (s.result y a c).rtagBase = s.rtagBase := rfl
@[simp] theorem State.result_irqPend (y : Ini) (a : Nat) (c : Code) : (s.result y a c).irqPend = s.irqPend := rfl
@[simp] theorem State.result_irqServed (y : Ini) (a : Nat) (c : Code) : (s.result y a c).irqServed = s.irqServed := rfl
@[simp] theorem State.result_pcnt (y : Ini) (a : Nat) (c : Code) : (s.result y a c).pcnt = s.pcnt := rfl
@[simp] theorem State.result_pcntShd (y : Ini) (a : Nat) (c : Code) : (s.result y a c).pcntShd = s.pcntShd := rfl
@[simp] theorem State.result_pcntFrac (y : Ini) (a : Nat) (c : Code) : (s.result y a c).pcntFrac = s.pcntFrac := rfl
@[simp] theorem State.result_dmc (y : Ini) (a : Nat) (c : Code) : (s.result y a c).dmc = s.dmc := rfl
@[simp] theorem State.result_pwr (y : Ini) (a : Nat) (c : Code) : (s.result y a c).pwr = s.pwr := rfl
@[simp] theorem State.result_cores (y : Ini) (a : Nat) (c : Code) : (s.result y a c).cores = s.cores := rfl
@[simp] theorem State.result_chnd (y : Ini) (a : Nat) (c : Code) : (s.result y a c).chnd = s.chnd := rfl
@[simp] theorem State.result_mant (y : Ini) (a : Nat) (c : Code) : (s.result y a c).mant = s.mant := rfl
@[simp] theorem State.result_lant (y : Ini) (a : Nat) (c : Code) : (s.result y a c).lant = s.lant := rfl
@[simp] theorem State.result_ciph (y : Ini) (a : Nat) (c : Code) : (s.result y a c).ciph = s.ciph := rfl
@[simp] theorem State.result_sec (y : Ini) (a : Nat) (c : Code) : (s.result y a c).sec = s.sec := rfl
@[simp] theorem State.result_emac (y : Ini) (a : Nat) (c : Code) : (s.result y a c).emac = s.emac := rfl
@[simp] theorem State.result_mdio (y : Ini) (a : Nat) (c : Code) : (s.result y a c).mdio = s.mdio := rfl
@[simp] theorem State.result_fwd (y : Ini) (a : Nat) (c : Code) : (s.result y a c).fwd = s.fwd := rfl
@[simp] theorem State.result_tmgr (y : Ini) (a : Nat) (c : Code) : (s.result y a c).tmgr = s.tmgr := rfl
@[simp] theorem State.result_harts (y : Ini) (a : Nat) (c : Code) : (s.result y a c).harts = s.harts := rfl
@[simp] theorem State.result_boot (y : Ini) (a : Nat) (c : Code) : (s.result y a c).boot = s.boot := rfl
@[simp] theorem State.result_mbx (y : Ini) (a : Nat) (c : Code) : (s.result y a c).mbx = s.mbx := rfl
@[simp] theorem State.result_calWr (y : Ini) (a : Nat) (c : Code) : (s.result y a c).calWr = s.calWr := rfl
@[simp] theorem State.result_jrn (y : Ini) (a : Nat) (c : Code) : (s.result y a c).jrn = s.jrn := rfl
@[simp] theorem State.result_loader (y : Ini) (a : Nat) (c : Code) : (s.result y a c).loader = s.loader := rfl
@[simp] theorem State.result_clu (y : Ini) (a : Nat) (c : Code) : (s.result y a c).clu = s.clu := rfl
@[simp] theorem State.result_bg (y : Ini) (a : Nat) (c : Code) : (s.result y a c).bg = s.bg := rfl

/-! ### State.answer -/
@[simp] theorem State.answer_pending (y : Ini) (r : BusResp) : (s.answer y r).pending = s.pending := rfl
@[simp] theorem State.answer_clk (y : Ini) (r : BusResp) : (s.answer y r).clk = s.clk := rfl
@[simp] theorem State.answer_relAt (y : Ini) (r : BusResp) : (s.answer y r).relAt = s.relAt := rfl
@[simp] theorem State.answer_freeCtr (y : Ini) (r : BusResp) : (s.answer y r).freeCtr = s.freeCtr := rfl
@[simp] theorem State.answer_regs (y : Ini) (r : BusResp) : (s.answer y r).regs = s.regs := rfl
@[simp] theorem State.answer_latches (y : Ini) (r : BusResp) : (s.answer y r).latches = s.latches := rfl
@[simp] theorem State.answer_mem (y : Ini) (r : BusResp) : (s.answer y r).mem = s.mem := rfl
@[simp] theorem State.answer_nor (y : Ini) (r : BusResp) : (s.answer y r).nor = s.nor := rfl
@[simp] theorem State.answer_board (y : Ini) (r : BusResp) : (s.answer y r).board = s.board := rfl
@[simp] theorem State.answer_ntim (y : Ini) (r : BusResp) : (s.answer y r).ntim = s.ntim := rfl
@[simp] theorem State.answer_pps (y : Ini) (r : BusResp) : (s.answer y r).pps = s.pps := rfl
@[simp] theorem State.answer_tmr (y : Ini) (r : BusResp) : (s.answer y r).tmr = s.tmr := rfl
@[simp] theorem State.answer_lamps (y : Ini) (r : BusResp) : (s.answer y r).lamps = s.lamps := rfl
@[simp] theorem State.answer_pair (y : Ini) (r : BusResp) : (s.answer y r).pair = s.pair := rfl
@[simp] theorem State.answer_lens (y : Ini) (r : BusResp) : (s.answer y r).lens = s.lens := rfl
@[simp] theorem State.answer_dets (y : Ini) (r : BusResp) : (s.answer y r).dets = s.dets := rfl
@[simp] theorem State.answer_ctxs (y : Ini) (r : BusResp) : (s.answer y r).ctxs = s.ctxs := rfl
@[simp] theorem State.answer_rtags (y : Ini) (r : BusResp) : (s.answer y r).rtags = s.rtags := rfl
@[simp] theorem State.answer_rtagCnt (y : Ini) (r : BusResp) : (s.answer y r).rtagCnt = s.rtagCnt := rfl
@[simp] theorem State.answer_rtagBase (y : Ini) (r : BusResp) : (s.answer y r).rtagBase = s.rtagBase := rfl
@[simp] theorem State.answer_irqPend (y : Ini) (r : BusResp) : (s.answer y r).irqPend = s.irqPend := rfl
@[simp] theorem State.answer_irqServed (y : Ini) (r : BusResp) : (s.answer y r).irqServed = s.irqServed := rfl
@[simp] theorem State.answer_pcnt (y : Ini) (r : BusResp) : (s.answer y r).pcnt = s.pcnt := rfl
@[simp] theorem State.answer_pcntShd (y : Ini) (r : BusResp) : (s.answer y r).pcntShd = s.pcntShd := rfl
@[simp] theorem State.answer_pcntFrac (y : Ini) (r : BusResp) : (s.answer y r).pcntFrac = s.pcntFrac := rfl
@[simp] theorem State.answer_dmc (y : Ini) (r : BusResp) : (s.answer y r).dmc = s.dmc := rfl
@[simp] theorem State.answer_pwr (y : Ini) (r : BusResp) : (s.answer y r).pwr = s.pwr := rfl
@[simp] theorem State.answer_cores (y : Ini) (r : BusResp) : (s.answer y r).cores = s.cores := rfl
@[simp] theorem State.answer_chnd (y : Ini) (r : BusResp) : (s.answer y r).chnd = s.chnd := rfl
@[simp] theorem State.answer_mant (y : Ini) (r : BusResp) : (s.answer y r).mant = s.mant := rfl
@[simp] theorem State.answer_lant (y : Ini) (r : BusResp) : (s.answer y r).lant = s.lant := rfl
@[simp] theorem State.answer_ciph (y : Ini) (r : BusResp) : (s.answer y r).ciph = s.ciph := rfl
@[simp] theorem State.answer_sec (y : Ini) (r : BusResp) : (s.answer y r).sec = s.sec := rfl
@[simp] theorem State.answer_emac (y : Ini) (r : BusResp) : (s.answer y r).emac = s.emac := rfl
@[simp] theorem State.answer_mdio (y : Ini) (r : BusResp) : (s.answer y r).mdio = s.mdio := rfl
@[simp] theorem State.answer_fwd (y : Ini) (r : BusResp) : (s.answer y r).fwd = s.fwd := rfl
@[simp] theorem State.answer_tmgr (y : Ini) (r : BusResp) : (s.answer y r).tmgr = s.tmgr := rfl
@[simp] theorem State.answer_harts (y : Ini) (r : BusResp) : (s.answer y r).harts = s.harts := rfl
@[simp] theorem State.answer_boot (y : Ini) (r : BusResp) : (s.answer y r).boot = s.boot := rfl
@[simp] theorem State.answer_mbx (y : Ini) (r : BusResp) : (s.answer y r).mbx = s.mbx := rfl
@[simp] theorem State.answer_calWr (y : Ini) (r : BusResp) : (s.answer y r).calWr = s.calWr := rfl
@[simp] theorem State.answer_jrn (y : Ini) (r : BusResp) : (s.answer y r).jrn = s.jrn := rfl
@[simp] theorem State.answer_loader (y : Ini) (r : BusResp) : (s.answer y r).loader = s.loader := rfl
@[simp] theorem State.answer_clu (y : Ini) (r : BusResp) : (s.answer y r).clu = s.clu := rfl
@[simp] theorem State.answer_bg (y : Ini) (r : BusResp) : (s.answer y r).bg = s.bg := rfl

/-! ### State.pulse -/
@[simp] theorem State.pulse_pending (n : Nat) : (s.pulse n).pending = s.pending := rfl
@[simp] theorem State.pulse_clk (n : Nat) : (s.pulse n).clk = s.clk := rfl
@[simp] theorem State.pulse_relAt (n : Nat) : (s.pulse n).relAt = s.relAt := rfl
@[simp] theorem State.pulse_freeCtr (n : Nat) : (s.pulse n).freeCtr = s.freeCtr := rfl
@[simp] theorem State.pulse_regs (n : Nat) : (s.pulse n).regs = s.regs := rfl
@[simp] theorem State.pulse_latches (n : Nat) : (s.pulse n).latches = s.latches := rfl
@[simp] theorem State.pulse_resp (n : Nat) : (s.pulse n).resp = s.resp := rfl
@[simp] theorem State.pulse_mem (n : Nat) : (s.pulse n).mem = s.mem := rfl
@[simp] theorem State.pulse_nor (n : Nat) : (s.pulse n).nor = s.nor := rfl
@[simp] theorem State.pulse_board (n : Nat) : (s.pulse n).board = s.board := rfl
@[simp] theorem State.pulse_ntim (n : Nat) : (s.pulse n).ntim = s.ntim := rfl
@[simp] theorem State.pulse_pps (n : Nat) : (s.pulse n).pps = s.pps := rfl
@[simp] theorem State.pulse_tmr (n : Nat) : (s.pulse n).tmr = s.tmr := rfl
@[simp] theorem State.pulse_lamps (n : Nat) : (s.pulse n).lamps = s.lamps := rfl
@[simp] theorem State.pulse_pair (n : Nat) : (s.pulse n).pair = s.pair := rfl
@[simp] theorem State.pulse_lens (n : Nat) : (s.pulse n).lens = s.lens := rfl
@[simp] theorem State.pulse_dets (n : Nat) : (s.pulse n).dets = s.dets := rfl
@[simp] theorem State.pulse_ctxs (n : Nat) : (s.pulse n).ctxs = s.ctxs := rfl
@[simp] theorem State.pulse_rtags (n : Nat) : (s.pulse n).rtags = s.rtags := rfl
@[simp] theorem State.pulse_rtagCnt (n : Nat) : (s.pulse n).rtagCnt = s.rtagCnt := rfl
@[simp] theorem State.pulse_rtagBase (n : Nat) : (s.pulse n).rtagBase = s.rtagBase := rfl
@[simp] theorem State.pulse_irqServed (n : Nat) : (s.pulse n).irqServed = s.irqServed := rfl
@[simp] theorem State.pulse_pcnt (n : Nat) : (s.pulse n).pcnt = s.pcnt := rfl
@[simp] theorem State.pulse_pcntShd (n : Nat) : (s.pulse n).pcntShd = s.pcntShd := rfl
@[simp] theorem State.pulse_pcntFrac (n : Nat) : (s.pulse n).pcntFrac = s.pcntFrac := rfl
@[simp] theorem State.pulse_dmc (n : Nat) : (s.pulse n).dmc = s.dmc := rfl
@[simp] theorem State.pulse_pwr (n : Nat) : (s.pulse n).pwr = s.pwr := rfl
@[simp] theorem State.pulse_cores (n : Nat) : (s.pulse n).cores = s.cores := rfl
@[simp] theorem State.pulse_chnd (n : Nat) : (s.pulse n).chnd = s.chnd := rfl
@[simp] theorem State.pulse_mant (n : Nat) : (s.pulse n).mant = s.mant := rfl
@[simp] theorem State.pulse_lant (n : Nat) : (s.pulse n).lant = s.lant := rfl
@[simp] theorem State.pulse_ciph (n : Nat) : (s.pulse n).ciph = s.ciph := rfl
@[simp] theorem State.pulse_sec (n : Nat) : (s.pulse n).sec = s.sec := rfl
@[simp] theorem State.pulse_emac (n : Nat) : (s.pulse n).emac = s.emac := rfl
@[simp] theorem State.pulse_mdio (n : Nat) : (s.pulse n).mdio = s.mdio := rfl
@[simp] theorem State.pulse_fwd (n : Nat) : (s.pulse n).fwd = s.fwd := rfl
@[simp] theorem State.pulse_tmgr (n : Nat) : (s.pulse n).tmgr = s.tmgr := rfl
@[simp] theorem State.pulse_harts (n : Nat) : (s.pulse n).harts = s.harts := rfl
@[simp] theorem State.pulse_boot (n : Nat) : (s.pulse n).boot = s.boot := rfl
@[simp] theorem State.pulse_mbx (n : Nat) : (s.pulse n).mbx = s.mbx := rfl
@[simp] theorem State.pulse_calWr (n : Nat) : (s.pulse n).calWr = s.calWr := rfl
@[simp] theorem State.pulse_jrn (n : Nat) : (s.pulse n).jrn = s.jrn := rfl
@[simp] theorem State.pulse_loader (n : Nat) : (s.pulse n).loader = s.loader := rfl
@[simp] theorem State.pulse_clu (n : Nat) : (s.pulse n).clu = s.clu := rfl
@[simp] theorem State.pulse_bg (n : Nat) : (s.pulse n).bg = s.bg := rfl

/-! ### State.fold -/
@[simp] theorem State.fold_pending : (s.fold).pending = s.pending := rfl
@[simp] theorem State.fold_clk : (s.fold).clk = s.clk := rfl
@[simp] theorem State.fold_relAt : (s.fold).relAt = s.relAt := rfl
@[simp] theorem State.fold_freeCtr : (s.fold).freeCtr = s.freeCtr := rfl
@[simp] theorem State.fold_regs : (s.fold).regs = s.regs := rfl
@[simp] theorem State.fold_latches : (s.fold).latches = s.latches := rfl
@[simp] theorem State.fold_resp : (s.fold).resp = s.resp := rfl
@[simp] theorem State.fold_mem : (s.fold).mem = s.mem := rfl
@[simp] theorem State.fold_nor : (s.fold).nor = s.nor := rfl
@[simp] theorem State.fold_board : (s.fold).board = s.board := rfl
@[simp] theorem State.fold_pps : (s.fold).pps = s.pps := rfl
@[simp] theorem State.fold_tmr : (s.fold).tmr = s.tmr := rfl
@[simp] theorem State.fold_lamps : (s.fold).lamps = s.lamps := rfl
@[simp] theorem State.fold_pair : (s.fold).pair = s.pair := rfl
@[simp] theorem State.fold_lens : (s.fold).lens = s.lens := rfl
@[simp] theorem State.fold_dets : (s.fold).dets = s.dets := rfl
@[simp] theorem State.fold_ctxs : (s.fold).ctxs = s.ctxs := rfl
@[simp] theorem State.fold_rtags : (s.fold).rtags = s.rtags := rfl
@[simp] theorem State.fold_rtagCnt : (s.fold).rtagCnt = s.rtagCnt := rfl
@[simp] theorem State.fold_rtagBase : (s.fold).rtagBase = s.rtagBase := rfl
@[simp] theorem State.fold_irqPend : (s.fold).irqPend = s.irqPend := rfl
@[simp] theorem State.fold_irqServed : (s.fold).irqServed = s.irqServed := rfl
@[simp] theorem State.fold_pcnt : (s.fold).pcnt = s.pcnt := rfl
@[simp] theorem State.fold_pcntShd : (s.fold).pcntShd = s.pcntShd := rfl
@[simp] theorem State.fold_pcntFrac : (s.fold).pcntFrac = s.pcntFrac := rfl
@[simp] theorem State.fold_dmc : (s.fold).dmc = s.dmc := rfl
@[simp] theorem State.fold_pwr : (s.fold).pwr = s.pwr := rfl
@[simp] theorem State.fold_cores : (s.fold).cores = s.cores := rfl
@[simp] theorem State.fold_chnd : (s.fold).chnd = s.chnd := rfl
@[simp] theorem State.fold_mant : (s.fold).mant = s.mant := rfl
@[simp] theorem State.fold_lant : (s.fold).lant = s.lant := rfl
@[simp] theorem State.fold_ciph : (s.fold).ciph = s.ciph := rfl
@[simp] theorem State.fold_sec : (s.fold).sec = s.sec := rfl
@[simp] theorem State.fold_emac : (s.fold).emac = s.emac := rfl
@[simp] theorem State.fold_mdio : (s.fold).mdio = s.mdio := rfl
@[simp] theorem State.fold_fwd : (s.fold).fwd = s.fwd := rfl
@[simp] theorem State.fold_tmgr : (s.fold).tmgr = s.tmgr := rfl
@[simp] theorem State.fold_harts : (s.fold).harts = s.harts := rfl
@[simp] theorem State.fold_boot : (s.fold).boot = s.boot := rfl
@[simp] theorem State.fold_mbx : (s.fold).mbx = s.mbx := rfl
@[simp] theorem State.fold_calWr : (s.fold).calWr = s.calWr := rfl
@[simp] theorem State.fold_jrn : (s.fold).jrn = s.jrn := rfl
@[simp] theorem State.fold_loader : (s.fold).loader = s.loader := rfl
@[simp] theorem State.fold_clu : (s.fold).clu = s.clu := rfl
@[simp] theorem State.fold_bg : (s.fold).bg = s.bg := rfl

/-! ### State.setCore -/
@[simp] theorem State.setCore_pending (k : Nat) (c : WCore) : (s.setCore k c).pending = s.pending := rfl
@[simp] theorem State.setCore_clk (k : Nat) (c : WCore) : (s.setCore k c).clk = s.clk := rfl
@[simp] theorem State.setCore_relAt (k : Nat) (c : WCore) : (s.setCore k c).relAt = s.relAt := rfl
@[simp] theorem State.setCore_freeCtr (k : Nat) (c : WCore) : (s.setCore k c).freeCtr = s.freeCtr := rfl
@[simp] theorem State.setCore_regs (k : Nat) (c : WCore) : (s.setCore k c).regs = s.regs := rfl
@[simp] theorem State.setCore_latches (k : Nat) (c : WCore) : (s.setCore k c).latches = s.latches := rfl
@[simp] theorem State.setCore_resp (k : Nat) (c : WCore) : (s.setCore k c).resp = s.resp := rfl
@[simp] theorem State.setCore_mem (k : Nat) (c : WCore) : (s.setCore k c).mem = s.mem := rfl
@[simp] theorem State.setCore_nor (k : Nat) (c : WCore) : (s.setCore k c).nor = s.nor := rfl
@[simp] theorem State.setCore_board (k : Nat) (c : WCore) : (s.setCore k c).board = s.board := rfl
@[simp] theorem State.setCore_ntim (k : Nat) (c : WCore) : (s.setCore k c).ntim = s.ntim := rfl
@[simp] theorem State.setCore_pps (k : Nat) (c : WCore) : (s.setCore k c).pps = s.pps := rfl
@[simp] theorem State.setCore_tmr (k : Nat) (c : WCore) : (s.setCore k c).tmr = s.tmr := rfl
@[simp] theorem State.setCore_lamps (k : Nat) (c : WCore) : (s.setCore k c).lamps = s.lamps := rfl
@[simp] theorem State.setCore_pair (k : Nat) (c : WCore) : (s.setCore k c).pair = s.pair := rfl
@[simp] theorem State.setCore_lens (k : Nat) (c : WCore) : (s.setCore k c).lens = s.lens := rfl
@[simp] theorem State.setCore_dets (k : Nat) (c : WCore) : (s.setCore k c).dets = s.dets := rfl
@[simp] theorem State.setCore_ctxs (k : Nat) (c : WCore) : (s.setCore k c).ctxs = s.ctxs := rfl
@[simp] theorem State.setCore_rtags (k : Nat) (c : WCore) : (s.setCore k c).rtags = s.rtags := rfl
@[simp] theorem State.setCore_rtagCnt (k : Nat) (c : WCore) : (s.setCore k c).rtagCnt = s.rtagCnt := rfl
@[simp] theorem State.setCore_rtagBase (k : Nat) (c : WCore) : (s.setCore k c).rtagBase = s.rtagBase := rfl
@[simp] theorem State.setCore_irqPend (k : Nat) (c : WCore) : (s.setCore k c).irqPend = s.irqPend := rfl
@[simp] theorem State.setCore_irqServed (k : Nat) (c : WCore) : (s.setCore k c).irqServed = s.irqServed := rfl
@[simp] theorem State.setCore_pcnt (k : Nat) (c : WCore) : (s.setCore k c).pcnt = s.pcnt := rfl
@[simp] theorem State.setCore_pcntShd (k : Nat) (c : WCore) : (s.setCore k c).pcntShd = s.pcntShd := rfl
@[simp] theorem State.setCore_pcntFrac (k : Nat) (c : WCore) : (s.setCore k c).pcntFrac = s.pcntFrac := rfl
@[simp] theorem State.setCore_dmc (k : Nat) (c : WCore) : (s.setCore k c).dmc = s.dmc := rfl
@[simp] theorem State.setCore_pwr (k : Nat) (c : WCore) : (s.setCore k c).pwr = s.pwr := rfl
@[simp] theorem State.setCore_chnd (k : Nat) (c : WCore) : (s.setCore k c).chnd = s.chnd := rfl
@[simp] theorem State.setCore_mant (k : Nat) (c : WCore) : (s.setCore k c).mant = s.mant := rfl
@[simp] theorem State.setCore_lant (k : Nat) (c : WCore) : (s.setCore k c).lant = s.lant := rfl
@[simp] theorem State.setCore_ciph (k : Nat) (c : WCore) : (s.setCore k c).ciph = s.ciph := rfl
@[simp] theorem State.setCore_sec (k : Nat) (c : WCore) : (s.setCore k c).sec = s.sec := rfl
@[simp] theorem State.setCore_emac (k : Nat) (c : WCore) : (s.setCore k c).emac = s.emac := rfl
@[simp] theorem State.setCore_mdio (k : Nat) (c : WCore) : (s.setCore k c).mdio = s.mdio := rfl
@[simp] theorem State.setCore_fwd (k : Nat) (c : WCore) : (s.setCore k c).fwd = s.fwd := rfl
@[simp] theorem State.setCore_tmgr (k : Nat) (c : WCore) : (s.setCore k c).tmgr = s.tmgr := rfl
@[simp] theorem State.setCore_harts (k : Nat) (c : WCore) : (s.setCore k c).harts = s.harts := rfl
@[simp] theorem State.setCore_boot (k : Nat) (c : WCore) : (s.setCore k c).boot = s.boot := rfl
@[simp] theorem State.setCore_mbx (k : Nat) (c : WCore) : (s.setCore k c).mbx = s.mbx := rfl
@[simp] theorem State.setCore_calWr (k : Nat) (c : WCore) : (s.setCore k c).calWr = s.calWr := rfl
@[simp] theorem State.setCore_jrn (k : Nat) (c : WCore) : (s.setCore k c).jrn = s.jrn := rfl
@[simp] theorem State.setCore_loader (k : Nat) (c : WCore) : (s.setCore k c).loader = s.loader := rfl
@[simp] theorem State.setCore_clu (k : Nat) (c : WCore) : (s.setCore k c).clu = s.clu := rfl
@[simp] theorem State.setCore_bg (k : Nat) (c : WCore) : (s.setCore k c).bg = s.bg := rfl

/-! ### State.setDesc -/
@[simp] theorem State.setDesc_pending (i : Nat) (d : Desc) : (s.setDesc i d).pending = s.pending := rfl
@[simp] theorem State.setDesc_clk (i : Nat) (d : Desc) : (s.setDesc i d).clk = s.clk := rfl
@[simp] theorem State.setDesc_relAt (i : Nat) (d : Desc) : (s.setDesc i d).relAt = s.relAt := rfl
@[simp] theorem State.setDesc_freeCtr (i : Nat) (d : Desc) : (s.setDesc i d).freeCtr = s.freeCtr := rfl
@[simp] theorem State.setDesc_regs (i : Nat) (d : Desc) : (s.setDesc i d).regs = s.regs := rfl
@[simp] theorem State.setDesc_latches (i : Nat) (d : Desc) : (s.setDesc i d).latches = s.latches := rfl
@[simp] theorem State.setDesc_resp (i : Nat) (d : Desc) : (s.setDesc i d).resp = s.resp := rfl
@[simp] theorem State.setDesc_mem (i : Nat) (d : Desc) : (s.setDesc i d).mem = s.mem := rfl
@[simp] theorem State.setDesc_nor (i : Nat) (d : Desc) : (s.setDesc i d).nor = s.nor := rfl
@[simp] theorem State.setDesc_board (i : Nat) (d : Desc) : (s.setDesc i d).board = s.board := rfl
@[simp] theorem State.setDesc_ntim (i : Nat) (d : Desc) : (s.setDesc i d).ntim = s.ntim := rfl
@[simp] theorem State.setDesc_pps (i : Nat) (d : Desc) : (s.setDesc i d).pps = s.pps := rfl
@[simp] theorem State.setDesc_tmr (i : Nat) (d : Desc) : (s.setDesc i d).tmr = s.tmr := rfl
@[simp] theorem State.setDesc_lamps (i : Nat) (d : Desc) : (s.setDesc i d).lamps = s.lamps := rfl
@[simp] theorem State.setDesc_pair (i : Nat) (d : Desc) : (s.setDesc i d).pair = s.pair := rfl
@[simp] theorem State.setDesc_lens (i : Nat) (d : Desc) : (s.setDesc i d).lens = s.lens := rfl
@[simp] theorem State.setDesc_dets (i : Nat) (d : Desc) : (s.setDesc i d).dets = s.dets := rfl
@[simp] theorem State.setDesc_ctxs (i : Nat) (d : Desc) : (s.setDesc i d).ctxs = s.ctxs := rfl
@[simp] theorem State.setDesc_rtags (i : Nat) (d : Desc) : (s.setDesc i d).rtags = s.rtags := rfl
@[simp] theorem State.setDesc_rtagCnt (i : Nat) (d : Desc) : (s.setDesc i d).rtagCnt = s.rtagCnt := rfl
@[simp] theorem State.setDesc_rtagBase (i : Nat) (d : Desc) : (s.setDesc i d).rtagBase = s.rtagBase := rfl
@[simp] theorem State.setDesc_irqPend (i : Nat) (d : Desc) : (s.setDesc i d).irqPend = s.irqPend := rfl
@[simp] theorem State.setDesc_irqServed (i : Nat) (d : Desc) : (s.setDesc i d).irqServed = s.irqServed := rfl
@[simp] theorem State.setDesc_pcnt (i : Nat) (d : Desc) : (s.setDesc i d).pcnt = s.pcnt := rfl
@[simp] theorem State.setDesc_pcntShd (i : Nat) (d : Desc) : (s.setDesc i d).pcntShd = s.pcntShd := rfl
@[simp] theorem State.setDesc_pcntFrac (i : Nat) (d : Desc) : (s.setDesc i d).pcntFrac = s.pcntFrac := rfl
@[simp] theorem State.setDesc_dmc (i : Nat) (d : Desc) : (s.setDesc i d).dmc = s.dmc := rfl
@[simp] theorem State.setDesc_pwr (i : Nat) (d : Desc) : (s.setDesc i d).pwr = s.pwr := rfl
@[simp] theorem State.setDesc_cores (i : Nat) (d : Desc) : (s.setDesc i d).cores = s.cores := rfl
@[simp] theorem State.setDesc_mant (i : Nat) (d : Desc) : (s.setDesc i d).mant = s.mant := rfl
@[simp] theorem State.setDesc_lant (i : Nat) (d : Desc) : (s.setDesc i d).lant = s.lant := rfl
@[simp] theorem State.setDesc_ciph (i : Nat) (d : Desc) : (s.setDesc i d).ciph = s.ciph := rfl
@[simp] theorem State.setDesc_sec (i : Nat) (d : Desc) : (s.setDesc i d).sec = s.sec := rfl
@[simp] theorem State.setDesc_emac (i : Nat) (d : Desc) : (s.setDesc i d).emac = s.emac := rfl
@[simp] theorem State.setDesc_mdio (i : Nat) (d : Desc) : (s.setDesc i d).mdio = s.mdio := rfl
@[simp] theorem State.setDesc_fwd (i : Nat) (d : Desc) : (s.setDesc i d).fwd = s.fwd := rfl
@[simp] theorem State.setDesc_tmgr (i : Nat) (d : Desc) : (s.setDesc i d).tmgr = s.tmgr := rfl
@[simp] theorem State.setDesc_harts (i : Nat) (d : Desc) : (s.setDesc i d).harts = s.harts := rfl
@[simp] theorem State.setDesc_boot (i : Nat) (d : Desc) : (s.setDesc i d).boot = s.boot := rfl
@[simp] theorem State.setDesc_mbx (i : Nat) (d : Desc) : (s.setDesc i d).mbx = s.mbx := rfl
@[simp] theorem State.setDesc_calWr (i : Nat) (d : Desc) : (s.setDesc i d).calWr = s.calWr := rfl
@[simp] theorem State.setDesc_jrn (i : Nat) (d : Desc) : (s.setDesc i d).jrn = s.jrn := rfl
@[simp] theorem State.setDesc_loader (i : Nat) (d : Desc) : (s.setDesc i d).loader = s.loader := rfl
@[simp] theorem State.setDesc_clu (i : Nat) (d : Desc) : (s.setDesc i d).clu = s.clu := rfl
@[simp] theorem State.setDesc_bg (i : Nat) (d : Desc) : (s.setDesc i d).bg = s.bg := rfl

/-! ### State.setLamp -/
@[simp] theorem State.setLamp_pending (n : Nat) (l : Lamp) : (s.setLamp n l).pending = s.pending := rfl
@[simp] theorem State.setLamp_clk (n : Nat) (l : Lamp) : (s.setLamp n l).clk = s.clk := rfl
@[simp] theorem State.setLamp_relAt (n : Nat) (l : Lamp) : (s.setLamp n l).relAt = s.relAt := rfl
@[simp] theorem State.setLamp_freeCtr (n : Nat) (l : Lamp) : (s.setLamp n l).freeCtr = s.freeCtr := rfl
@[simp] theorem State.setLamp_regs (n : Nat) (l : Lamp) : (s.setLamp n l).regs = s.regs := rfl
@[simp] theorem State.setLamp_latches (n : Nat) (l : Lamp) : (s.setLamp n l).latches = s.latches := rfl
@[simp] theorem State.setLamp_resp (n : Nat) (l : Lamp) : (s.setLamp n l).resp = s.resp := rfl
@[simp] theorem State.setLamp_mem (n : Nat) (l : Lamp) : (s.setLamp n l).mem = s.mem := rfl
@[simp] theorem State.setLamp_nor (n : Nat) (l : Lamp) : (s.setLamp n l).nor = s.nor := rfl
@[simp] theorem State.setLamp_board (n : Nat) (l : Lamp) : (s.setLamp n l).board = s.board := rfl
@[simp] theorem State.setLamp_ntim (n : Nat) (l : Lamp) : (s.setLamp n l).ntim = s.ntim := rfl
@[simp] theorem State.setLamp_pps (n : Nat) (l : Lamp) : (s.setLamp n l).pps = s.pps := rfl
@[simp] theorem State.setLamp_tmr (n : Nat) (l : Lamp) : (s.setLamp n l).tmr = s.tmr := rfl
@[simp] theorem State.setLamp_pair (n : Nat) (l : Lamp) : (s.setLamp n l).pair = s.pair := rfl
@[simp] theorem State.setLamp_lens (n : Nat) (l : Lamp) : (s.setLamp n l).lens = s.lens := rfl
@[simp] theorem State.setLamp_dets (n : Nat) (l : Lamp) : (s.setLamp n l).dets = s.dets := rfl
@[simp] theorem State.setLamp_ctxs (n : Nat) (l : Lamp) : (s.setLamp n l).ctxs = s.ctxs := rfl
@[simp] theorem State.setLamp_rtags (n : Nat) (l : Lamp) : (s.setLamp n l).rtags = s.rtags := rfl
@[simp] theorem State.setLamp_rtagCnt (n : Nat) (l : Lamp) : (s.setLamp n l).rtagCnt = s.rtagCnt := rfl
@[simp] theorem State.setLamp_rtagBase (n : Nat) (l : Lamp) : (s.setLamp n l).rtagBase = s.rtagBase := rfl
@[simp] theorem State.setLamp_irqPend (n : Nat) (l : Lamp) : (s.setLamp n l).irqPend = s.irqPend := rfl
@[simp] theorem State.setLamp_irqServed (n : Nat) (l : Lamp) : (s.setLamp n l).irqServed = s.irqServed := rfl
@[simp] theorem State.setLamp_pcnt (n : Nat) (l : Lamp) : (s.setLamp n l).pcnt = s.pcnt := rfl
@[simp] theorem State.setLamp_pcntShd (n : Nat) (l : Lamp) : (s.setLamp n l).pcntShd = s.pcntShd := rfl
@[simp] theorem State.setLamp_pcntFrac (n : Nat) (l : Lamp) : (s.setLamp n l).pcntFrac = s.pcntFrac := rfl
@[simp] theorem State.setLamp_dmc (n : Nat) (l : Lamp) : (s.setLamp n l).dmc = s.dmc := rfl
@[simp] theorem State.setLamp_pwr (n : Nat) (l : Lamp) : (s.setLamp n l).pwr = s.pwr := rfl
@[simp] theorem State.setLamp_cores (n : Nat) (l : Lamp) : (s.setLamp n l).cores = s.cores := rfl
@[simp] theorem State.setLamp_chnd (n : Nat) (l : Lamp) : (s.setLamp n l).chnd = s.chnd := rfl
@[simp] theorem State.setLamp_mant (n : Nat) (l : Lamp) : (s.setLamp n l).mant = s.mant := rfl
@[simp] theorem State.setLamp_lant (n : Nat) (l : Lamp) : (s.setLamp n l).lant = s.lant := rfl
@[simp] theorem State.setLamp_ciph (n : Nat) (l : Lamp) : (s.setLamp n l).ciph = s.ciph := rfl
@[simp] theorem State.setLamp_sec (n : Nat) (l : Lamp) : (s.setLamp n l).sec = s.sec := rfl
@[simp] theorem State.setLamp_emac (n : Nat) (l : Lamp) : (s.setLamp n l).emac = s.emac := rfl
@[simp] theorem State.setLamp_mdio (n : Nat) (l : Lamp) : (s.setLamp n l).mdio = s.mdio := rfl
@[simp] theorem State.setLamp_fwd (n : Nat) (l : Lamp) : (s.setLamp n l).fwd = s.fwd := rfl
@[simp] theorem State.setLamp_tmgr (n : Nat) (l : Lamp) : (s.setLamp n l).tmgr = s.tmgr := rfl
@[simp] theorem State.setLamp_harts (n : Nat) (l : Lamp) : (s.setLamp n l).harts = s.harts := rfl
@[simp] theorem State.setLamp_boot (n : Nat) (l : Lamp) : (s.setLamp n l).boot = s.boot := rfl
@[simp] theorem State.setLamp_mbx (n : Nat) (l : Lamp) : (s.setLamp n l).mbx = s.mbx := rfl
@[simp] theorem State.setLamp_calWr (n : Nat) (l : Lamp) : (s.setLamp n l).calWr = s.calWr := rfl
@[simp] theorem State.setLamp_jrn (n : Nat) (l : Lamp) : (s.setLamp n l).jrn = s.jrn := rfl
@[simp] theorem State.setLamp_loader (n : Nat) (l : Lamp) : (s.setLamp n l).loader = s.loader := rfl
@[simp] theorem State.setLamp_clu (n : Nat) (l : Lamp) : (s.setLamp n l).clu = s.clu := rfl
@[simp] theorem State.setLamp_bg (n : Nat) (l : Lamp) : (s.setLamp n l).bg = s.bg := rfl

/-! ### State.setCtx -/
@[simp] theorem State.setCtx_pending (i : Nat) (c : LensCtx) : (s.setCtx i c).pending = s.pending := rfl
@[simp] theorem State.setCtx_clk (i : Nat) (c : LensCtx) : (s.setCtx i c).clk = s.clk := rfl
@[simp] theorem State.setCtx_relAt (i : Nat) (c : LensCtx) : (s.setCtx i c).relAt = s.relAt := rfl
@[simp] theorem State.setCtx_freeCtr (i : Nat) (c : LensCtx) : (s.setCtx i c).freeCtr = s.freeCtr := rfl
@[simp] theorem State.setCtx_regs (i : Nat) (c : LensCtx) : (s.setCtx i c).regs = s.regs := rfl
@[simp] theorem State.setCtx_latches (i : Nat) (c : LensCtx) : (s.setCtx i c).latches = s.latches := rfl
@[simp] theorem State.setCtx_resp (i : Nat) (c : LensCtx) : (s.setCtx i c).resp = s.resp := rfl
@[simp] theorem State.setCtx_mem (i : Nat) (c : LensCtx) : (s.setCtx i c).mem = s.mem := rfl
@[simp] theorem State.setCtx_nor (i : Nat) (c : LensCtx) : (s.setCtx i c).nor = s.nor := rfl
@[simp] theorem State.setCtx_board (i : Nat) (c : LensCtx) : (s.setCtx i c).board = s.board := rfl
@[simp] theorem State.setCtx_ntim (i : Nat) (c : LensCtx) : (s.setCtx i c).ntim = s.ntim := rfl
@[simp] theorem State.setCtx_pps (i : Nat) (c : LensCtx) : (s.setCtx i c).pps = s.pps := rfl
@[simp] theorem State.setCtx_tmr (i : Nat) (c : LensCtx) : (s.setCtx i c).tmr = s.tmr := rfl
@[simp] theorem State.setCtx_lamps (i : Nat) (c : LensCtx) : (s.setCtx i c).lamps = s.lamps := rfl
@[simp] theorem State.setCtx_pair (i : Nat) (c : LensCtx) : (s.setCtx i c).pair = s.pair := rfl
@[simp] theorem State.setCtx_lens (i : Nat) (c : LensCtx) : (s.setCtx i c).lens = s.lens := rfl
@[simp] theorem State.setCtx_dets (i : Nat) (c : LensCtx) : (s.setCtx i c).dets = s.dets := rfl
@[simp] theorem State.setCtx_rtags (i : Nat) (c : LensCtx) : (s.setCtx i c).rtags = s.rtags := rfl
@[simp] theorem State.setCtx_rtagCnt (i : Nat) (c : LensCtx) : (s.setCtx i c).rtagCnt = s.rtagCnt := rfl
@[simp] theorem State.setCtx_rtagBase (i : Nat) (c : LensCtx) : (s.setCtx i c).rtagBase = s.rtagBase := rfl
@[simp] theorem State.setCtx_irqPend (i : Nat) (c : LensCtx) : (s.setCtx i c).irqPend = s.irqPend := rfl
@[simp] theorem State.setCtx_irqServed (i : Nat) (c : LensCtx) : (s.setCtx i c).irqServed = s.irqServed := rfl
@[simp] theorem State.setCtx_pcnt (i : Nat) (c : LensCtx) : (s.setCtx i c).pcnt = s.pcnt := rfl
@[simp] theorem State.setCtx_pcntShd (i : Nat) (c : LensCtx) : (s.setCtx i c).pcntShd = s.pcntShd := rfl
@[simp] theorem State.setCtx_pcntFrac (i : Nat) (c : LensCtx) : (s.setCtx i c).pcntFrac = s.pcntFrac := rfl
@[simp] theorem State.setCtx_dmc (i : Nat) (c : LensCtx) : (s.setCtx i c).dmc = s.dmc := rfl
@[simp] theorem State.setCtx_pwr (i : Nat) (c : LensCtx) : (s.setCtx i c).pwr = s.pwr := rfl
@[simp] theorem State.setCtx_cores (i : Nat) (c : LensCtx) : (s.setCtx i c).cores = s.cores := rfl
@[simp] theorem State.setCtx_chnd (i : Nat) (c : LensCtx) : (s.setCtx i c).chnd = s.chnd := rfl
@[simp] theorem State.setCtx_mant (i : Nat) (c : LensCtx) : (s.setCtx i c).mant = s.mant := rfl
@[simp] theorem State.setCtx_lant (i : Nat) (c : LensCtx) : (s.setCtx i c).lant = s.lant := rfl
@[simp] theorem State.setCtx_ciph (i : Nat) (c : LensCtx) : (s.setCtx i c).ciph = s.ciph := rfl
@[simp] theorem State.setCtx_sec (i : Nat) (c : LensCtx) : (s.setCtx i c).sec = s.sec := rfl
@[simp] theorem State.setCtx_emac (i : Nat) (c : LensCtx) : (s.setCtx i c).emac = s.emac := rfl
@[simp] theorem State.setCtx_mdio (i : Nat) (c : LensCtx) : (s.setCtx i c).mdio = s.mdio := rfl
@[simp] theorem State.setCtx_fwd (i : Nat) (c : LensCtx) : (s.setCtx i c).fwd = s.fwd := rfl
@[simp] theorem State.setCtx_tmgr (i : Nat) (c : LensCtx) : (s.setCtx i c).tmgr = s.tmgr := rfl
@[simp] theorem State.setCtx_harts (i : Nat) (c : LensCtx) : (s.setCtx i c).harts = s.harts := rfl
@[simp] theorem State.setCtx_boot (i : Nat) (c : LensCtx) : (s.setCtx i c).boot = s.boot := rfl
@[simp] theorem State.setCtx_mbx (i : Nat) (c : LensCtx) : (s.setCtx i c).mbx = s.mbx := rfl
@[simp] theorem State.setCtx_calWr (i : Nat) (c : LensCtx) : (s.setCtx i c).calWr = s.calWr := rfl
@[simp] theorem State.setCtx_jrn (i : Nat) (c : LensCtx) : (s.setCtx i c).jrn = s.jrn := rfl
@[simp] theorem State.setCtx_loader (i : Nat) (c : LensCtx) : (s.setCtx i c).loader = s.loader := rfl
@[simp] theorem State.setCtx_clu (i : Nat) (c : LensCtx) : (s.setCtx i c).clu = s.clu := rfl
@[simp] theorem State.setCtx_bg (i : Nat) (c : LensCtx) : (s.setCtx i c).bg = s.bg := rfl

/-! ### State.setPend -/
@[simp] theorem State.setPend_pending (n : Nat) (d : List Det) : (s.setPend n d).pending = s.pending := rfl
@[simp] theorem State.setPend_clk (n : Nat) (d : List Det) : (s.setPend n d).clk = s.clk := rfl
@[simp] theorem State.setPend_relAt (n : Nat) (d : List Det) : (s.setPend n d).relAt = s.relAt := rfl
@[simp] theorem State.setPend_freeCtr (n : Nat) (d : List Det) : (s.setPend n d).freeCtr = s.freeCtr := rfl
@[simp] theorem State.setPend_regs (n : Nat) (d : List Det) : (s.setPend n d).regs = s.regs := rfl
@[simp] theorem State.setPend_latches (n : Nat) (d : List Det) : (s.setPend n d).latches = s.latches := rfl
@[simp] theorem State.setPend_resp (n : Nat) (d : List Det) : (s.setPend n d).resp = s.resp := rfl
@[simp] theorem State.setPend_mem (n : Nat) (d : List Det) : (s.setPend n d).mem = s.mem := rfl
@[simp] theorem State.setPend_nor (n : Nat) (d : List Det) : (s.setPend n d).nor = s.nor := rfl
@[simp] theorem State.setPend_board (n : Nat) (d : List Det) : (s.setPend n d).board = s.board := rfl
@[simp] theorem State.setPend_ntim (n : Nat) (d : List Det) : (s.setPend n d).ntim = s.ntim := rfl
@[simp] theorem State.setPend_pps (n : Nat) (d : List Det) : (s.setPend n d).pps = s.pps := rfl
@[simp] theorem State.setPend_tmr (n : Nat) (d : List Det) : (s.setPend n d).tmr = s.tmr := rfl
@[simp] theorem State.setPend_lamps (n : Nat) (d : List Det) : (s.setPend n d).lamps = s.lamps := rfl
@[simp] theorem State.setPend_pair (n : Nat) (d : List Det) : (s.setPend n d).pair = s.pair := rfl
@[simp] theorem State.setPend_lens (n : Nat) (d : List Det) : (s.setPend n d).lens = s.lens := rfl
@[simp] theorem State.setPend_ctxs (n : Nat) (d : List Det) : (s.setPend n d).ctxs = s.ctxs := rfl
@[simp] theorem State.setPend_rtags (n : Nat) (d : List Det) : (s.setPend n d).rtags = s.rtags := rfl
@[simp] theorem State.setPend_rtagCnt (n : Nat) (d : List Det) : (s.setPend n d).rtagCnt = s.rtagCnt := rfl
@[simp] theorem State.setPend_rtagBase (n : Nat) (d : List Det) : (s.setPend n d).rtagBase = s.rtagBase := rfl
@[simp] theorem State.setPend_irqPend (n : Nat) (d : List Det) : (s.setPend n d).irqPend = s.irqPend := rfl
@[simp] theorem State.setPend_irqServed (n : Nat) (d : List Det) : (s.setPend n d).irqServed = s.irqServed := rfl
@[simp] theorem State.setPend_pcnt (n : Nat) (d : List Det) : (s.setPend n d).pcnt = s.pcnt := rfl
@[simp] theorem State.setPend_pcntShd (n : Nat) (d : List Det) : (s.setPend n d).pcntShd = s.pcntShd := rfl
@[simp] theorem State.setPend_pcntFrac (n : Nat) (d : List Det) : (s.setPend n d).pcntFrac = s.pcntFrac := rfl
@[simp] theorem State.setPend_dmc (n : Nat) (d : List Det) : (s.setPend n d).dmc = s.dmc := rfl
@[simp] theorem State.setPend_pwr (n : Nat) (d : List Det) : (s.setPend n d).pwr = s.pwr := rfl
@[simp] theorem State.setPend_cores (n : Nat) (d : List Det) : (s.setPend n d).cores = s.cores := rfl
@[simp] theorem State.setPend_chnd (n : Nat) (d : List Det) : (s.setPend n d).chnd = s.chnd := rfl
@[simp] theorem State.setPend_mant (n : Nat) (d : List Det) : (s.setPend n d).mant = s.mant := rfl
@[simp] theorem State.setPend_lant (n : Nat) (d : List Det) : (s.setPend n d).lant = s.lant := rfl
@[simp] theorem State.setPend_ciph (n : Nat) (d : List Det) : (s.setPend n d).ciph = s.ciph := rfl
@[simp] theorem State.setPend_sec (n : Nat) (d : List Det) : (s.setPend n d).sec = s.sec := rfl
@[simp] theorem State.setPend_emac (n : Nat) (d : List Det) : (s.setPend n d).emac = s.emac := rfl
@[simp] theorem State.setPend_mdio (n : Nat) (d : List Det) : (s.setPend n d).mdio = s.mdio := rfl
@[simp] theorem State.setPend_fwd (n : Nat) (d : List Det) : (s.setPend n d).fwd = s.fwd := rfl
@[simp] theorem State.setPend_tmgr (n : Nat) (d : List Det) : (s.setPend n d).tmgr = s.tmgr := rfl
@[simp] theorem State.setPend_harts (n : Nat) (d : List Det) : (s.setPend n d).harts = s.harts := rfl
@[simp] theorem State.setPend_boot (n : Nat) (d : List Det) : (s.setPend n d).boot = s.boot := rfl
@[simp] theorem State.setPend_mbx (n : Nat) (d : List Det) : (s.setPend n d).mbx = s.mbx := rfl
@[simp] theorem State.setPend_calWr (n : Nat) (d : List Det) : (s.setPend n d).calWr = s.calWr := rfl
@[simp] theorem State.setPend_jrn (n : Nat) (d : List Det) : (s.setPend n d).jrn = s.jrn := rfl
@[simp] theorem State.setPend_loader (n : Nat) (d : List Det) : (s.setPend n d).loader = s.loader := rfl
@[simp] theorem State.setPend_clu (n : Nat) (d : List Det) : (s.setPend n d).clu = s.clu := rfl
@[simp] theorem State.setPend_bg (n : Nat) (d : List Det) : (s.setPend n d).bg = s.bg := rfl

/-! ### State.setPps -/
@[simp] theorem State.setPps_pending (k : Nat) (p : Pps) : (s.setPps k p).pending = s.pending := rfl
@[simp] theorem State.setPps_clk (k : Nat) (p : Pps) : (s.setPps k p).clk = s.clk := rfl
@[simp] theorem State.setPps_relAt (k : Nat) (p : Pps) : (s.setPps k p).relAt = s.relAt := rfl
@[simp] theorem State.setPps_freeCtr (k : Nat) (p : Pps) : (s.setPps k p).freeCtr = s.freeCtr := rfl
@[simp] theorem State.setPps_regs (k : Nat) (p : Pps) : (s.setPps k p).regs = s.regs := rfl
@[simp] theorem State.setPps_latches (k : Nat) (p : Pps) : (s.setPps k p).latches = s.latches := rfl
@[simp] theorem State.setPps_resp (k : Nat) (p : Pps) : (s.setPps k p).resp = s.resp := rfl
@[simp] theorem State.setPps_mem (k : Nat) (p : Pps) : (s.setPps k p).mem = s.mem := rfl
@[simp] theorem State.setPps_nor (k : Nat) (p : Pps) : (s.setPps k p).nor = s.nor := rfl
@[simp] theorem State.setPps_board (k : Nat) (p : Pps) : (s.setPps k p).board = s.board := rfl
@[simp] theorem State.setPps_ntim (k : Nat) (p : Pps) : (s.setPps k p).ntim = s.ntim := rfl
@[simp] theorem State.setPps_tmr (k : Nat) (p : Pps) : (s.setPps k p).tmr = s.tmr := rfl
@[simp] theorem State.setPps_lamps (k : Nat) (p : Pps) : (s.setPps k p).lamps = s.lamps := rfl
@[simp] theorem State.setPps_pair (k : Nat) (p : Pps) : (s.setPps k p).pair = s.pair := rfl
@[simp] theorem State.setPps_lens (k : Nat) (p : Pps) : (s.setPps k p).lens = s.lens := rfl
@[simp] theorem State.setPps_dets (k : Nat) (p : Pps) : (s.setPps k p).dets = s.dets := rfl
@[simp] theorem State.setPps_ctxs (k : Nat) (p : Pps) : (s.setPps k p).ctxs = s.ctxs := rfl
@[simp] theorem State.setPps_rtags (k : Nat) (p : Pps) : (s.setPps k p).rtags = s.rtags := rfl
@[simp] theorem State.setPps_rtagCnt (k : Nat) (p : Pps) : (s.setPps k p).rtagCnt = s.rtagCnt := rfl
@[simp] theorem State.setPps_rtagBase (k : Nat) (p : Pps) : (s.setPps k p).rtagBase = s.rtagBase := rfl
@[simp] theorem State.setPps_irqPend (k : Nat) (p : Pps) : (s.setPps k p).irqPend = s.irqPend := rfl
@[simp] theorem State.setPps_irqServed (k : Nat) (p : Pps) : (s.setPps k p).irqServed = s.irqServed := rfl
@[simp] theorem State.setPps_pcnt (k : Nat) (p : Pps) : (s.setPps k p).pcnt = s.pcnt := rfl
@[simp] theorem State.setPps_pcntShd (k : Nat) (p : Pps) : (s.setPps k p).pcntShd = s.pcntShd := rfl
@[simp] theorem State.setPps_pcntFrac (k : Nat) (p : Pps) : (s.setPps k p).pcntFrac = s.pcntFrac := rfl
@[simp] theorem State.setPps_dmc (k : Nat) (p : Pps) : (s.setPps k p).dmc = s.dmc := rfl
@[simp] theorem State.setPps_pwr (k : Nat) (p : Pps) : (s.setPps k p).pwr = s.pwr := rfl
@[simp] theorem State.setPps_cores (k : Nat) (p : Pps) : (s.setPps k p).cores = s.cores := rfl
@[simp] theorem State.setPps_chnd (k : Nat) (p : Pps) : (s.setPps k p).chnd = s.chnd := rfl
@[simp] theorem State.setPps_mant (k : Nat) (p : Pps) : (s.setPps k p).mant = s.mant := rfl
@[simp] theorem State.setPps_lant (k : Nat) (p : Pps) : (s.setPps k p).lant = s.lant := rfl
@[simp] theorem State.setPps_ciph (k : Nat) (p : Pps) : (s.setPps k p).ciph = s.ciph := rfl
@[simp] theorem State.setPps_sec (k : Nat) (p : Pps) : (s.setPps k p).sec = s.sec := rfl
@[simp] theorem State.setPps_emac (k : Nat) (p : Pps) : (s.setPps k p).emac = s.emac := rfl
@[simp] theorem State.setPps_mdio (k : Nat) (p : Pps) : (s.setPps k p).mdio = s.mdio := rfl
@[simp] theorem State.setPps_fwd (k : Nat) (p : Pps) : (s.setPps k p).fwd = s.fwd := rfl
@[simp] theorem State.setPps_tmgr (k : Nat) (p : Pps) : (s.setPps k p).tmgr = s.tmgr := rfl
@[simp] theorem State.setPps_harts (k : Nat) (p : Pps) : (s.setPps k p).harts = s.harts := rfl
@[simp] theorem State.setPps_boot (k : Nat) (p : Pps) : (s.setPps k p).boot = s.boot := rfl
@[simp] theorem State.setPps_mbx (k : Nat) (p : Pps) : (s.setPps k p).mbx = s.mbx := rfl
@[simp] theorem State.setPps_calWr (k : Nat) (p : Pps) : (s.setPps k p).calWr = s.calWr := rfl
@[simp] theorem State.setPps_jrn (k : Nat) (p : Pps) : (s.setPps k p).jrn = s.jrn := rfl
@[simp] theorem State.setPps_loader (k : Nat) (p : Pps) : (s.setPps k p).loader = s.loader := rfl
@[simp] theorem State.setPps_clu (k : Nat) (p : Pps) : (s.setPps k p).clu = s.clu := rfl
@[simp] theorem State.setPps_bg (k : Nat) (p : Pps) : (s.setPps k p).bg = s.bg := rfl

/-! ### State.setTch -/
@[simp] theorem State.setTch_pending (n : Nat) (c : TmrCh) : (s.setTch n c).pending = s.pending := rfl
@[simp] theorem State.setTch_clk (n : Nat) (c : TmrCh) : (s.setTch n c).clk = s.clk := rfl
@[simp] theorem State.setTch_relAt (n : Nat) (c : TmrCh) : (s.setTch n c).relAt = s.relAt := rfl
@[simp] theorem State.setTch_freeCtr (n : Nat) (c : TmrCh) : (s.setTch n c).freeCtr = s.freeCtr := rfl
@[simp] theorem State.setTch_regs (n : Nat) (c : TmrCh) : (s.setTch n c).regs = s.regs := rfl
@[simp] theorem State.setTch_latches (n : Nat) (c : TmrCh) : (s.setTch n c).latches = s.latches := rfl
@[simp] theorem State.setTch_resp (n : Nat) (c : TmrCh) : (s.setTch n c).resp = s.resp := rfl
@[simp] theorem State.setTch_mem (n : Nat) (c : TmrCh) : (s.setTch n c).mem = s.mem := rfl
@[simp] theorem State.setTch_nor (n : Nat) (c : TmrCh) : (s.setTch n c).nor = s.nor := rfl
@[simp] theorem State.setTch_board (n : Nat) (c : TmrCh) : (s.setTch n c).board = s.board := rfl
@[simp] theorem State.setTch_ntim (n : Nat) (c : TmrCh) : (s.setTch n c).ntim = s.ntim := rfl
@[simp] theorem State.setTch_pps (n : Nat) (c : TmrCh) : (s.setTch n c).pps = s.pps := rfl
@[simp] theorem State.setTch_lamps (n : Nat) (c : TmrCh) : (s.setTch n c).lamps = s.lamps := rfl
@[simp] theorem State.setTch_pair (n : Nat) (c : TmrCh) : (s.setTch n c).pair = s.pair := rfl
@[simp] theorem State.setTch_lens (n : Nat) (c : TmrCh) : (s.setTch n c).lens = s.lens := rfl
@[simp] theorem State.setTch_dets (n : Nat) (c : TmrCh) : (s.setTch n c).dets = s.dets := rfl
@[simp] theorem State.setTch_ctxs (n : Nat) (c : TmrCh) : (s.setTch n c).ctxs = s.ctxs := rfl
@[simp] theorem State.setTch_rtags (n : Nat) (c : TmrCh) : (s.setTch n c).rtags = s.rtags := rfl
@[simp] theorem State.setTch_rtagCnt (n : Nat) (c : TmrCh) : (s.setTch n c).rtagCnt = s.rtagCnt := rfl
@[simp] theorem State.setTch_rtagBase (n : Nat) (c : TmrCh) : (s.setTch n c).rtagBase = s.rtagBase := rfl
@[simp] theorem State.setTch_irqPend (n : Nat) (c : TmrCh) : (s.setTch n c).irqPend = s.irqPend := rfl
@[simp] theorem State.setTch_irqServed (n : Nat) (c : TmrCh) : (s.setTch n c).irqServed = s.irqServed := rfl
@[simp] theorem State.setTch_pcnt (n : Nat) (c : TmrCh) : (s.setTch n c).pcnt = s.pcnt := rfl
@[simp] theorem State.setTch_pcntShd (n : Nat) (c : TmrCh) : (s.setTch n c).pcntShd = s.pcntShd := rfl
@[simp] theorem State.setTch_pcntFrac (n : Nat) (c : TmrCh) : (s.setTch n c).pcntFrac = s.pcntFrac := rfl
@[simp] theorem State.setTch_dmc (n : Nat) (c : TmrCh) : (s.setTch n c).dmc = s.dmc := rfl
@[simp] theorem State.setTch_pwr (n : Nat) (c : TmrCh) : (s.setTch n c).pwr = s.pwr := rfl
@[simp] theorem State.setTch_cores (n : Nat) (c : TmrCh) : (s.setTch n c).cores = s.cores := rfl
@[simp] theorem State.setTch_chnd (n : Nat) (c : TmrCh) : (s.setTch n c).chnd = s.chnd := rfl
@[simp] theorem State.setTch_mant (n : Nat) (c : TmrCh) : (s.setTch n c).mant = s.mant := rfl
@[simp] theorem State.setTch_lant (n : Nat) (c : TmrCh) : (s.setTch n c).lant = s.lant := rfl
@[simp] theorem State.setTch_ciph (n : Nat) (c : TmrCh) : (s.setTch n c).ciph = s.ciph := rfl
@[simp] theorem State.setTch_sec (n : Nat) (c : TmrCh) : (s.setTch n c).sec = s.sec := rfl
@[simp] theorem State.setTch_emac (n : Nat) (c : TmrCh) : (s.setTch n c).emac = s.emac := rfl
@[simp] theorem State.setTch_mdio (n : Nat) (c : TmrCh) : (s.setTch n c).mdio = s.mdio := rfl
@[simp] theorem State.setTch_fwd (n : Nat) (c : TmrCh) : (s.setTch n c).fwd = s.fwd := rfl
@[simp] theorem State.setTch_tmgr (n : Nat) (c : TmrCh) : (s.setTch n c).tmgr = s.tmgr := rfl
@[simp] theorem State.setTch_harts (n : Nat) (c : TmrCh) : (s.setTch n c).harts = s.harts := rfl
@[simp] theorem State.setTch_boot (n : Nat) (c : TmrCh) : (s.setTch n c).boot = s.boot := rfl
@[simp] theorem State.setTch_mbx (n : Nat) (c : TmrCh) : (s.setTch n c).mbx = s.mbx := rfl
@[simp] theorem State.setTch_calWr (n : Nat) (c : TmrCh) : (s.setTch n c).calWr = s.calWr := rfl
@[simp] theorem State.setTch_jrn (n : Nat) (c : TmrCh) : (s.setTch n c).jrn = s.jrn := rfl
@[simp] theorem State.setTch_loader (n : Nat) (c : TmrCh) : (s.setTch n c).loader = s.loader := rfl
@[simp] theorem State.setTch_clu (n : Nat) (c : TmrCh) : (s.setTch n c).clu = s.clu := rfl
@[simp] theorem State.setTch_bg (n : Nat) (c : TmrCh) : (s.setTch n c).bg = s.bg := rfl

/-! ### State.setSlot -/
@[simp] theorem State.setSlot_pending (k : Nat) (x : KeySlot) : (s.setSlot k x).pending = s.pending := rfl
@[simp] theorem State.setSlot_clk (k : Nat) (x : KeySlot) : (s.setSlot k x).clk = s.clk := rfl
@[simp] theorem State.setSlot_relAt (k : Nat) (x : KeySlot) : (s.setSlot k x).relAt = s.relAt := rfl
@[simp] theorem State.setSlot_freeCtr (k : Nat) (x : KeySlot) : (s.setSlot k x).freeCtr = s.freeCtr := rfl
@[simp] theorem State.setSlot_regs (k : Nat) (x : KeySlot) : (s.setSlot k x).regs = s.regs := rfl
@[simp] theorem State.setSlot_latches (k : Nat) (x : KeySlot) : (s.setSlot k x).latches = s.latches := rfl
@[simp] theorem State.setSlot_resp (k : Nat) (x : KeySlot) : (s.setSlot k x).resp = s.resp := rfl
@[simp] theorem State.setSlot_mem (k : Nat) (x : KeySlot) : (s.setSlot k x).mem = s.mem := rfl
@[simp] theorem State.setSlot_nor (k : Nat) (x : KeySlot) : (s.setSlot k x).nor = s.nor := rfl
@[simp] theorem State.setSlot_board (k : Nat) (x : KeySlot) : (s.setSlot k x).board = s.board := rfl
@[simp] theorem State.setSlot_ntim (k : Nat) (x : KeySlot) : (s.setSlot k x).ntim = s.ntim := rfl
@[simp] theorem State.setSlot_pps (k : Nat) (x : KeySlot) : (s.setSlot k x).pps = s.pps := rfl
@[simp] theorem State.setSlot_tmr (k : Nat) (x : KeySlot) : (s.setSlot k x).tmr = s.tmr := rfl
@[simp] theorem State.setSlot_lamps (k : Nat) (x : KeySlot) : (s.setSlot k x).lamps = s.lamps := rfl
@[simp] theorem State.setSlot_pair (k : Nat) (x : KeySlot) : (s.setSlot k x).pair = s.pair := rfl
@[simp] theorem State.setSlot_lens (k : Nat) (x : KeySlot) : (s.setSlot k x).lens = s.lens := rfl
@[simp] theorem State.setSlot_dets (k : Nat) (x : KeySlot) : (s.setSlot k x).dets = s.dets := rfl
@[simp] theorem State.setSlot_ctxs (k : Nat) (x : KeySlot) : (s.setSlot k x).ctxs = s.ctxs := rfl
@[simp] theorem State.setSlot_rtags (k : Nat) (x : KeySlot) : (s.setSlot k x).rtags = s.rtags := rfl
@[simp] theorem State.setSlot_rtagCnt (k : Nat) (x : KeySlot) : (s.setSlot k x).rtagCnt = s.rtagCnt := rfl
@[simp] theorem State.setSlot_rtagBase (k : Nat) (x : KeySlot) : (s.setSlot k x).rtagBase = s.rtagBase := rfl
@[simp] theorem State.setSlot_irqPend (k : Nat) (x : KeySlot) : (s.setSlot k x).irqPend = s.irqPend := rfl
@[simp] theorem State.setSlot_irqServed (k : Nat) (x : KeySlot) : (s.setSlot k x).irqServed = s.irqServed := rfl
@[simp] theorem State.setSlot_pcnt (k : Nat) (x : KeySlot) : (s.setSlot k x).pcnt = s.pcnt := rfl
@[simp] theorem State.setSlot_pcntShd (k : Nat) (x : KeySlot) : (s.setSlot k x).pcntShd = s.pcntShd := rfl
@[simp] theorem State.setSlot_pcntFrac (k : Nat) (x : KeySlot) : (s.setSlot k x).pcntFrac = s.pcntFrac := rfl
@[simp] theorem State.setSlot_dmc (k : Nat) (x : KeySlot) : (s.setSlot k x).dmc = s.dmc := rfl
@[simp] theorem State.setSlot_pwr (k : Nat) (x : KeySlot) : (s.setSlot k x).pwr = s.pwr := rfl
@[simp] theorem State.setSlot_cores (k : Nat) (x : KeySlot) : (s.setSlot k x).cores = s.cores := rfl
@[simp] theorem State.setSlot_chnd (k : Nat) (x : KeySlot) : (s.setSlot k x).chnd = s.chnd := rfl
@[simp] theorem State.setSlot_mant (k : Nat) (x : KeySlot) : (s.setSlot k x).mant = s.mant := rfl
@[simp] theorem State.setSlot_lant (k : Nat) (x : KeySlot) : (s.setSlot k x).lant = s.lant := rfl
@[simp] theorem State.setSlot_sec (k : Nat) (x : KeySlot) : (s.setSlot k x).sec = s.sec := rfl
@[simp] theorem State.setSlot_emac (k : Nat) (x : KeySlot) : (s.setSlot k x).emac = s.emac := rfl
@[simp] theorem State.setSlot_mdio (k : Nat) (x : KeySlot) : (s.setSlot k x).mdio = s.mdio := rfl
@[simp] theorem State.setSlot_fwd (k : Nat) (x : KeySlot) : (s.setSlot k x).fwd = s.fwd := rfl
@[simp] theorem State.setSlot_tmgr (k : Nat) (x : KeySlot) : (s.setSlot k x).tmgr = s.tmgr := rfl
@[simp] theorem State.setSlot_harts (k : Nat) (x : KeySlot) : (s.setSlot k x).harts = s.harts := rfl
@[simp] theorem State.setSlot_boot (k : Nat) (x : KeySlot) : (s.setSlot k x).boot = s.boot := rfl
@[simp] theorem State.setSlot_mbx (k : Nat) (x : KeySlot) : (s.setSlot k x).mbx = s.mbx := rfl
@[simp] theorem State.setSlot_calWr (k : Nat) (x : KeySlot) : (s.setSlot k x).calWr = s.calWr := rfl
@[simp] theorem State.setSlot_jrn (k : Nat) (x : KeySlot) : (s.setSlot k x).jrn = s.jrn := rfl
@[simp] theorem State.setSlot_loader (k : Nat) (x : KeySlot) : (s.setSlot k x).loader = s.loader := rfl
@[simp] theorem State.setSlot_clu (k : Nat) (x : KeySlot) : (s.setSlot k x).clu = s.clu := rfl
@[simp] theorem State.setSlot_bg (k : Nat) (x : KeySlot) : (s.setSlot k x).bg = s.bg := rfl

/-! ### State.setEntry -/
@[simp] theorem State.setEntry_pending (k : Nat) (e : SoftEntry) : (s.setEntry k e).pending = s.pending := rfl
@[simp] theorem State.setEntry_clk (k : Nat) (e : SoftEntry) : (s.setEntry k e).clk = s.clk := rfl
@[simp] theorem State.setEntry_relAt (k : Nat) (e : SoftEntry) : (s.setEntry k e).relAt = s.relAt := rfl
@[simp] theorem State.setEntry_freeCtr (k : Nat) (e : SoftEntry) : (s.setEntry k e).freeCtr = s.freeCtr := rfl
@[simp] theorem State.setEntry_regs (k : Nat) (e : SoftEntry) : (s.setEntry k e).regs = s.regs := rfl
@[simp] theorem State.setEntry_latches (k : Nat) (e : SoftEntry) : (s.setEntry k e).latches = s.latches := rfl
@[simp] theorem State.setEntry_resp (k : Nat) (e : SoftEntry) : (s.setEntry k e).resp = s.resp := rfl
@[simp] theorem State.setEntry_mem (k : Nat) (e : SoftEntry) : (s.setEntry k e).mem = s.mem := rfl
@[simp] theorem State.setEntry_nor (k : Nat) (e : SoftEntry) : (s.setEntry k e).nor = s.nor := rfl
@[simp] theorem State.setEntry_board (k : Nat) (e : SoftEntry) : (s.setEntry k e).board = s.board := rfl
@[simp] theorem State.setEntry_ntim (k : Nat) (e : SoftEntry) : (s.setEntry k e).ntim = s.ntim := rfl
@[simp] theorem State.setEntry_pps (k : Nat) (e : SoftEntry) : (s.setEntry k e).pps = s.pps := rfl
@[simp] theorem State.setEntry_tmr (k : Nat) (e : SoftEntry) : (s.setEntry k e).tmr = s.tmr := rfl
@[simp] theorem State.setEntry_lamps (k : Nat) (e : SoftEntry) : (s.setEntry k e).lamps = s.lamps := rfl
@[simp] theorem State.setEntry_pair (k : Nat) (e : SoftEntry) : (s.setEntry k e).pair = s.pair := rfl
@[simp] theorem State.setEntry_lens (k : Nat) (e : SoftEntry) : (s.setEntry k e).lens = s.lens := rfl
@[simp] theorem State.setEntry_dets (k : Nat) (e : SoftEntry) : (s.setEntry k e).dets = s.dets := rfl
@[simp] theorem State.setEntry_ctxs (k : Nat) (e : SoftEntry) : (s.setEntry k e).ctxs = s.ctxs := rfl
@[simp] theorem State.setEntry_rtags (k : Nat) (e : SoftEntry) : (s.setEntry k e).rtags = s.rtags := rfl
@[simp] theorem State.setEntry_rtagCnt (k : Nat) (e : SoftEntry) : (s.setEntry k e).rtagCnt = s.rtagCnt := rfl
@[simp] theorem State.setEntry_rtagBase (k : Nat) (e : SoftEntry) : (s.setEntry k e).rtagBase = s.rtagBase := rfl
@[simp] theorem State.setEntry_irqPend (k : Nat) (e : SoftEntry) : (s.setEntry k e).irqPend = s.irqPend := rfl
@[simp] theorem State.setEntry_irqServed (k : Nat) (e : SoftEntry) : (s.setEntry k e).irqServed = s.irqServed := rfl
@[simp] theorem State.setEntry_pcnt (k : Nat) (e : SoftEntry) : (s.setEntry k e).pcnt = s.pcnt := rfl
@[simp] theorem State.setEntry_pcntShd (k : Nat) (e : SoftEntry) : (s.setEntry k e).pcntShd = s.pcntShd := rfl
@[simp] theorem State.setEntry_pcntFrac (k : Nat) (e : SoftEntry) : (s.setEntry k e).pcntFrac = s.pcntFrac := rfl
@[simp] theorem State.setEntry_dmc (k : Nat) (e : SoftEntry) : (s.setEntry k e).dmc = s.dmc := rfl
@[simp] theorem State.setEntry_pwr (k : Nat) (e : SoftEntry) : (s.setEntry k e).pwr = s.pwr := rfl
@[simp] theorem State.setEntry_cores (k : Nat) (e : SoftEntry) : (s.setEntry k e).cores = s.cores := rfl
@[simp] theorem State.setEntry_chnd (k : Nat) (e : SoftEntry) : (s.setEntry k e).chnd = s.chnd := rfl
@[simp] theorem State.setEntry_lant (k : Nat) (e : SoftEntry) : (s.setEntry k e).lant = s.lant := rfl
@[simp] theorem State.setEntry_ciph (k : Nat) (e : SoftEntry) : (s.setEntry k e).ciph = s.ciph := rfl
@[simp] theorem State.setEntry_sec (k : Nat) (e : SoftEntry) : (s.setEntry k e).sec = s.sec := rfl
@[simp] theorem State.setEntry_emac (k : Nat) (e : SoftEntry) : (s.setEntry k e).emac = s.emac := rfl
@[simp] theorem State.setEntry_mdio (k : Nat) (e : SoftEntry) : (s.setEntry k e).mdio = s.mdio := rfl
@[simp] theorem State.setEntry_fwd (k : Nat) (e : SoftEntry) : (s.setEntry k e).fwd = s.fwd := rfl
@[simp] theorem State.setEntry_tmgr (k : Nat) (e : SoftEntry) : (s.setEntry k e).tmgr = s.tmgr := rfl
@[simp] theorem State.setEntry_harts (k : Nat) (e : SoftEntry) : (s.setEntry k e).harts = s.harts := rfl
@[simp] theorem State.setEntry_boot (k : Nat) (e : SoftEntry) : (s.setEntry k e).boot = s.boot := rfl
@[simp] theorem State.setEntry_mbx (k : Nat) (e : SoftEntry) : (s.setEntry k e).mbx = s.mbx := rfl
@[simp] theorem State.setEntry_calWr (k : Nat) (e : SoftEntry) : (s.setEntry k e).calWr = s.calWr := rfl
@[simp] theorem State.setEntry_jrn (k : Nat) (e : SoftEntry) : (s.setEntry k e).jrn = s.jrn := rfl
@[simp] theorem State.setEntry_loader (k : Nat) (e : SoftEntry) : (s.setEntry k e).loader = s.loader := rfl
@[simp] theorem State.setEntry_clu (k : Nat) (e : SoftEntry) : (s.setEntry k e).clu = s.clu := rfl
@[simp] theorem State.setEntry_bg (k : Nat) (e : SoftEntry) : (s.setEntry k e).bg = s.bg := rfl

/-! ### State.setNbrSet -/
@[simp] theorem State.setNbrSet_pending (k : Nat) (w : List NbrWay) : (s.setNbrSet k w).pending = s.pending := rfl
@[simp] theorem State.setNbrSet_clk (k : Nat) (w : List NbrWay) : (s.setNbrSet k w).clk = s.clk := rfl
@[simp] theorem State.setNbrSet_relAt (k : Nat) (w : List NbrWay) : (s.setNbrSet k w).relAt = s.relAt := rfl
@[simp] theorem State.setNbrSet_freeCtr (k : Nat) (w : List NbrWay) : (s.setNbrSet k w).freeCtr = s.freeCtr := rfl
@[simp] theorem State.setNbrSet_regs (k : Nat) (w : List NbrWay) : (s.setNbrSet k w).regs = s.regs := rfl
@[simp] theorem State.setNbrSet_latches (k : Nat) (w : List NbrWay) : (s.setNbrSet k w).latches = s.latches := rfl
@[simp] theorem State.setNbrSet_resp (k : Nat) (w : List NbrWay) : (s.setNbrSet k w).resp = s.resp := rfl
@[simp] theorem State.setNbrSet_mem (k : Nat) (w : List NbrWay) : (s.setNbrSet k w).mem = s.mem := rfl
@[simp] theorem State.setNbrSet_nor (k : Nat) (w : List NbrWay) : (s.setNbrSet k w).nor = s.nor := rfl
@[simp] theorem State.setNbrSet_board (k : Nat) (w : List NbrWay) : (s.setNbrSet k w).board = s.board := rfl
@[simp] theorem State.setNbrSet_ntim (k : Nat) (w : List NbrWay) : (s.setNbrSet k w).ntim = s.ntim := rfl
@[simp] theorem State.setNbrSet_pps (k : Nat) (w : List NbrWay) : (s.setNbrSet k w).pps = s.pps := rfl
@[simp] theorem State.setNbrSet_tmr (k : Nat) (w : List NbrWay) : (s.setNbrSet k w).tmr = s.tmr := rfl
@[simp] theorem State.setNbrSet_lamps (k : Nat) (w : List NbrWay) : (s.setNbrSet k w).lamps = s.lamps := rfl
@[simp] theorem State.setNbrSet_pair (k : Nat) (w : List NbrWay) : (s.setNbrSet k w).pair = s.pair := rfl
@[simp] theorem State.setNbrSet_lens (k : Nat) (w : List NbrWay) : (s.setNbrSet k w).lens = s.lens := rfl
@[simp] theorem State.setNbrSet_dets (k : Nat) (w : List NbrWay) : (s.setNbrSet k w).dets = s.dets := rfl
@[simp] theorem State.setNbrSet_ctxs (k : Nat) (w : List NbrWay) : (s.setNbrSet k w).ctxs = s.ctxs := rfl
@[simp] theorem State.setNbrSet_rtags (k : Nat) (w : List NbrWay) : (s.setNbrSet k w).rtags = s.rtags := rfl
@[simp] theorem State.setNbrSet_rtagCnt (k : Nat) (w : List NbrWay) : (s.setNbrSet k w).rtagCnt = s.rtagCnt := rfl
@[simp] theorem State.setNbrSet_rtagBase (k : Nat) (w : List NbrWay) : (s.setNbrSet k w).rtagBase = s.rtagBase := rfl
@[simp] theorem State.setNbrSet_irqPend (k : Nat) (w : List NbrWay) : (s.setNbrSet k w).irqPend = s.irqPend := rfl
@[simp] theorem State.setNbrSet_irqServed (k : Nat) (w : List NbrWay) : (s.setNbrSet k w).irqServed = s.irqServed := rfl
@[simp] theorem State.setNbrSet_pcnt (k : Nat) (w : List NbrWay) : (s.setNbrSet k w).pcnt = s.pcnt := rfl
@[simp] theorem State.setNbrSet_pcntShd (k : Nat) (w : List NbrWay) : (s.setNbrSet k w).pcntShd = s.pcntShd := rfl
@[simp] theorem State.setNbrSet_pcntFrac (k : Nat) (w : List NbrWay) : (s.setNbrSet k w).pcntFrac = s.pcntFrac := rfl
@[simp] theorem State.setNbrSet_dmc (k : Nat) (w : List NbrWay) : (s.setNbrSet k w).dmc = s.dmc := rfl
@[simp] theorem State.setNbrSet_pwr (k : Nat) (w : List NbrWay) : (s.setNbrSet k w).pwr = s.pwr := rfl
@[simp] theorem State.setNbrSet_cores (k : Nat) (w : List NbrWay) : (s.setNbrSet k w).cores = s.cores := rfl
@[simp] theorem State.setNbrSet_chnd (k : Nat) (w : List NbrWay) : (s.setNbrSet k w).chnd = s.chnd := rfl
@[simp] theorem State.setNbrSet_mant (k : Nat) (w : List NbrWay) : (s.setNbrSet k w).mant = s.mant := rfl
@[simp] theorem State.setNbrSet_ciph (k : Nat) (w : List NbrWay) : (s.setNbrSet k w).ciph = s.ciph := rfl
@[simp] theorem State.setNbrSet_sec (k : Nat) (w : List NbrWay) : (s.setNbrSet k w).sec = s.sec := rfl
@[simp] theorem State.setNbrSet_emac (k : Nat) (w : List NbrWay) : (s.setNbrSet k w).emac = s.emac := rfl
@[simp] theorem State.setNbrSet_mdio (k : Nat) (w : List NbrWay) : (s.setNbrSet k w).mdio = s.mdio := rfl
@[simp] theorem State.setNbrSet_fwd (k : Nat) (w : List NbrWay) : (s.setNbrSet k w).fwd = s.fwd := rfl
@[simp] theorem State.setNbrSet_tmgr (k : Nat) (w : List NbrWay) : (s.setNbrSet k w).tmgr = s.tmgr := rfl
@[simp] theorem State.setNbrSet_harts (k : Nat) (w : List NbrWay) : (s.setNbrSet k w).harts = s.harts := rfl
@[simp] theorem State.setNbrSet_boot (k : Nat) (w : List NbrWay) : (s.setNbrSet k w).boot = s.boot := rfl
@[simp] theorem State.setNbrSet_mbx (k : Nat) (w : List NbrWay) : (s.setNbrSet k w).mbx = s.mbx := rfl
@[simp] theorem State.setNbrSet_calWr (k : Nat) (w : List NbrWay) : (s.setNbrSet k w).calWr = s.calWr := rfl
@[simp] theorem State.setNbrSet_jrn (k : Nat) (w : List NbrWay) : (s.setNbrSet k w).jrn = s.jrn := rfl
@[simp] theorem State.setNbrSet_loader (k : Nat) (w : List NbrWay) : (s.setNbrSet k w).loader = s.loader := rfl
@[simp] theorem State.setNbrSet_clu (k : Nat) (w : List NbrWay) : (s.setNbrSet k w).clu = s.clu := rfl
@[simp] theorem State.setNbrSet_bg (k : Nat) (w : List NbrWay) : (s.setNbrSet k w).bg = s.bg := rfl

/-! ### State.onEmac -/
@[simp] theorem State.onEmac_pending (p : Nat) (f : Emac → Emac) : (s.onEmac p f).pending = s.pending := rfl
@[simp] theorem State.onEmac_clk (p : Nat) (f : Emac → Emac) : (s.onEmac p f).clk = s.clk := rfl
@[simp] theorem State.onEmac_relAt (p : Nat) (f : Emac → Emac) : (s.onEmac p f).relAt = s.relAt := rfl
@[simp] theorem State.onEmac_freeCtr (p : Nat) (f : Emac → Emac) : (s.onEmac p f).freeCtr = s.freeCtr := rfl
@[simp] theorem State.onEmac_regs (p : Nat) (f : Emac → Emac) : (s.onEmac p f).regs = s.regs := rfl
@[simp] theorem State.onEmac_latches (p : Nat) (f : Emac → Emac) : (s.onEmac p f).latches = s.latches := rfl
@[simp] theorem State.onEmac_resp (p : Nat) (f : Emac → Emac) : (s.onEmac p f).resp = s.resp := rfl
@[simp] theorem State.onEmac_mem (p : Nat) (f : Emac → Emac) : (s.onEmac p f).mem = s.mem := rfl
@[simp] theorem State.onEmac_nor (p : Nat) (f : Emac → Emac) : (s.onEmac p f).nor = s.nor := rfl
@[simp] theorem State.onEmac_board (p : Nat) (f : Emac → Emac) : (s.onEmac p f).board = s.board := rfl
@[simp] theorem State.onEmac_ntim (p : Nat) (f : Emac → Emac) : (s.onEmac p f).ntim = s.ntim := rfl
@[simp] theorem State.onEmac_pps (p : Nat) (f : Emac → Emac) : (s.onEmac p f).pps = s.pps := rfl
@[simp] theorem State.onEmac_tmr (p : Nat) (f : Emac → Emac) : (s.onEmac p f).tmr = s.tmr := rfl
@[simp] theorem State.onEmac_lamps (p : Nat) (f : Emac → Emac) : (s.onEmac p f).lamps = s.lamps := rfl
@[simp] theorem State.onEmac_pair (p : Nat) (f : Emac → Emac) : (s.onEmac p f).pair = s.pair := rfl
@[simp] theorem State.onEmac_lens (p : Nat) (f : Emac → Emac) : (s.onEmac p f).lens = s.lens := rfl
@[simp] theorem State.onEmac_dets (p : Nat) (f : Emac → Emac) : (s.onEmac p f).dets = s.dets := rfl
@[simp] theorem State.onEmac_ctxs (p : Nat) (f : Emac → Emac) : (s.onEmac p f).ctxs = s.ctxs := rfl
@[simp] theorem State.onEmac_rtags (p : Nat) (f : Emac → Emac) : (s.onEmac p f).rtags = s.rtags := rfl
@[simp] theorem State.onEmac_rtagCnt (p : Nat) (f : Emac → Emac) : (s.onEmac p f).rtagCnt = s.rtagCnt := rfl
@[simp] theorem State.onEmac_rtagBase (p : Nat) (f : Emac → Emac) : (s.onEmac p f).rtagBase = s.rtagBase := rfl
@[simp] theorem State.onEmac_irqPend (p : Nat) (f : Emac → Emac) : (s.onEmac p f).irqPend = s.irqPend := rfl
@[simp] theorem State.onEmac_irqServed (p : Nat) (f : Emac → Emac) : (s.onEmac p f).irqServed = s.irqServed := rfl
@[simp] theorem State.onEmac_pcnt (p : Nat) (f : Emac → Emac) : (s.onEmac p f).pcnt = s.pcnt := rfl
@[simp] theorem State.onEmac_pcntShd (p : Nat) (f : Emac → Emac) : (s.onEmac p f).pcntShd = s.pcntShd := rfl
@[simp] theorem State.onEmac_pcntFrac (p : Nat) (f : Emac → Emac) : (s.onEmac p f).pcntFrac = s.pcntFrac := rfl
@[simp] theorem State.onEmac_dmc (p : Nat) (f : Emac → Emac) : (s.onEmac p f).dmc = s.dmc := rfl
@[simp] theorem State.onEmac_pwr (p : Nat) (f : Emac → Emac) : (s.onEmac p f).pwr = s.pwr := rfl
@[simp] theorem State.onEmac_cores (p : Nat) (f : Emac → Emac) : (s.onEmac p f).cores = s.cores := rfl
@[simp] theorem State.onEmac_chnd (p : Nat) (f : Emac → Emac) : (s.onEmac p f).chnd = s.chnd := rfl
@[simp] theorem State.onEmac_mant (p : Nat) (f : Emac → Emac) : (s.onEmac p f).mant = s.mant := rfl
@[simp] theorem State.onEmac_lant (p : Nat) (f : Emac → Emac) : (s.onEmac p f).lant = s.lant := rfl
@[simp] theorem State.onEmac_ciph (p : Nat) (f : Emac → Emac) : (s.onEmac p f).ciph = s.ciph := rfl
@[simp] theorem State.onEmac_sec (p : Nat) (f : Emac → Emac) : (s.onEmac p f).sec = s.sec := rfl
@[simp] theorem State.onEmac_mdio (p : Nat) (f : Emac → Emac) : (s.onEmac p f).mdio = s.mdio := rfl
@[simp] theorem State.onEmac_fwd (p : Nat) (f : Emac → Emac) : (s.onEmac p f).fwd = s.fwd := rfl
@[simp] theorem State.onEmac_tmgr (p : Nat) (f : Emac → Emac) : (s.onEmac p f).tmgr = s.tmgr := rfl
@[simp] theorem State.onEmac_harts (p : Nat) (f : Emac → Emac) : (s.onEmac p f).harts = s.harts := rfl
@[simp] theorem State.onEmac_boot (p : Nat) (f : Emac → Emac) : (s.onEmac p f).boot = s.boot := rfl
@[simp] theorem State.onEmac_mbx (p : Nat) (f : Emac → Emac) : (s.onEmac p f).mbx = s.mbx := rfl
@[simp] theorem State.onEmac_calWr (p : Nat) (f : Emac → Emac) : (s.onEmac p f).calWr = s.calWr := rfl
@[simp] theorem State.onEmac_jrn (p : Nat) (f : Emac → Emac) : (s.onEmac p f).jrn = s.jrn := rfl
@[simp] theorem State.onEmac_loader (p : Nat) (f : Emac → Emac) : (s.onEmac p f).loader = s.loader := rfl
@[simp] theorem State.onEmac_clu (p : Nat) (f : Emac → Emac) : (s.onEmac p f).clu = s.clu := rfl
@[simp] theorem State.onEmac_bg (p : Nat) (f : Emac → Emac) : (s.onEmac p f).bg = s.bg := rfl

/-! ### State.setQueue -/
@[simp] theorem State.setQueue_pending (i : Nat) (l : List TxFrame) : (s.setQueue i l).pending = s.pending := rfl
@[simp] theorem State.setQueue_clk (i : Nat) (l : List TxFrame) : (s.setQueue i l).clk = s.clk := rfl
@[simp] theorem State.setQueue_relAt (i : Nat) (l : List TxFrame) : (s.setQueue i l).relAt = s.relAt := rfl
@[simp] theorem State.setQueue_freeCtr (i : Nat) (l : List TxFrame) : (s.setQueue i l).freeCtr = s.freeCtr := rfl
@[simp] theorem State.setQueue_regs (i : Nat) (l : List TxFrame) : (s.setQueue i l).regs = s.regs := rfl
@[simp] theorem State.setQueue_latches (i : Nat) (l : List TxFrame) : (s.setQueue i l).latches = s.latches := rfl
@[simp] theorem State.setQueue_resp (i : Nat) (l : List TxFrame) : (s.setQueue i l).resp = s.resp := rfl
@[simp] theorem State.setQueue_mem (i : Nat) (l : List TxFrame) : (s.setQueue i l).mem = s.mem := rfl
@[simp] theorem State.setQueue_nor (i : Nat) (l : List TxFrame) : (s.setQueue i l).nor = s.nor := rfl
@[simp] theorem State.setQueue_board (i : Nat) (l : List TxFrame) : (s.setQueue i l).board = s.board := rfl
@[simp] theorem State.setQueue_ntim (i : Nat) (l : List TxFrame) : (s.setQueue i l).ntim = s.ntim := rfl
@[simp] theorem State.setQueue_pps (i : Nat) (l : List TxFrame) : (s.setQueue i l).pps = s.pps := rfl
@[simp] theorem State.setQueue_tmr (i : Nat) (l : List TxFrame) : (s.setQueue i l).tmr = s.tmr := rfl
@[simp] theorem State.setQueue_lamps (i : Nat) (l : List TxFrame) : (s.setQueue i l).lamps = s.lamps := rfl
@[simp] theorem State.setQueue_pair (i : Nat) (l : List TxFrame) : (s.setQueue i l).pair = s.pair := rfl
@[simp] theorem State.setQueue_lens (i : Nat) (l : List TxFrame) : (s.setQueue i l).lens = s.lens := rfl
@[simp] theorem State.setQueue_dets (i : Nat) (l : List TxFrame) : (s.setQueue i l).dets = s.dets := rfl
@[simp] theorem State.setQueue_ctxs (i : Nat) (l : List TxFrame) : (s.setQueue i l).ctxs = s.ctxs := rfl
@[simp] theorem State.setQueue_rtags (i : Nat) (l : List TxFrame) : (s.setQueue i l).rtags = s.rtags := rfl
@[simp] theorem State.setQueue_rtagCnt (i : Nat) (l : List TxFrame) : (s.setQueue i l).rtagCnt = s.rtagCnt := rfl
@[simp] theorem State.setQueue_rtagBase (i : Nat) (l : List TxFrame) : (s.setQueue i l).rtagBase = s.rtagBase := rfl
@[simp] theorem State.setQueue_irqPend (i : Nat) (l : List TxFrame) : (s.setQueue i l).irqPend = s.irqPend := rfl
@[simp] theorem State.setQueue_irqServed (i : Nat) (l : List TxFrame) : (s.setQueue i l).irqServed = s.irqServed := rfl
@[simp] theorem State.setQueue_pcnt (i : Nat) (l : List TxFrame) : (s.setQueue i l).pcnt = s.pcnt := rfl
@[simp] theorem State.setQueue_pcntShd (i : Nat) (l : List TxFrame) : (s.setQueue i l).pcntShd = s.pcntShd := rfl
@[simp] theorem State.setQueue_pcntFrac (i : Nat) (l : List TxFrame) : (s.setQueue i l).pcntFrac = s.pcntFrac := rfl
@[simp] theorem State.setQueue_dmc (i : Nat) (l : List TxFrame) : (s.setQueue i l).dmc = s.dmc := rfl
@[simp] theorem State.setQueue_pwr (i : Nat) (l : List TxFrame) : (s.setQueue i l).pwr = s.pwr := rfl
@[simp] theorem State.setQueue_cores (i : Nat) (l : List TxFrame) : (s.setQueue i l).cores = s.cores := rfl
@[simp] theorem State.setQueue_chnd (i : Nat) (l : List TxFrame) : (s.setQueue i l).chnd = s.chnd := rfl
@[simp] theorem State.setQueue_mant (i : Nat) (l : List TxFrame) : (s.setQueue i l).mant = s.mant := rfl
@[simp] theorem State.setQueue_lant (i : Nat) (l : List TxFrame) : (s.setQueue i l).lant = s.lant := rfl
@[simp] theorem State.setQueue_ciph (i : Nat) (l : List TxFrame) : (s.setQueue i l).ciph = s.ciph := rfl
@[simp] theorem State.setQueue_sec (i : Nat) (l : List TxFrame) : (s.setQueue i l).sec = s.sec := rfl
@[simp] theorem State.setQueue_emac (i : Nat) (l : List TxFrame) : (s.setQueue i l).emac = s.emac := rfl
@[simp] theorem State.setQueue_mdio (i : Nat) (l : List TxFrame) : (s.setQueue i l).mdio = s.mdio := rfl
@[simp] theorem State.setQueue_fwd (i : Nat) (l : List TxFrame) : (s.setQueue i l).fwd = s.fwd := rfl
@[simp] theorem State.setQueue_harts (i : Nat) (l : List TxFrame) : (s.setQueue i l).harts = s.harts := rfl
@[simp] theorem State.setQueue_boot (i : Nat) (l : List TxFrame) : (s.setQueue i l).boot = s.boot := rfl
@[simp] theorem State.setQueue_mbx (i : Nat) (l : List TxFrame) : (s.setQueue i l).mbx = s.mbx := rfl
@[simp] theorem State.setQueue_calWr (i : Nat) (l : List TxFrame) : (s.setQueue i l).calWr = s.calWr := rfl
@[simp] theorem State.setQueue_jrn (i : Nat) (l : List TxFrame) : (s.setQueue i l).jrn = s.jrn := rfl
@[simp] theorem State.setQueue_loader (i : Nat) (l : List TxFrame) : (s.setQueue i l).loader = s.loader := rfl
@[simp] theorem State.setQueue_clu (i : Nat) (l : List TxFrame) : (s.setQueue i l).clu = s.clu := rfl
@[simp] theorem State.setQueue_bg (i : Nat) (l : List TxFrame) : (s.setQueue i l).bg = s.bg := rfl

/-! ### State.setGcl -/
@[simp] theorem State.setGcl_pending (p : Nat) (g : Gcl) : (s.setGcl p g).pending = s.pending := rfl
@[simp] theorem State.setGcl_clk (p : Nat) (g : Gcl) : (s.setGcl p g).clk = s.clk := rfl
@[simp] theorem State.setGcl_relAt (p : Nat) (g : Gcl) : (s.setGcl p g).relAt = s.relAt := rfl
@[simp] theorem State.setGcl_freeCtr (p : Nat) (g : Gcl) : (s.setGcl p g).freeCtr = s.freeCtr := rfl
@[simp] theorem State.setGcl_regs (p : Nat) (g : Gcl) : (s.setGcl p g).regs = s.regs := rfl
@[simp] theorem State.setGcl_latches (p : Nat) (g : Gcl) : (s.setGcl p g).latches = s.latches := rfl
@[simp] theorem State.setGcl_resp (p : Nat) (g : Gcl) : (s.setGcl p g).resp = s.resp := rfl
@[simp] theorem State.setGcl_mem (p : Nat) (g : Gcl) : (s.setGcl p g).mem = s.mem := rfl
@[simp] theorem State.setGcl_nor (p : Nat) (g : Gcl) : (s.setGcl p g).nor = s.nor := rfl
@[simp] theorem State.setGcl_board (p : Nat) (g : Gcl) : (s.setGcl p g).board = s.board := rfl
@[simp] theorem State.setGcl_ntim (p : Nat) (g : Gcl) : (s.setGcl p g).ntim = s.ntim := rfl
@[simp] theorem State.setGcl_pps (p : Nat) (g : Gcl) : (s.setGcl p g).pps = s.pps := rfl
@[simp] theorem State.setGcl_tmr (p : Nat) (g : Gcl) : (s.setGcl p g).tmr = s.tmr := rfl
@[simp] theorem State.setGcl_lamps (p : Nat) (g : Gcl) : (s.setGcl p g).lamps = s.lamps := rfl
@[simp] theorem State.setGcl_pair (p : Nat) (g : Gcl) : (s.setGcl p g).pair = s.pair := rfl
@[simp] theorem State.setGcl_lens (p : Nat) (g : Gcl) : (s.setGcl p g).lens = s.lens := rfl
@[simp] theorem State.setGcl_dets (p : Nat) (g : Gcl) : (s.setGcl p g).dets = s.dets := rfl
@[simp] theorem State.setGcl_ctxs (p : Nat) (g : Gcl) : (s.setGcl p g).ctxs = s.ctxs := rfl
@[simp] theorem State.setGcl_rtags (p : Nat) (g : Gcl) : (s.setGcl p g).rtags = s.rtags := rfl
@[simp] theorem State.setGcl_rtagCnt (p : Nat) (g : Gcl) : (s.setGcl p g).rtagCnt = s.rtagCnt := rfl
@[simp] theorem State.setGcl_rtagBase (p : Nat) (g : Gcl) : (s.setGcl p g).rtagBase = s.rtagBase := rfl
@[simp] theorem State.setGcl_irqPend (p : Nat) (g : Gcl) : (s.setGcl p g).irqPend = s.irqPend := rfl
@[simp] theorem State.setGcl_irqServed (p : Nat) (g : Gcl) : (s.setGcl p g).irqServed = s.irqServed := rfl
@[simp] theorem State.setGcl_pcnt (p : Nat) (g : Gcl) : (s.setGcl p g).pcnt = s.pcnt := rfl
@[simp] theorem State.setGcl_pcntShd (p : Nat) (g : Gcl) : (s.setGcl p g).pcntShd = s.pcntShd := rfl
@[simp] theorem State.setGcl_pcntFrac (p : Nat) (g : Gcl) : (s.setGcl p g).pcntFrac = s.pcntFrac := rfl
@[simp] theorem State.setGcl_dmc (p : Nat) (g : Gcl) : (s.setGcl p g).dmc = s.dmc := rfl
@[simp] theorem State.setGcl_pwr (p : Nat) (g : Gcl) : (s.setGcl p g).pwr = s.pwr := rfl
@[simp] theorem State.setGcl_cores (p : Nat) (g : Gcl) : (s.setGcl p g).cores = s.cores := rfl
@[simp] theorem State.setGcl_chnd (p : Nat) (g : Gcl) : (s.setGcl p g).chnd = s.chnd := rfl
@[simp] theorem State.setGcl_mant (p : Nat) (g : Gcl) : (s.setGcl p g).mant = s.mant := rfl
@[simp] theorem State.setGcl_lant (p : Nat) (g : Gcl) : (s.setGcl p g).lant = s.lant := rfl
@[simp] theorem State.setGcl_ciph (p : Nat) (g : Gcl) : (s.setGcl p g).ciph = s.ciph := rfl
@[simp] theorem State.setGcl_sec (p : Nat) (g : Gcl) : (s.setGcl p g).sec = s.sec := rfl
@[simp] theorem State.setGcl_emac (p : Nat) (g : Gcl) : (s.setGcl p g).emac = s.emac := rfl
@[simp] theorem State.setGcl_mdio (p : Nat) (g : Gcl) : (s.setGcl p g).mdio = s.mdio := rfl
@[simp] theorem State.setGcl_fwd (p : Nat) (g : Gcl) : (s.setGcl p g).fwd = s.fwd := rfl
@[simp] theorem State.setGcl_harts (p : Nat) (g : Gcl) : (s.setGcl p g).harts = s.harts := rfl
@[simp] theorem State.setGcl_boot (p : Nat) (g : Gcl) : (s.setGcl p g).boot = s.boot := rfl
@[simp] theorem State.setGcl_mbx (p : Nat) (g : Gcl) : (s.setGcl p g).mbx = s.mbx := rfl
@[simp] theorem State.setGcl_calWr (p : Nat) (g : Gcl) : (s.setGcl p g).calWr = s.calWr := rfl
@[simp] theorem State.setGcl_jrn (p : Nat) (g : Gcl) : (s.setGcl p g).jrn = s.jrn := rfl
@[simp] theorem State.setGcl_loader (p : Nat) (g : Gcl) : (s.setGcl p g).loader = s.loader := rfl
@[simp] theorem State.setGcl_clu (p : Nat) (g : Gcl) : (s.setGcl p g).clu = s.clu := rfl
@[simp] theorem State.setGcl_bg (p : Nat) (g : Gcl) : (s.setGcl p g).bg = s.bg := rfl

/-! ### State.onBoard -/
@[simp] theorem State.onBoard_pending (f : Board → Board) : (s.onBoard f).pending = s.pending := rfl
@[simp] theorem State.onBoard_clk (f : Board → Board) : (s.onBoard f).clk = s.clk := rfl
@[simp] theorem State.onBoard_relAt (f : Board → Board) : (s.onBoard f).relAt = s.relAt := rfl
@[simp] theorem State.onBoard_freeCtr (f : Board → Board) : (s.onBoard f).freeCtr = s.freeCtr := rfl
@[simp] theorem State.onBoard_regs (f : Board → Board) : (s.onBoard f).regs = s.regs := rfl
@[simp] theorem State.onBoard_latches (f : Board → Board) : (s.onBoard f).latches = s.latches := rfl
@[simp] theorem State.onBoard_resp (f : Board → Board) : (s.onBoard f).resp = s.resp := rfl
@[simp] theorem State.onBoard_mem (f : Board → Board) : (s.onBoard f).mem = s.mem := rfl
@[simp] theorem State.onBoard_nor (f : Board → Board) : (s.onBoard f).nor = s.nor := rfl
@[simp] theorem State.onBoard_ntim (f : Board → Board) : (s.onBoard f).ntim = s.ntim := rfl
@[simp] theorem State.onBoard_pps (f : Board → Board) : (s.onBoard f).pps = s.pps := rfl
@[simp] theorem State.onBoard_tmr (f : Board → Board) : (s.onBoard f).tmr = s.tmr := rfl
@[simp] theorem State.onBoard_lamps (f : Board → Board) : (s.onBoard f).lamps = s.lamps := rfl
@[simp] theorem State.onBoard_pair (f : Board → Board) : (s.onBoard f).pair = s.pair := rfl
@[simp] theorem State.onBoard_lens (f : Board → Board) : (s.onBoard f).lens = s.lens := rfl
@[simp] theorem State.onBoard_dets (f : Board → Board) : (s.onBoard f).dets = s.dets := rfl
@[simp] theorem State.onBoard_ctxs (f : Board → Board) : (s.onBoard f).ctxs = s.ctxs := rfl
@[simp] theorem State.onBoard_rtags (f : Board → Board) : (s.onBoard f).rtags = s.rtags := rfl
@[simp] theorem State.onBoard_rtagCnt (f : Board → Board) : (s.onBoard f).rtagCnt = s.rtagCnt := rfl
@[simp] theorem State.onBoard_rtagBase (f : Board → Board) : (s.onBoard f).rtagBase = s.rtagBase := rfl
@[simp] theorem State.onBoard_irqPend (f : Board → Board) : (s.onBoard f).irqPend = s.irqPend := rfl
@[simp] theorem State.onBoard_irqServed (f : Board → Board) : (s.onBoard f).irqServed = s.irqServed := rfl
@[simp] theorem State.onBoard_pcnt (f : Board → Board) : (s.onBoard f).pcnt = s.pcnt := rfl
@[simp] theorem State.onBoard_pcntShd (f : Board → Board) : (s.onBoard f).pcntShd = s.pcntShd := rfl
@[simp] theorem State.onBoard_pcntFrac (f : Board → Board) : (s.onBoard f).pcntFrac = s.pcntFrac := rfl
@[simp] theorem State.onBoard_dmc (f : Board → Board) : (s.onBoard f).dmc = s.dmc := rfl
@[simp] theorem State.onBoard_pwr (f : Board → Board) : (s.onBoard f).pwr = s.pwr := rfl
@[simp] theorem State.onBoard_cores (f : Board → Board) : (s.onBoard f).cores = s.cores := rfl
@[simp] theorem State.onBoard_chnd (f : Board → Board) : (s.onBoard f).chnd = s.chnd := rfl
@[simp] theorem State.onBoard_mant (f : Board → Board) : (s.onBoard f).mant = s.mant := rfl
@[simp] theorem State.onBoard_lant (f : Board → Board) : (s.onBoard f).lant = s.lant := rfl
@[simp] theorem State.onBoard_ciph (f : Board → Board) : (s.onBoard f).ciph = s.ciph := rfl
@[simp] theorem State.onBoard_sec (f : Board → Board) : (s.onBoard f).sec = s.sec := rfl
@[simp] theorem State.onBoard_emac (f : Board → Board) : (s.onBoard f).emac = s.emac := rfl
@[simp] theorem State.onBoard_mdio (f : Board → Board) : (s.onBoard f).mdio = s.mdio := rfl
@[simp] theorem State.onBoard_fwd (f : Board → Board) : (s.onBoard f).fwd = s.fwd := rfl
@[simp] theorem State.onBoard_tmgr (f : Board → Board) : (s.onBoard f).tmgr = s.tmgr := rfl
@[simp] theorem State.onBoard_harts (f : Board → Board) : (s.onBoard f).harts = s.harts := rfl
@[simp] theorem State.onBoard_boot (f : Board → Board) : (s.onBoard f).boot = s.boot := rfl
@[simp] theorem State.onBoard_mbx (f : Board → Board) : (s.onBoard f).mbx = s.mbx := rfl
@[simp] theorem State.onBoard_calWr (f : Board → Board) : (s.onBoard f).calWr = s.calWr := rfl
@[simp] theorem State.onBoard_jrn (f : Board → Board) : (s.onBoard f).jrn = s.jrn := rfl
@[simp] theorem State.onBoard_loader (f : Board → Board) : (s.onBoard f).loader = s.loader := rfl
@[simp] theorem State.onBoard_clu (f : Board → Board) : (s.onBoard f).clu = s.clu := rfl
@[simp] theorem State.onBoard_bg (f : Board → Board) : (s.onBoard f).bg = s.bg := rfl

/-! ### State.onPwr -/
@[simp] theorem State.onPwr_pending (f : Pwr → Pwr) : (s.onPwr f).pending = s.pending := rfl
@[simp] theorem State.onPwr_clk (f : Pwr → Pwr) : (s.onPwr f).clk = s.clk := rfl
@[simp] theorem State.onPwr_relAt (f : Pwr → Pwr) : (s.onPwr f).relAt = s.relAt := rfl
@[simp] theorem State.onPwr_freeCtr (f : Pwr → Pwr) : (s.onPwr f).freeCtr = s.freeCtr := rfl
@[simp] theorem State.onPwr_regs (f : Pwr → Pwr) : (s.onPwr f).regs = s.regs := rfl
@[simp] theorem State.onPwr_latches (f : Pwr → Pwr) : (s.onPwr f).latches = s.latches := rfl
@[simp] theorem State.onPwr_resp (f : Pwr → Pwr) : (s.onPwr f).resp = s.resp := rfl
@[simp] theorem State.onPwr_mem (f : Pwr → Pwr) : (s.onPwr f).mem = s.mem := rfl
@[simp] theorem State.onPwr_nor (f : Pwr → Pwr) : (s.onPwr f).nor = s.nor := rfl
@[simp] theorem State.onPwr_board (f : Pwr → Pwr) : (s.onPwr f).board = s.board := rfl
@[simp] theorem State.onPwr_ntim (f : Pwr → Pwr) : (s.onPwr f).ntim = s.ntim := rfl
@[simp] theorem State.onPwr_pps (f : Pwr → Pwr) : (s.onPwr f).pps = s.pps := rfl
@[simp] theorem State.onPwr_tmr (f : Pwr → Pwr) : (s.onPwr f).tmr = s.tmr := rfl
@[simp] theorem State.onPwr_lamps (f : Pwr → Pwr) : (s.onPwr f).lamps = s.lamps := rfl
@[simp] theorem State.onPwr_pair (f : Pwr → Pwr) : (s.onPwr f).pair = s.pair := rfl
@[simp] theorem State.onPwr_lens (f : Pwr → Pwr) : (s.onPwr f).lens = s.lens := rfl
@[simp] theorem State.onPwr_dets (f : Pwr → Pwr) : (s.onPwr f).dets = s.dets := rfl
@[simp] theorem State.onPwr_ctxs (f : Pwr → Pwr) : (s.onPwr f).ctxs = s.ctxs := rfl
@[simp] theorem State.onPwr_rtags (f : Pwr → Pwr) : (s.onPwr f).rtags = s.rtags := rfl
@[simp] theorem State.onPwr_rtagCnt (f : Pwr → Pwr) : (s.onPwr f).rtagCnt = s.rtagCnt := rfl
@[simp] theorem State.onPwr_rtagBase (f : Pwr → Pwr) : (s.onPwr f).rtagBase = s.rtagBase := rfl
@[simp] theorem State.onPwr_irqPend (f : Pwr → Pwr) : (s.onPwr f).irqPend = s.irqPend := rfl
@[simp] theorem State.onPwr_irqServed (f : Pwr → Pwr) : (s.onPwr f).irqServed = s.irqServed := rfl
@[simp] theorem State.onPwr_pcnt (f : Pwr → Pwr) : (s.onPwr f).pcnt = s.pcnt := rfl
@[simp] theorem State.onPwr_pcntShd (f : Pwr → Pwr) : (s.onPwr f).pcntShd = s.pcntShd := rfl
@[simp] theorem State.onPwr_pcntFrac (f : Pwr → Pwr) : (s.onPwr f).pcntFrac = s.pcntFrac := rfl
@[simp] theorem State.onPwr_dmc (f : Pwr → Pwr) : (s.onPwr f).dmc = s.dmc := rfl
@[simp] theorem State.onPwr_cores (f : Pwr → Pwr) : (s.onPwr f).cores = s.cores := rfl
@[simp] theorem State.onPwr_chnd (f : Pwr → Pwr) : (s.onPwr f).chnd = s.chnd := rfl
@[simp] theorem State.onPwr_mant (f : Pwr → Pwr) : (s.onPwr f).mant = s.mant := rfl
@[simp] theorem State.onPwr_lant (f : Pwr → Pwr) : (s.onPwr f).lant = s.lant := rfl
@[simp] theorem State.onPwr_ciph (f : Pwr → Pwr) : (s.onPwr f).ciph = s.ciph := rfl
@[simp] theorem State.onPwr_sec (f : Pwr → Pwr) : (s.onPwr f).sec = s.sec := rfl
@[simp] theorem State.onPwr_emac (f : Pwr → Pwr) : (s.onPwr f).emac = s.emac := rfl
@[simp] theorem State.onPwr_mdio (f : Pwr → Pwr) : (s.onPwr f).mdio = s.mdio := rfl
@[simp] theorem State.onPwr_fwd (f : Pwr → Pwr) : (s.onPwr f).fwd = s.fwd := rfl
@[simp] theorem State.onPwr_tmgr (f : Pwr → Pwr) : (s.onPwr f).tmgr = s.tmgr := rfl
@[simp] theorem State.onPwr_harts (f : Pwr → Pwr) : (s.onPwr f).harts = s.harts := rfl
@[simp] theorem State.onPwr_boot (f : Pwr → Pwr) : (s.onPwr f).boot = s.boot := rfl
@[simp] theorem State.onPwr_mbx (f : Pwr → Pwr) : (s.onPwr f).mbx = s.mbx := rfl
@[simp] theorem State.onPwr_calWr (f : Pwr → Pwr) : (s.onPwr f).calWr = s.calWr := rfl
@[simp] theorem State.onPwr_jrn (f : Pwr → Pwr) : (s.onPwr f).jrn = s.jrn := rfl
@[simp] theorem State.onPwr_loader (f : Pwr → Pwr) : (s.onPwr f).loader = s.loader := rfl
@[simp] theorem State.onPwr_clu (f : Pwr → Pwr) : (s.onPwr f).clu = s.clu := rfl
@[simp] theorem State.onPwr_bg (f : Pwr → Pwr) : (s.onPwr f).bg = s.bg := rfl

/-! ### State.onFwd -/
@[simp] theorem State.onFwd_pending (f : Fwd → Fwd) : (s.onFwd f).pending = s.pending := rfl
@[simp] theorem State.onFwd_clk (f : Fwd → Fwd) : (s.onFwd f).clk = s.clk := rfl
@[simp] theorem State.onFwd_relAt (f : Fwd → Fwd) : (s.onFwd f).relAt = s.relAt := rfl
@[simp] theorem State.onFwd_freeCtr (f : Fwd → Fwd) : (s.onFwd f).freeCtr = s.freeCtr := rfl
@[simp] theorem State.onFwd_regs (f : Fwd → Fwd) : (s.onFwd f).regs = s.regs := rfl
@[simp] theorem State.onFwd_latches (f : Fwd → Fwd) : (s.onFwd f).latches = s.latches := rfl
@[simp] theorem State.onFwd_resp (f : Fwd → Fwd) : (s.onFwd f).resp = s.resp := rfl
@[simp] theorem State.onFwd_mem (f : Fwd → Fwd) : (s.onFwd f).mem = s.mem := rfl
@[simp] theorem State.onFwd_nor (f : Fwd → Fwd) : (s.onFwd f).nor = s.nor := rfl
@[simp] theorem State.onFwd_board (f : Fwd → Fwd) : (s.onFwd f).board = s.board := rfl
@[simp] theorem State.onFwd_ntim (f : Fwd → Fwd) : (s.onFwd f).ntim = s.ntim := rfl
@[simp] theorem State.onFwd_pps (f : Fwd → Fwd) : (s.onFwd f).pps = s.pps := rfl
@[simp] theorem State.onFwd_tmr (f : Fwd → Fwd) : (s.onFwd f).tmr = s.tmr := rfl
@[simp] theorem State.onFwd_lamps (f : Fwd → Fwd) : (s.onFwd f).lamps = s.lamps := rfl
@[simp] theorem State.onFwd_pair (f : Fwd → Fwd) : (s.onFwd f).pair = s.pair := rfl
@[simp] theorem State.onFwd_lens (f : Fwd → Fwd) : (s.onFwd f).lens = s.lens := rfl
@[simp] theorem State.onFwd_dets (f : Fwd → Fwd) : (s.onFwd f).dets = s.dets := rfl
@[simp] theorem State.onFwd_ctxs (f : Fwd → Fwd) : (s.onFwd f).ctxs = s.ctxs := rfl
@[simp] theorem State.onFwd_rtags (f : Fwd → Fwd) : (s.onFwd f).rtags = s.rtags := rfl
@[simp] theorem State.onFwd_rtagCnt (f : Fwd → Fwd) : (s.onFwd f).rtagCnt = s.rtagCnt := rfl
@[simp] theorem State.onFwd_rtagBase (f : Fwd → Fwd) : (s.onFwd f).rtagBase = s.rtagBase := rfl
@[simp] theorem State.onFwd_irqPend (f : Fwd → Fwd) : (s.onFwd f).irqPend = s.irqPend := rfl
@[simp] theorem State.onFwd_irqServed (f : Fwd → Fwd) : (s.onFwd f).irqServed = s.irqServed := rfl
@[simp] theorem State.onFwd_pcnt (f : Fwd → Fwd) : (s.onFwd f).pcnt = s.pcnt := rfl
@[simp] theorem State.onFwd_pcntShd (f : Fwd → Fwd) : (s.onFwd f).pcntShd = s.pcntShd := rfl
@[simp] theorem State.onFwd_pcntFrac (f : Fwd → Fwd) : (s.onFwd f).pcntFrac = s.pcntFrac := rfl
@[simp] theorem State.onFwd_dmc (f : Fwd → Fwd) : (s.onFwd f).dmc = s.dmc := rfl
@[simp] theorem State.onFwd_pwr (f : Fwd → Fwd) : (s.onFwd f).pwr = s.pwr := rfl
@[simp] theorem State.onFwd_cores (f : Fwd → Fwd) : (s.onFwd f).cores = s.cores := rfl
@[simp] theorem State.onFwd_chnd (f : Fwd → Fwd) : (s.onFwd f).chnd = s.chnd := rfl
@[simp] theorem State.onFwd_mant (f : Fwd → Fwd) : (s.onFwd f).mant = s.mant := rfl
@[simp] theorem State.onFwd_lant (f : Fwd → Fwd) : (s.onFwd f).lant = s.lant := rfl
@[simp] theorem State.onFwd_ciph (f : Fwd → Fwd) : (s.onFwd f).ciph = s.ciph := rfl
@[simp] theorem State.onFwd_sec (f : Fwd → Fwd) : (s.onFwd f).sec = s.sec := rfl
@[simp] theorem State.onFwd_emac (f : Fwd → Fwd) : (s.onFwd f).emac = s.emac := rfl
@[simp] theorem State.onFwd_mdio (f : Fwd → Fwd) : (s.onFwd f).mdio = s.mdio := rfl
@[simp] theorem State.onFwd_tmgr (f : Fwd → Fwd) : (s.onFwd f).tmgr = s.tmgr := rfl
@[simp] theorem State.onFwd_harts (f : Fwd → Fwd) : (s.onFwd f).harts = s.harts := rfl
@[simp] theorem State.onFwd_boot (f : Fwd → Fwd) : (s.onFwd f).boot = s.boot := rfl
@[simp] theorem State.onFwd_mbx (f : Fwd → Fwd) : (s.onFwd f).mbx = s.mbx := rfl
@[simp] theorem State.onFwd_calWr (f : Fwd → Fwd) : (s.onFwd f).calWr = s.calWr := rfl
@[simp] theorem State.onFwd_jrn (f : Fwd → Fwd) : (s.onFwd f).jrn = s.jrn := rfl
@[simp] theorem State.onFwd_loader (f : Fwd → Fwd) : (s.onFwd f).loader = s.loader := rfl
@[simp] theorem State.onFwd_clu (f : Fwd → Fwd) : (s.onFwd f).clu = s.clu := rfl
@[simp] theorem State.onFwd_bg (f : Fwd → Fwd) : (s.onFwd f).bg = s.bg := rfl

/-! ### State.onMbx -/
@[simp] theorem State.onMbx_pending (f : Mbx → Mbx) : (s.onMbx f).pending = s.pending := rfl
@[simp] theorem State.onMbx_clk (f : Mbx → Mbx) : (s.onMbx f).clk = s.clk := rfl
@[simp] theorem State.onMbx_relAt (f : Mbx → Mbx) : (s.onMbx f).relAt = s.relAt := rfl
@[simp] theorem State.onMbx_freeCtr (f : Mbx → Mbx) : (s.onMbx f).freeCtr = s.freeCtr := rfl
@[simp] theorem State.onMbx_regs (f : Mbx → Mbx) : (s.onMbx f).regs = s.regs := rfl
@[simp] theorem State.onMbx_latches (f : Mbx → Mbx) : (s.onMbx f).latches = s.latches := rfl
@[simp] theorem State.onMbx_resp (f : Mbx → Mbx) : (s.onMbx f).resp = s.resp := rfl
@[simp] theorem State.onMbx_mem (f : Mbx → Mbx) : (s.onMbx f).mem = s.mem := rfl
@[simp] theorem State.onMbx_nor (f : Mbx → Mbx) : (s.onMbx f).nor = s.nor := rfl
@[simp] theorem State.onMbx_board (f : Mbx → Mbx) : (s.onMbx f).board = s.board := rfl
@[simp] theorem State.onMbx_ntim (f : Mbx → Mbx) : (s.onMbx f).ntim = s.ntim := rfl
@[simp] theorem State.onMbx_pps (f : Mbx → Mbx) : (s.onMbx f).pps = s.pps := rfl
@[simp] theorem State.onMbx_tmr (f : Mbx → Mbx) : (s.onMbx f).tmr = s.tmr := rfl
@[simp] theorem State.onMbx_lamps (f : Mbx → Mbx) : (s.onMbx f).lamps = s.lamps := rfl
@[simp] theorem State.onMbx_pair (f : Mbx → Mbx) : (s.onMbx f).pair = s.pair := rfl
@[simp] theorem State.onMbx_lens (f : Mbx → Mbx) : (s.onMbx f).lens = s.lens := rfl
@[simp] theorem State.onMbx_dets (f : Mbx → Mbx) : (s.onMbx f).dets = s.dets := rfl
@[simp] theorem State.onMbx_ctxs (f : Mbx → Mbx) : (s.onMbx f).ctxs = s.ctxs := rfl
@[simp] theorem State.onMbx_rtags (f : Mbx → Mbx) : (s.onMbx f).rtags = s.rtags := rfl
@[simp] theorem State.onMbx_rtagCnt (f : Mbx → Mbx) : (s.onMbx f).rtagCnt = s.rtagCnt := rfl
@[simp] theorem State.onMbx_rtagBase (f : Mbx → Mbx) : (s.onMbx f).rtagBase = s.rtagBase := rfl
@[simp] theorem State.onMbx_irqPend (f : Mbx → Mbx) : (s.onMbx f).irqPend = s.irqPend := rfl
@[simp] theorem State.onMbx_irqServed (f : Mbx → Mbx) : (s.onMbx f).irqServed = s.irqServed := rfl
@[simp] theorem State.onMbx_pcnt (f : Mbx → Mbx) : (s.onMbx f).pcnt = s.pcnt := rfl
@[simp] theorem State.onMbx_pcntShd (f : Mbx → Mbx) : (s.onMbx f).pcntShd = s.pcntShd := rfl
@[simp] theorem State.onMbx_pcntFrac (f : Mbx → Mbx) : (s.onMbx f).pcntFrac = s.pcntFrac := rfl
@[simp] theorem State.onMbx_dmc (f : Mbx → Mbx) : (s.onMbx f).dmc = s.dmc := rfl
@[simp] theorem State.onMbx_pwr (f : Mbx → Mbx) : (s.onMbx f).pwr = s.pwr := rfl
@[simp] theorem State.onMbx_cores (f : Mbx → Mbx) : (s.onMbx f).cores = s.cores := rfl
@[simp] theorem State.onMbx_chnd (f : Mbx → Mbx) : (s.onMbx f).chnd = s.chnd := rfl
@[simp] theorem State.onMbx_mant (f : Mbx → Mbx) : (s.onMbx f).mant = s.mant := rfl
@[simp] theorem State.onMbx_lant (f : Mbx → Mbx) : (s.onMbx f).lant = s.lant := rfl
@[simp] theorem State.onMbx_ciph (f : Mbx → Mbx) : (s.onMbx f).ciph = s.ciph := rfl
@[simp] theorem State.onMbx_sec (f : Mbx → Mbx) : (s.onMbx f).sec = s.sec := rfl
@[simp] theorem State.onMbx_emac (f : Mbx → Mbx) : (s.onMbx f).emac = s.emac := rfl
@[simp] theorem State.onMbx_mdio (f : Mbx → Mbx) : (s.onMbx f).mdio = s.mdio := rfl
@[simp] theorem State.onMbx_fwd (f : Mbx → Mbx) : (s.onMbx f).fwd = s.fwd := rfl
@[simp] theorem State.onMbx_tmgr (f : Mbx → Mbx) : (s.onMbx f).tmgr = s.tmgr := rfl
@[simp] theorem State.onMbx_harts (f : Mbx → Mbx) : (s.onMbx f).harts = s.harts := rfl
@[simp] theorem State.onMbx_boot (f : Mbx → Mbx) : (s.onMbx f).boot = s.boot := rfl
@[simp] theorem State.onMbx_calWr (f : Mbx → Mbx) : (s.onMbx f).calWr = s.calWr := rfl
@[simp] theorem State.onMbx_jrn (f : Mbx → Mbx) : (s.onMbx f).jrn = s.jrn := rfl
@[simp] theorem State.onMbx_loader (f : Mbx → Mbx) : (s.onMbx f).loader = s.loader := rfl
@[simp] theorem State.onMbx_clu (f : Mbx → Mbx) : (s.onMbx f).clu = s.clu := rfl
@[simp] theorem State.onMbx_bg (f : Mbx → Mbx) : (s.onMbx f).bg = s.bg := rfl

/-! ### State.onClu -/
@[simp] theorem State.onClu_pending (f : Clu → Clu) : (s.onClu f).pending = s.pending := rfl
@[simp] theorem State.onClu_clk (f : Clu → Clu) : (s.onClu f).clk = s.clk := rfl
@[simp] theorem State.onClu_relAt (f : Clu → Clu) : (s.onClu f).relAt = s.relAt := rfl
@[simp] theorem State.onClu_freeCtr (f : Clu → Clu) : (s.onClu f).freeCtr = s.freeCtr := rfl
@[simp] theorem State.onClu_regs (f : Clu → Clu) : (s.onClu f).regs = s.regs := rfl
@[simp] theorem State.onClu_latches (f : Clu → Clu) : (s.onClu f).latches = s.latches := rfl
@[simp] theorem State.onClu_resp (f : Clu → Clu) : (s.onClu f).resp = s.resp := rfl
@[simp] theorem State.onClu_mem (f : Clu → Clu) : (s.onClu f).mem = s.mem := rfl
@[simp] theorem State.onClu_nor (f : Clu → Clu) : (s.onClu f).nor = s.nor := rfl
@[simp] theorem State.onClu_board (f : Clu → Clu) : (s.onClu f).board = s.board := rfl
@[simp] theorem State.onClu_ntim (f : Clu → Clu) : (s.onClu f).ntim = s.ntim := rfl
@[simp] theorem State.onClu_pps (f : Clu → Clu) : (s.onClu f).pps = s.pps := rfl
@[simp] theorem State.onClu_tmr (f : Clu → Clu) : (s.onClu f).tmr = s.tmr := rfl
@[simp] theorem State.onClu_lamps (f : Clu → Clu) : (s.onClu f).lamps = s.lamps := rfl
@[simp] theorem State.onClu_pair (f : Clu → Clu) : (s.onClu f).pair = s.pair := rfl
@[simp] theorem State.onClu_lens (f : Clu → Clu) : (s.onClu f).lens = s.lens := rfl
@[simp] theorem State.onClu_dets (f : Clu → Clu) : (s.onClu f).dets = s.dets := rfl
@[simp] theorem State.onClu_ctxs (f : Clu → Clu) : (s.onClu f).ctxs = s.ctxs := rfl
@[simp] theorem State.onClu_rtags (f : Clu → Clu) : (s.onClu f).rtags = s.rtags := rfl
@[simp] theorem State.onClu_rtagCnt (f : Clu → Clu) : (s.onClu f).rtagCnt = s.rtagCnt := rfl
@[simp] theorem State.onClu_rtagBase (f : Clu → Clu) : (s.onClu f).rtagBase = s.rtagBase := rfl
@[simp] theorem State.onClu_irqPend (f : Clu → Clu) : (s.onClu f).irqPend = s.irqPend := rfl
@[simp] theorem State.onClu_irqServed (f : Clu → Clu) : (s.onClu f).irqServed = s.irqServed := rfl
@[simp] theorem State.onClu_pcnt (f : Clu → Clu) : (s.onClu f).pcnt = s.pcnt := rfl
@[simp] theorem State.onClu_pcntShd (f : Clu → Clu) : (s.onClu f).pcntShd = s.pcntShd := rfl
@[simp] theorem State.onClu_pcntFrac (f : Clu → Clu) : (s.onClu f).pcntFrac = s.pcntFrac := rfl
@[simp] theorem State.onClu_dmc (f : Clu → Clu) : (s.onClu f).dmc = s.dmc := rfl
@[simp] theorem State.onClu_pwr (f : Clu → Clu) : (s.onClu f).pwr = s.pwr := rfl
@[simp] theorem State.onClu_cores (f : Clu → Clu) : (s.onClu f).cores = s.cores := rfl
@[simp] theorem State.onClu_chnd (f : Clu → Clu) : (s.onClu f).chnd = s.chnd := rfl
@[simp] theorem State.onClu_mant (f : Clu → Clu) : (s.onClu f).mant = s.mant := rfl
@[simp] theorem State.onClu_lant (f : Clu → Clu) : (s.onClu f).lant = s.lant := rfl
@[simp] theorem State.onClu_ciph (f : Clu → Clu) : (s.onClu f).ciph = s.ciph := rfl
@[simp] theorem State.onClu_sec (f : Clu → Clu) : (s.onClu f).sec = s.sec := rfl
@[simp] theorem State.onClu_emac (f : Clu → Clu) : (s.onClu f).emac = s.emac := rfl
@[simp] theorem State.onClu_mdio (f : Clu → Clu) : (s.onClu f).mdio = s.mdio := rfl
@[simp] theorem State.onClu_fwd (f : Clu → Clu) : (s.onClu f).fwd = s.fwd := rfl
@[simp] theorem State.onClu_tmgr (f : Clu → Clu) : (s.onClu f).tmgr = s.tmgr := rfl
@[simp] theorem State.onClu_harts (f : Clu → Clu) : (s.onClu f).harts = s.harts := rfl
@[simp] theorem State.onClu_boot (f : Clu → Clu) : (s.onClu f).boot = s.boot := rfl
@[simp] theorem State.onClu_mbx (f : Clu → Clu) : (s.onClu f).mbx = s.mbx := rfl
@[simp] theorem State.onClu_calWr (f : Clu → Clu) : (s.onClu f).calWr = s.calWr := rfl
@[simp] theorem State.onClu_jrn (f : Clu → Clu) : (s.onClu f).jrn = s.jrn := rfl
@[simp] theorem State.onClu_loader (f : Clu → Clu) : (s.onClu f).loader = s.loader := rfl
@[simp] theorem State.onClu_bg (f : Clu → Clu) : (s.onClu f).bg = s.bg := rfl

/-! ### State.onJrn -/
@[simp] theorem State.onJrn_pending (f : Journal → Journal) : (s.onJrn f).pending = s.pending := rfl
@[simp] theorem State.onJrn_clk (f : Journal → Journal) : (s.onJrn f).clk = s.clk := rfl
@[simp] theorem State.onJrn_relAt (f : Journal → Journal) : (s.onJrn f).relAt = s.relAt := rfl
@[simp] theorem State.onJrn_freeCtr (f : Journal → Journal) : (s.onJrn f).freeCtr = s.freeCtr := rfl
@[simp] theorem State.onJrn_regs (f : Journal → Journal) : (s.onJrn f).regs = s.regs := rfl
@[simp] theorem State.onJrn_latches (f : Journal → Journal) : (s.onJrn f).latches = s.latches := rfl
@[simp] theorem State.onJrn_resp (f : Journal → Journal) : (s.onJrn f).resp = s.resp := rfl
@[simp] theorem State.onJrn_mem (f : Journal → Journal) : (s.onJrn f).mem = s.mem := rfl
@[simp] theorem State.onJrn_nor (f : Journal → Journal) : (s.onJrn f).nor = s.nor := rfl
@[simp] theorem State.onJrn_board (f : Journal → Journal) : (s.onJrn f).board = s.board := rfl
@[simp] theorem State.onJrn_ntim (f : Journal → Journal) : (s.onJrn f).ntim = s.ntim := rfl
@[simp] theorem State.onJrn_pps (f : Journal → Journal) : (s.onJrn f).pps = s.pps := rfl
@[simp] theorem State.onJrn_tmr (f : Journal → Journal) : (s.onJrn f).tmr = s.tmr := rfl
@[simp] theorem State.onJrn_lamps (f : Journal → Journal) : (s.onJrn f).lamps = s.lamps := rfl
@[simp] theorem State.onJrn_pair (f : Journal → Journal) : (s.onJrn f).pair = s.pair := rfl
@[simp] theorem State.onJrn_lens (f : Journal → Journal) : (s.onJrn f).lens = s.lens := rfl
@[simp] theorem State.onJrn_dets (f : Journal → Journal) : (s.onJrn f).dets = s.dets := rfl
@[simp] theorem State.onJrn_ctxs (f : Journal → Journal) : (s.onJrn f).ctxs = s.ctxs := rfl
@[simp] theorem State.onJrn_rtags (f : Journal → Journal) : (s.onJrn f).rtags = s.rtags := rfl
@[simp] theorem State.onJrn_rtagCnt (f : Journal → Journal) : (s.onJrn f).rtagCnt = s.rtagCnt := rfl
@[simp] theorem State.onJrn_rtagBase (f : Journal → Journal) : (s.onJrn f).rtagBase = s.rtagBase := rfl
@[simp] theorem State.onJrn_irqPend (f : Journal → Journal) : (s.onJrn f).irqPend = s.irqPend := rfl
@[simp] theorem State.onJrn_irqServed (f : Journal → Journal) : (s.onJrn f).irqServed = s.irqServed := rfl
@[simp] theorem State.onJrn_pcnt (f : Journal → Journal) : (s.onJrn f).pcnt = s.pcnt := rfl
@[simp] theorem State.onJrn_pcntShd (f : Journal → Journal) : (s.onJrn f).pcntShd = s.pcntShd := rfl
@[simp] theorem State.onJrn_pcntFrac (f : Journal → Journal) : (s.onJrn f).pcntFrac = s.pcntFrac := rfl
@[simp] theorem State.onJrn_dmc (f : Journal → Journal) : (s.onJrn f).dmc = s.dmc := rfl
@[simp] theorem State.onJrn_pwr (f : Journal → Journal) : (s.onJrn f).pwr = s.pwr := rfl
@[simp] theorem State.onJrn_cores (f : Journal → Journal) : (s.onJrn f).cores = s.cores := rfl
@[simp] theorem State.onJrn_chnd (f : Journal → Journal) : (s.onJrn f).chnd = s.chnd := rfl
@[simp] theorem State.onJrn_mant (f : Journal → Journal) : (s.onJrn f).mant = s.mant := rfl
@[simp] theorem State.onJrn_lant (f : Journal → Journal) : (s.onJrn f).lant = s.lant := rfl
@[simp] theorem State.onJrn_ciph (f : Journal → Journal) : (s.onJrn f).ciph = s.ciph := rfl
@[simp] theorem State.onJrn_sec (f : Journal → Journal) : (s.onJrn f).sec = s.sec := rfl
@[simp] theorem State.onJrn_emac (f : Journal → Journal) : (s.onJrn f).emac = s.emac := rfl
@[simp] theorem State.onJrn_mdio (f : Journal → Journal) : (s.onJrn f).mdio = s.mdio := rfl
@[simp] theorem State.onJrn_fwd (f : Journal → Journal) : (s.onJrn f).fwd = s.fwd := rfl
@[simp] theorem State.onJrn_tmgr (f : Journal → Journal) : (s.onJrn f).tmgr = s.tmgr := rfl
@[simp] theorem State.onJrn_harts (f : Journal → Journal) : (s.onJrn f).harts = s.harts := rfl
@[simp] theorem State.onJrn_boot (f : Journal → Journal) : (s.onJrn f).boot = s.boot := rfl
@[simp] theorem State.onJrn_mbx (f : Journal → Journal) : (s.onJrn f).mbx = s.mbx := rfl
@[simp] theorem State.onJrn_calWr (f : Journal → Journal) : (s.onJrn f).calWr = s.calWr := rfl
@[simp] theorem State.onJrn_loader (f : Journal → Journal) : (s.onJrn f).loader = s.loader := rfl
@[simp] theorem State.onJrn_clu (f : Journal → Journal) : (s.onJrn f).clu = s.clu := rfl
@[simp] theorem State.onJrn_bg (f : Journal → Journal) : (s.onJrn f).bg = s.bg := rfl

end Sys2Proof.Machine
end

