-- ==== Sys2Proof/Laws/Tables.lean ====
section
/-! SUPPORT. Laws of sparse tables, registers and bit fields: reads after writes. -/
namespace Sys2Proof.Machine

@[simp] theorem tabGet_tabSet_same {α : Type} (d v : α) (t : Tab α) (k : Nat) : tabGet d (tabSet t k v) k = v := by
  induction t with
  | nil => simp [tabSet, tabGet]
  | cons x r ih =>
    obtain ⟨a, b⟩ := x
    simp only [tabSet]
    split
    · simp [tabGet]
    · split
      · simp [tabGet]
      · rename_i h
        simp only [tabGet]
        rw [if_neg (fun e => h e.symm)]
        exact ih

theorem tabGet_tabSet_other {α : Type} (d v : α) (t : Tab α) {k j : Nat} (h : j ≠ k) :
    tabGet d (tabSet t k v) j = tabGet d t j := by
  induction t with
  | nil => simp [tabSet, tabGet, Ne.symm h]
  | cons x r ih =>
    obtain ⟨a, b⟩ := x
    simp only [tabSet]
    split
    · simp [tabGet, Ne.symm h]
    · split
      · rename_i e
        subst e
        simp [tabGet, Ne.symm h]
      · simp only [tabGet]
        rw [ih]

theorem tabGet_tabSet {α : Type} (d v : α) (t : Tab α) (k j : Nat) :
    tabGet d (tabSet t k v) j = if j = k then v else tabGet d t j := by
  split
  · subst_vars
    simp
  · exact tabGet_tabSet_other d v t ‹_›

variable (s : State)

/-- A register read after a write of a register. -/
theorem State.reg_setReg (a b : Nat) (v : Word) : (s.setReg a v).reg b = if b = a then v else s.reg b := by
  simp only [State.reg, State.setReg, tabGet_tabSet]

@[simp] theorem State.reg_setReg_same (a : Nat) (v : Word) : (s.setReg a v).reg a = v := by simp [State.reg_setReg]

theorem State.reg_setReg_other {a b : Nat} (v : Word) (h : b ≠ a) : (s.setReg a v).reg b = s.reg b := by
  simp [State.reg_setReg, h]

theorem State.reg_setRf_other {a b : Nat} (hi lo x : Nat) (h : b ≠ a) : (s.setRf a hi lo x).reg b = s.reg b :=
  s.reg_setReg_other _ h

theorem State.reg_setRb_other {a b : Nat} (n : Nat) (x : Bool) (h : b ≠ a) : (s.setRb a n x).reg b = s.reg b :=
  s.reg_setReg_other _ h

theorem State.reg_bump_other {a b : Nat} (n : Nat) (h : b ≠ a) : (s.bump a n).reg b = s.reg b :=
  s.reg_setReg_other _ h

/-- A counter holds its old count and `n`, and stops at its greatest value. -/
theorem State.reg_bump_same (a n : Nat) : ((s.bump a n).reg a).toNat = min 0xFFFFFFFF ((s.reg a).toNat + n) := by
  simp only [State.bump, State.reg_setReg_same, BitVec.toNat_ofNat]
  exact Nat.mod_eq_of_lt (by omega)

/-- A write of one register leaves every other. -/
theorem State.setReg_regsBut (a : Nat) (v : Word) : s.regsBut (s.setReg a v) [a] := by
  intro b hb
  exact s.reg_setReg_other v (by simpa using hb)

theorem State.regsBut_trans {s t u : State} {l m : List Nat} (h : s.regsBut t l) (k : t.regsBut u m) :
    s.regsBut u (l ++ m) := by
  intro a ha
  simp only [List.mem_append, not_or] at ha
  rw [k a ha.2, h a ha.1]

/-- A latched copy read after one is filled. -/
theorem State.latch_setLatch_same (y : Ini) (a : Nat) (v : Word) : (s.setLatch y a v).latch y a = v := by
  simp [State.latch, State.setLatch]

/-! ### Updates whose field other reads go through -/

@[simp] theorem State.reg_at (t a : Nat) : (s.at t).reg a = s.reg a := rfl
@[simp] theorem State.reg_answer (y : Ini) (r : BusResp) (a : Nat) : (s.answer y r).reg a = s.reg a := rfl
@[simp] theorem State.reg_result (y : Ini) (b : Nat) (c : Code) (a : Nat) : (s.result y b c).reg a = s.reg a := rfl
@[simp] theorem State.reg_setLatch (y : Ini) (b : Nat) (v : Word) (a : Nat) : (s.setLatch y b v).reg a = s.reg a := rfl
@[simp] theorem State.reg_pulse (n a : Nat) : (s.pulse n).reg a = s.reg a := rfl
@[simp] theorem State.domOn_at (t d : Nat) : (s.at t).domOn d = s.domOn d := rfl
@[simp] theorem State.domOn_setReg (a : Nat) (v : Word) (d : Nat) : (s.setReg a v).domOn d = s.domOn d := rfl
@[simp] theorem State.domOn_answer (y : Ini) (r : BusResp) (d : Nat) : (s.answer y r).domOn d = s.domOn d := rfl
@[simp] theorem State.inService_at (t u : Nat) : (s.at t).inService u = s.inService u := rfl
@[simp] theorem State.byte_at (t a : Nat) : (s.at t).byte a = s.byte a := rfl
@[simp] theorem State.byte_setReg (a : Nat) (v : Word) (b : Nat) : (s.setReg a v).byte b = s.byte b := rfl

/-! ### Bit fields -/

/-- Bits of a word with a field set: the field's bits are those of `x`, every other is as before. -/
theorem setFld_testBit (v : Word) (hi lo x i : Nat) (h : hi < 32) (hl : lo ≤ hi) :
    (setFld v hi lo x).getLsbD i =
      if lo ≤ i ∧ i ≤ hi then x.testBit (i - lo) else v.getLsbD i := by
  have e : 2 ^ (hi + 1) = 2 ^ lo * 2 ^ (hi + 1 - lo) := by rw [← Nat.pow_add]; congr 1; omega
  have h2 := Nat.div_add_mod (v.toNat / 2 ^ lo) (2 ^ (hi + 1 - lo))
  rw [Nat.div_div_eq_div_mul, ← e] at h2
  have hx : x % 2 ^ (hi + 1 - lo) < 2 ^ (hi + 1 - lo) := Nat.mod_lt _ (Nat.two_pow_pos _)
  have hd : v.toNat % 2 ^ lo < 2 ^ lo := Nat.mod_lt _ (Nat.two_pow_pos _)
  have hin : 2 ^ lo * (x % 2 ^ (hi + 1 - lo)) + v.toNat % 2 ^ lo < 2 ^ (hi + 1) := by
    rw [e]
    calc 2 ^ lo * (x % 2 ^ (hi + 1 - lo)) + v.toNat % 2 ^ lo
        < 2 ^ lo * (x % 2 ^ (hi + 1 - lo)) + 2 ^ lo * 1 := by omega
      _ = 2 ^ lo * (x % 2 ^ (hi + 1 - lo) + 1) := by rw [← Nat.mul_add]
      _ ≤ 2 ^ lo * 2 ^ (hi + 1 - lo) := Nat.mul_le_mul_left _ hx
  have hv : v.toNat - v.toNat / 2 ^ lo % 2 ^ (hi + 1 - lo) * 2 ^ lo + x % 2 ^ (hi + 1 - lo) * 2 ^ lo =
      2 ^ (hi + 1) * (v.toNat / 2 ^ (hi + 1)) + (2 ^ lo * (x % 2 ^ (hi + 1 - lo)) + v.toNat % 2 ^ lo) := by
    have h1 := Nat.div_add_mod v.toNat (2 ^ lo)
    have h3 : 2 ^ lo * (v.toNat / 2 ^ lo) = 2 ^ (hi + 1) * (v.toNat / 2 ^ (hi + 1)) +
        v.toNat / 2 ^ lo % 2 ^ (hi + 1 - lo) * 2 ^ lo := by
      rw [e, Nat.mul_assoc, Nat.mul_comm _ (2 ^ lo), ← Nat.mul_add, ← e, h2]
    rw [Nat.mul_comm (x % 2 ^ (hi + 1 - lo))]
    omega
  have hp : ∀ j, (v.toNat / 2 ^ (hi + 1)).testBit j = v.toNat.testBit (j + (hi + 1)) := fun j => Nat.testBit_div_two_pow ..
  change (BitVec.ofNat 32 _).getLsbD i = if lo ≤ i ∧ i ≤ hi then x.testBit (i - lo) else v.toNat.testBit i
  rw [hv, BitVec.getLsbD_ofNat, Nat.testBit_two_pow_mul_add _ hin, Nat.testBit_two_pow_mul_add _ hd, hp,
    Nat.testBit_mod_two_pow, Nat.testBit_mod_two_pow]
  by_cases c : i < 32
  · by_cases c1 : i < hi + 1
    · by_cases c2 : i < lo
      · have c4 : ¬(lo ≤ i ∧ i ≤ hi) := by omega
        simp [c, c1, c2, c4]
      · have c3 : i - lo < hi + 1 - lo := by omega
        have c4 : lo ≤ i ∧ i ≤ hi := by omega
        simp [c, c1, c2, c3, c4]
    · have c4 : ¬(lo ≤ i ∧ i ≤ hi) := by omega
      have c5 : i - (hi + 1) + (hi + 1) = i := by omega
      simp [c, c1, c4, c5]
  · have c4 : ¬(lo ≤ i ∧ i ≤ hi) := by omega
    have : v.toNat.testBit i = false :=
      Nat.testBit_lt_two_pow (Nat.lt_of_lt_of_le v.isLt (Nat.pow_le_pow_right (by decide) (by omega)))
    simp [c, c4, this]

/-- A bit read after it is set. -/
theorem State.rb_setRb_same (a n : Nat) (b : Bool) (h : n < 32) : (s.setRb a n b).rb a n = b := by
  simp only [State.rb, bit, State.setRb, State.setRf, State.reg_setReg_same, setFld_testBit _ n n _ _ h (Nat.le_refl n)]
  cases b <;> simp

/-- Another bit of the register stays. -/
theorem State.rb_setRb_other (a : Nat) {n m : Nat} (b : Bool) (h : n < 32) (k : m ≠ n) :
    (s.setRb a n b).rb a m = s.rb a m := by
  simp only [State.rb, bit, State.setRb, State.setRf, State.reg_setReg_same, setFld_testBit _ n n _ _ h (Nat.le_refl n)]
  rw [if_neg (by omega)]

end Sys2Proof.Machine
end

