-- ==== Sys2Proof/Laws/Fabric.lean ====
section
/-! SUPPORT. One law for each shared operation of the fabric and of the commands' gates: all that it can do. -/
namespace Sys2Proof.Machine
variable (s : State)

/-! ### Gates -/

/-- An event of a domain that runs has its effect at its instant. -/
theorem State.when_runs {d : Nat} (h : s.runs d) (t : Nat) (k : State → State) : s.when t d k = .next (k (s.at t)) := by
  simp [State.when, h.1, h.2]

/-- An event always answers a next state: its effect, or the instant alone. -/
theorem State.when_cases (t d : Nat) (k : State → State) :
    s.when t d k = .next (k (s.at t)) ∧ s.runs d ∨ s.when t d k = .next (s.at t) ∧ ¬ s.runs d := by
  by_cases h : s.runs d
  · exact .inl ⟨s.when_runs h t k, h⟩
  · refine .inr ⟨?_, h⟩
    have : (s.at t).board.held = true ∨ (s.at t).domOn d = false := by
      simpa [State.runs, ← Bool.not_eq_true, -not_and, Classical.not_and_iff_not_or_not] using h
    simp only [State.when]
    rw [if_pos (by simpa using this)]

@[simp] theorem State.hears_at (t : Nat) (y : Ini) : (s.at t).hears y = s.hears y := rfl
@[simp] theorem State.pmpOk_at (t : Nat) (y : Ini) (u : PmpUse) (a n : Nat) : (s.at t).pmpOk y u a n = s.pmpOk y u a n := rfl

/-- A write that reaches its register, in a window not fenced, has its effect; the answer waits while the fabric holds it. -/
theorem State.access_opens {a : Nat} {y : Ini} {f : State → Bool} (h : s.opens y a) (t : Nat) (k : State → State)
    (hf : f (s.at t) = false) :
    s.access t a y f k =
      .next ((k (s.at t)).answer y (if (k (s.at t)).fabricHolds (iniIdx y) then .held else .done)) := by
  have h1 : s.hears y = true ∧ s.pmpOk y .write a 4 = true := by simpa [State.admits] using h.1
  have h2 : (addrDomain a).any (s.at t).domOn = true := h.2
  simp [State.access, h1.1, h1.2, h2, hf]

/-- A write that reaches its register and holds nothing up in the fabric is answered done. -/
theorem State.access_done {a : Nat} {y : Ini} {f : State → Bool} (h : s.opens y a) (t : Nat) (k : State → State)
    (hf : f (s.at t) = false) (hk : (k (s.at t)).fabricHolds (iniIdx y) = false) :
    s.access t a y f k = .next ((k (s.at t)).answer y .done) := by
  rw [s.access_opens h t k hf, hk]; rfl

/-- A write by an initiator always answers a next state: nothing, an access fault, a bus error, or its effect. -/
theorem State.access_cases (t a : Nat) (y : Ini) (f : State → Bool) (k : State → State) :
    s.access t a y f k = .next (s.at t) ∨ s.access t a y f k = .next ((s.at t).answer y .fault) ∨
      s.access t a y f k = .next (((s.at t).writeError y a).answer y .error) ∨
      (∃ r, s.access t a y f k = .next ((k (s.at t)).answer y r)) ∧ s.opens y a ∧ f (s.at t) = false := by
  cases h1 : (s.at t).hears y
  · exact .inl (by simp [State.access, h1])
  cases h2 : (s.at t).pmpOk y .write a 4
  · exact .inr (.inl (by simp [State.access, h1, h2]))
  cases h3 : (addrDomain a).any (s.at t).domOn
  · exact .inr (.inr (.inl (by simp [State.access, h1, h2, h3])))
  cases h4 : f (s.at t)
  · have o : s.opens y a := ⟨by simpa [State.admits] using And.intro h1 h2, h3⟩
    exact .inr (.inr (.inr ⟨⟨_, s.access_opens o t k h4⟩, o, rfl⟩))
  · exact .inr (.inr (.inl (by simp [State.access, h1, h2, h3, h4])))

/-- An access that its initiator is let make. -/
theorem State.busAccess_eq {y : Ini} {u : PmpUse} {a n : Nat} (h : s.hears y = true) (p : s.pmpOk y u a n = true) (t : Nat)
    (f : State → BusResp × State) :
    s.busAccess t y u a n f = .next ((f (s.at t)).2.answer y
      (if (f (s.at t)).2.fabricHolds (iniIdx y) then .held else (f (s.at t)).1)) := by
  have h1 : (s.at t).hears y = true := h
  have h2 : (s.at t).pmpOk y u a n = true := p
  simp [State.busAccess, h1, h2]

/-- A read that reaches its register is answered with what it shows. -/
theorem State.reads_opens {a : Nat} {y : Ini} (h : s.hears y = true) (p : s.pmpOk y .read a 4 = true)
    (d : (addrDomain a).any s.domOn = true) (t : Nat) (k : State → State × Word) :
    s.reads t a y k = .next ((k (s.at t)).1.answer y (.data (k (s.at t)).2.toNat)) := by
  have h1 : (s.at t).hears y = true := h
  have h2 : (s.at t).pmpOk y .read a 4 = true := p
  have h3 : (addrDomain a).any (s.at t).domOn = true := d
  simp [State.reads, h1, h2, h3]

/-! ### Memory -/

/-- A store either ends in a bus error or writes its bytes, and beside them clears errors of whole granules. -/
theorem State.store_cases (a : Nat) (bs : List Byte) :
    s.store a bs = none ∨ ∃ u, s.store a bs = some u ∧ u.mem = cellsWrite memZero s.mem a bs ∧
      u = { s with mem := u.mem, dmc := { s.dmc with poison := u.dmc.poison }, bg := { s.bg with sramBad := u.bg.sramBad } } := by
  simp only [State.store]
  split
  · exact .inr ⟨_, rfl, rfl, rfl⟩
  · exact .inl rfl

/-- A store to addresses that can be accessed is made. -/
theorem State.store_ok {a : Nat} {bs : List Byte} (h : s.memOk a = true) (k : s.memOk (a + (bs.length - 1)) = true) :
    ∃ u, s.store a bs = some u ∧ u.mem = cellsWrite memZero s.mem a bs ∧ u.regs = s.regs ∧ u.cores = s.cores := by
  simp [State.store, h, k]

/-- A store keeps the memory in its form. -/
theorem State.store_wf {a : Nat} {bs : List Byte} {u : State} (h : Memory.wf s.mem = true) (k : s.store a bs = some u) :
    Memory.wf u.mem = true := by
  rcases s.store_cases a bs with e | ⟨v, e, hm, -⟩
  · simp [e] at k
  · rw [e, Option.some.injEq] at k
    subst k
    rw [hm]
    exact cellsWrite_wf h

theorem State.storeDrop_wf {a : Nat} {bs : List Byte} (h : Memory.wf s.mem = true) :
    Memory.wf (s.storeDrop a bs).mem = true := by
  rcases e : s.store a bs with _ | u
  · simpa [State.storeDrop, e] using h
  · simpa [State.storeDrop, e] using s.store_wf h e

/-- A store whose bus error is dropped changes memory and its error marks alone. -/
theorem State.storeDrop_eq (a : Nat) (bs : List Byte) : let u := s.storeDrop a bs
    u = { s with mem := u.mem, dmc := { s.dmc with poison := u.dmc.poison }, bg := { s.bg with sramBad := u.bg.sramBad } } := by
  intro u
  rcases s.store_cases a bs with e | ⟨v, e, -, hv⟩
  · have : u = s := by simp [u, State.storeDrop, e]
    rw [this]
  · have : u = v := by simp [u, State.storeDrop, e]
    rw [this]
    exact hv

@[simp] theorem State.storeDrop_regs (a : Nat) (bs : List Byte) : (s.storeDrop a bs).regs = s.regs := by
  rw [s.storeDrop_eq a bs]
@[simp] theorem State.storeDrop_cores (a : Nat) (bs : List Byte) : (s.storeDrop a bs).cores = s.cores := by
  rw [s.storeDrop_eq a bs]
@[simp] theorem State.storeDrop_nor (a : Nat) (bs : List Byte) : (s.storeDrop a bs).nor = s.nor := by
  rw [s.storeDrop_eq a bs]

/-- A load that answers gives the bytes that stand there. -/
theorem State.load_some {a n : Nat} {bs : List Byte} (h : s.load a n = some bs) :
    bs = cellsRead memZero s.mem a n ∧ s.memOk a = true ∧ s.memOk (a + (n - 1)) = true ∧ s.poisoned a n = false := by
  simp only [State.load] at h
  split at h
  · rename_i c
    simp only [Bool.and_eq_true, Bool.not_eq_true'] at c
    exact ⟨by simpa using h.symm, c.1.1, c.1.2, c.2⟩
  · simp at h

/-! ### Counters -/

/-- An event changes its counter and, where that wraps, its bit of PCNT_WRAP; nothing else. -/
theorem State.event_eq (e n : Nat) : s.event e n = { s with pcnt := (s.event e n).pcnt, regs := (s.event e n).regs } := by
  simp only [State.event]
  split
  · rfl
  · split <;> rfl

theorem State.event_reg {e n a : Nat} (h : ∀ i, a ≠ PCNT_WRAP i) : (s.event e n).reg a = s.reg a := by
  simp only [State.event]
  split
  · rfl
  · split
    · exact State.reg_setRb_other _ _ _ (h _)
    · rfl

@[simp] theorem State.event_cores (e n : Nat) : (s.event e n).cores = s.cores := by rw [s.event_eq e n]
@[simp] theorem State.event_mem (e n : Nat) : (s.event e n).mem = s.mem := by rw [s.event_eq e n]
@[simp] theorem State.event_nor (e n : Nat) : (s.event e n).nor = s.nor := by rw [s.event_eq e n]

/-! ### The memories' form through the updates -/

@[simp] theorem State.formed_at (t : Nat) : (s.at t).formed = s.formed := rfl
@[simp] theorem State.formed_setReg (a : Nat) (v : Word) : (s.setReg a v).formed = s.formed := rfl
@[simp] theorem State.formed_setRf (a hi lo x : Nat) : (s.setRf a hi lo x).formed = s.formed := rfl
@[simp] theorem State.formed_setRb (a n : Nat) (b : Bool) : (s.setRb a n b).formed = s.formed := rfl
@[simp] theorem State.formed_bump (a n : Nat) : (s.bump a n).formed = s.formed := rfl
@[simp] theorem State.formed_answer (y : Ini) (r : BusResp) : (s.answer y r).formed = s.formed := rfl
@[simp] theorem State.formed_result (y : Ini) (a : Nat) (c : Code) : (s.result y a c).formed = s.formed := rfl
@[simp] theorem State.formed_setLatch (y : Ini) (a : Nat) (v : Word) : (s.setLatch y a v).formed = s.formed := rfl
@[simp] theorem State.formed_pulse (n : Nat) : (s.pulse n).formed = s.formed := rfl
@[simp] theorem State.formed_setCore (k : Nat) (c : WCore) : (s.setCore k c).formed = s.formed := rfl
@[simp] theorem State.formed_event (e n : Nat) : (s.event e n).formed = s.formed := by
  simp [State.formed]

theorem State.storeDrop_formed {a : Nat} {bs : List Byte} (h : s.formed) : (s.storeDrop a bs).formed :=
  ⟨s.storeDrop_wf h.1, by simpa using h.2⟩

end Sys2Proof.Machine
end

