-- ==== Sys2Proof/Laws/Wick.lean ====
section
/-! SUPPORT. Laws of issue on a Wick core or a Lantern: what a command does whose instruction stands at its core's pc. -/
namespace Sys2Proof.Machine
variable (s : State)

@[simp] theorem State.core_setCore_same (k : Nat) (c : WCore) : (s.setCore k c).core k = c := by
  simp [State.core, State.setCore]

theorem State.core_setCore_other {j k : Nat} (c : WCore) (h : j ≠ k) : (s.setCore k c).core j = s.core j := by
  simp [State.core, State.setCore, tabGet_tabSet_other _ _ _ h]

@[simp] theorem State.core_event (e n k : Nat) : (s.event e n).core k = s.core k := by simp [State.core]
@[simp] theorem State.core_bump (a n k : Nat) : (s.bump a n).core k = s.core k := rfl

/-- The wait for a slot is counted in the core of the issue. -/
theorem State.core_slotStep (k : Nat) (i : WInstr) :
    (s.slotStep k i).cores = tabSet s.cores k { s.core k with waited := (s.core k).slotWait i % 32 } := by
  simp only [State.slotStep]
  split
  · exact State.event_cores _ _ _
  · rfl

@[simp] theorem State.issued_cores (k : Nat) (i : WInstr) :
    (s.issued k i).cores = tabSet s.cores k { s.core k with waited := (s.core k).slotWait i % 32 } := by
  rw [← s.core_slotStep k i]
  simp only [State.issued]
  split
  · exact State.event_cores _ _ _
  · rfl

/-- An issue changes only its core, counts, and the registers of the counts. -/
theorem State.slotStep_eq (k : Nat) (i : WInstr) : s.slotStep k i =
    { s with cores := (s.slotStep k i).cores, pcnt := (s.slotStep k i).pcnt, regs := (s.slotStep k i).regs } := by
  simp only [State.slotStep]
  split
  · rw [State.event_eq]; rfl
  · rfl

theorem State.issued_eq (k : Nat) (i : WInstr) : s.issued k i =
    { s with cores := (s.issued k i).cores, pcnt := (s.issued k i).pcnt, regs := (s.issued k i).regs } := by
  simp only [State.issued]
  split
  · rw [State.event_eq, s.slotStep_eq k i]
  · exact s.slotStep_eq k i

/-- The registers of the counts: PCNT_WRAP, and WICKn_STALLS on a Wick. -/
theorem State.slotStep_reg {k a : Nat} (i : WInstr) (h : ∀ e, a ≠ PCNT_WRAP e) (w : isW k = true → a ≠ WICK_STALLS k) :
    (s.slotStep k i).reg a = s.reg a := by
  simp only [State.slotStep]
  split
  · rename_i c
    rw [State.event_reg _ h]
    exact State.reg_bump_other _ _ (w (by simpa using (Bool.and_eq_true _ _ ▸ c).2))
  · rfl

theorem State.issued_reg {k a : Nat} (i : WInstr) (h : ∀ e, a ≠ PCNT_WRAP e) (w : isW k = true → a ≠ WICK_STALLS k) :
    (s.issued k i).reg a = s.reg a := by
  rw [← s.slotStep_reg i h w]
  simp only [State.issued]
  split
  · exact State.event_reg _ h
  · rfl

/-- The state in which `i` has its effect: results due by now have landed, and the issue is counted. -/
def State.issuing (co : Core) (i : WInstr) : State := (s.setCore (coreKey co) (s.seen co)).issued (coreKey co) i

@[simp] theorem State.core_issuing (co : Core) (i : WInstr) : (s.issuing co i).core (coreKey co) = s.sees co i := by
  simp only [State.core, State.issuing, State.issued_cores, tabGet_tabSet_same]
  rw [show tabGet _ _ _ = (s.setCore (coreKey co) (s.seen co)).core (coreKey co) from rfl, State.core_setCore_same]
  rfl

theorem State.core_issuing_other (co : Core) (i : WInstr) {j : Nat} (h : j ≠ coreKey co) :
    (s.issuing co i).core j = s.core j := by
  simp only [State.core, State.issuing, State.issued_cores]
  rw [tabGet_tabSet_other _ _ _ h]
  exact s.core_setCore_other _ h

/-- A command whose instruction stands at its core's pc and is not kept from issuing has its effect. -/
theorem State.issueUnless_eq {co : Core} {i : WInstr} (h : s.issues co i) {p : WCore → Bool}
    (g : p (s.core (coreKey co)) = false) (f : State → State) : s.issueUnless co i p f = f (s.issuing co i) := by
  simp only [State.issueUnless, h.1, h.2, g, Bool.not_true, Bool.not_false, Bool.and_true, decide_true, if_true]
  rfl

/-- One that is kept from issuing changes nothing. -/
theorem State.issueUnless_held {co : Core} {i : WInstr} (h : s.issues co i) {p : WCore → Bool}
    (g : p (s.core (coreKey co)) = true) (f : State → State) : s.issueUnless co i p f = s := by
  simp [State.issueUnless, h.1, h.2, g]

theorem State.issue_eq {co : Core} {i : WInstr} (h : s.issues co i) (f : State → State) :
    s.issue co i f = f (s.issuing co i) := s.issueUnless_eq h rfl f

/-- A command whose core cannot issue changes nothing. -/
theorem State.issue_idle {co : Core} (i : WInstr) (p : WCore → Bool) (f : State → State)
    (h : s.canIssue (coreKey co) = false) : s.issueUnless co i p f = s := by simp [State.issueUnless, h]

/-- A command whose instruction does not stand at its core's pc changes nothing. -/
theorem State.issue_other {co : Core} {i j : WInstr} (p : WCore → Bool) (f : State → State) (h : s.issues co j)
    (n : j ≠ i) : s.issueUnless co i p f = s := by simp [State.issueUnless, h.1, h.2, n]

/-- What the core's pc holds cannot be run: the core faults, whatever the command. -/
theorem State.issue_fault {co : Core} {code : Nat} (i : WInstr) (p : WCore → Bool) (f : State → State)
    (h : s.canIssue (coreKey co) = true) (k : s.fetchW (coreKey co) = (code, none)) (hc : code ≠ 0) :
    s.issueUnless co i p f = s.faultCore (coreKey co) code := by
  simp only [State.issueUnless, h, k, Bool.not_true]
  split
  · simp_all
  · split <;> simp_all

/-- An instruction of one core alone: the whole of what it does. -/
theorem State.issuePure_eq {co : Core} {i : WInstr} (h : s.issues co i) (f : Nat → WCore → WCore) :
    s.issuePure co i f = .next ((s.issuing co i).setCore (coreKey co) (f (coreKey co) (s.sees co i)).next) := by
  simp only [State.issuePure, s.issue_eq h, State.core_issuing]

/-- An instruction that sets its own pc: the whole of what it does. -/
theorem State.issueJump_eq {co : Core} {i : WInstr} (h : s.issues co i) (f : Nat → WCore → WCore) :
    s.issueJump co i f = .next ((s.issuing co i).setCore (coreKey co) (f (coreKey co) (s.sees co i))) := by
  simp only [State.issueJump, s.issue_eq h, State.core_issuing]

/-- From a state to the one in which its core has been replaced during issue, no other core has changed. -/
theorem State.coreOnly_issuing (co : Core) (i : WInstr) (c : WCore) :
    s.coreOnly ((s.issuing co i).setCore (coreKey co) c) (coreKey co) := by
  refine ⟨fun j hj => ?_, ?_, fun a ha hw => ?_⟩
  · rw [State.core_setCore_other _ _ hj, s.core_issuing_other co i hj]
  · simp only [State.issuing]
    rw [State.issued_eq]
    rfl
  · exact State.issued_reg _ i ha hw

/-- So a pure instruction leaves all but its core and the counts of issues and stalls. -/
theorem State.issuePure_moves {co : Core} {i : WInstr} (h : s.issues co i) (f : Nat → WCore → WCore) :
    ∃ u, s.issuePure co i f = .next u ∧ s.coreOnly u (coreKey co) ∧
      u.core (coreKey co) = (f (coreKey co) (s.sees co i)).next :=
  ⟨_, s.issuePure_eq h f, s.coreOnly_issuing co i _, State.core_setCore_same ..⟩

theorem State.issueJump_moves {co : Core} {i : WInstr} (h : s.issues co i) (f : Nat → WCore → WCore) :
    ∃ u, s.issueJump co i f = .next u ∧ s.coreOnly u (coreKey co) ∧
      u.core (coreKey co) = f (coreKey co) (s.sees co i) :=
  ⟨_, s.issueJump_eq h f, s.coreOnly_issuing co i _, State.core_setCore_same ..⟩

end Sys2Proof.Machine
end

