-- ==== Sys2Proof/Machine/Hart.lean ====
section
/-! DEFINITION. The CSRs of a control core that R427 to R429 give rules for: PMP entries with their locks, satp, the
counters and their gates. No row of the table executes a CSR instruction; these operations are what one does. -/
namespace Sys2Proof.Machine

/-- The least privileged mode that may access CSR `n`, from its bits [9:8]. [PRESUMED, assumption 140] -/
def csrMode (n : Nat) : Nat := n / 256 % 4

/-- A mode as the privileged specification numbers it. -/
def privLevel : Priv → Nat
  | .user => 0
  | .supervisor => 1
  | .machine => 3

/-- A user-visible counter: cycle, time, instret, hpmcounter3 to hpmcounter31 (R429). -/
def isCounter (n : Nat) : Bool := decide (0xC00 ≤ n) && decide (n < 0xC20)

/-- mcounteren and scounteren let mode `p` read counter `n` (R429). -/
def Hart.counterOpen (x : Hart) (p : Priv) (n : Nat) : Bool :=
  let i := n - 0xC00
  let m := x.csrOf 0x306 / 2 ^ i % 2 == 1
  let c := x.csrOf 0x106 / 2 ^ i % 2 == 1
  match p with
  | .machine => true
  | .supervisor => m
  | .user => m && c

/-- Core cycles at 1.5 GHz since internal reset release (R429). -/
def State.coreCycles (s : State) : Nat := (s.clk - s.relAt) * 3 / 2

/-- Counter `i` of a hart as it counts: cycle goes on from what was written, time is TMR_LT, and hpmcounter11 to
hpmcounter31 read 0 (R429). The rest stand as stored: no row retires an instruction or raises a hart event. [DEDUCED,
assumption 14] -/
def State.counter (s : State) (x : Hart) (i : Nat) : Nat :=
  if i = 0 then (s.coreCycles + x.csrOf 0xB00) % 2 ^ 64
  else if i = 1 then s.raw
  else if 11 ≤ i then 0
  else x.csrOf (0xB00 + i)

/-- A read of CSR `n` in mode `p`; none raises an illegal-instruction exception (R429). [PRESUMED, assumption 140] -/
def State.csrRead (s : State) (h : Nat) (p : Priv) (n : Nat) : Option (BitVec 64) :=
  let x := s.hart h
  if privLevel p < csrMode n then none
  else if isCounter n then
    (if x.counterOpen p n then some (BitVec.ofNat 64 (s.counter x (n - 0xC00))) else none)
  else if 0xB00 ≤ n ∧ n < 0xB20 then some (BitVec.ofNat 64 (if n = 0xB01 then 0 else s.counter x (n - 0xB00)))
  else if 0x3B0 ≤ n ∧ n < 0x3C0 then
    let i := n - 0x3B0
    let y := x.pmpAddr i
    some (BitVec.ofNat 64 (if x.pmpCfg i / 16 % 2 = 1 then y ||| 7 else y / 16 * 16))
  else if 0x3C0 ≤ n ∧ n < 0x3F0 then some 0
  else some (tabGet 0 x.csr n)

/-- Entry `i` is locked (R428). -/
def Hart.pmpLocked (x : Hart) (i : Nat) : Bool := decide (128 ≤ x.pmpCfg i)

/-- pmpcfg written: the bytes of locked entries stay, and the reserved bits [6:5] are 0 (R428). -/
def Hart.cfgMerge (x : Hart) (first v : Nat) : Nat :=
  (List.range 8).foldl (fun r j =>
    r + (if x.pmpLocked (first + j) then x.pmpCfg (first + j) else v / 256 ^ j % 256 / 128 * 128 + v / 256 ^ j % 32)
      * 256 ^ j) 0

/-- pmpaddr of entry `i` cannot be written: it is locked, or the next entry is locked and takes it as its TOR base (R428). -/
def Hart.addrLocked (x : Hart) (i : Nat) : Bool :=
  x.pmpLocked i || (decide (i < 15) && x.pmpLocked (i + 1) && decide (x.pmpCfg (i + 1) / 8 % 4 = 1))

/-- What a write of `v` to CSR `n` stores; none leaves it (R427 to R429). -/
def State.csrStored (s : State) (x : Hart) (n v : Nat) : Option Nat :=
  if n = 0x180 then (if v / 2 ^ 60 = 0 ∨ v / 2 ^ 60 = 8 then some v else none)
  else if n = 0x3A0 then some (x.cfgMerge 0 v)
  else if n = 0x3A2 then some (x.cfgMerge 8 v)
  else if 0x3B0 ≤ n ∧ n < 0x3C0 then (if x.addrLocked (n - 0x3B0) then none else some (v % 2 ^ 54))
  else if 0x3A0 ≤ n ∧ n < 0x3F0 then none
  else if n = 0xB00 then some ((v + 2 ^ 64 - s.coreCycles % 2 ^ 64) % 2 ^ 64)
  else if n = 0xB01 ∨ (0xB0B ≤ n ∧ n < 0xB20) ∨ (0x32B ≤ n ∧ n < 0x340) then none
  else some v

/-- A write of CSR `n` in mode `p`; none raises an illegal-instruction exception. [PRESUMED, assumption 140] -/
def State.csrWrite (s : State) (h : Nat) (p : Priv) (n : Nat) (v : BitVec 64) : Option State :=
  if privLevel p < csrMode n ∨ n / 1024 = 3 then none
  else
    let x := s.hart h
    match s.csrStored x n v.toNat with
    | none => some s
    | some w => some { s with harts := tabSet s.harts h { x with csr := tabSet x.csr n (BitVec.ofNat 64 w) } }

end Sys2Proof.Machine
end

