-- ==== Sys2Proof/Machine/Lands.lean ====
section
/-! DEFINITION. What the output lands and the boundary-scan TAP show (R44, R53 to R56). -/
namespace Sys2Proof.Machine

/-- How an output land stands. -/
inductive Level where
  | low | high
  /-- High impedance, or an open-drain output that is released. -/
  | z
  /-- The land carries a signal of its unit that the model does not follow bit by bit. -/
  | live
  deriving DecidableEq, Repr

/-- A driven level. -/
def driven (b : Bool) : Level := if b then .high else .low

/-- An open-drain output: low while it is asserted. -/
def openDrain (asserted : Bool) : Level := if asserted then .low else .z

/-- An output land as the functional logic drives it; none for an input (R44). -/
def State.landDrive (s : State) : Land → Option Level
  | .lampCtl n k => some (driven (s.ctlPin n.val k.val))
  | .ppsOut k => some (driven (s.ppsPin k.val))
  | .rgmiiTxc | .rgmiiTxCtl | .rgmiiTxd _ => some (if s.rb (EMAC_CTL 4) 0 then .live else .low)
  | .mdc => some (if s.mdio.isSome then .live else .low)
  | .mdio => some (if s.mdio.isSome then .live else .z)
  | .uartTx => some (if !s.board.held && s.boot.phase == .console then .live else .high)
  | .tdo => some .z
  | .pwrGood => some (driven s.board.pwrGood)
  | .faultN => some (openDrain s.faultLand)
  | .tempAlertN => some (openDrain s.board.tempAlert)
  | .wakeN => some (openDrain s.pwr.wakeN)
  | .capIn _ | .rgmiiRxc | .rgmiiRxCtl | .rgmiiRxd _ | .tck | .tms | .tdi | .trstN | .resetN | .hsEn | .uartRx
  | .bootSel _ | .perstN => none

/-- An output land: the boundary register drives it under EXTEST and CLAMP, and HIGHZ releases it (R56). -/
def State.land (s : State) (l : Land) : Option Level :=
  match s.landDrive l with
  | none => none
  | some d =>
    match s.board.tap with
    | .extest | .clamp =>
      (match s.board.boundary.lookup l with
        | some b => some (driven b)
        | none => some d)
    | .highz => some .z
    | _ => some d

/-- The Ethernet transmit pair of port `p`, 0 to 3, is in electrical idle (R44). -/
def State.serdesIdle (s : State) (p : Nat) : Bool := !s.rb (EMAC_CTL p) 0

/-- The PCIe transmit pairs are in electrical idle (R44): from every reset until the endpoint leaves it. -/
def State.pcieIdle (s : State) : Bool := s.board.held || !s.board.perstN || !s.domOn 18

/-- The data register that the TAP's instruction puts between TDI and TDO (R54, R55). -/
inductive TapData where
  | bypass
  | idcode (v : Word)
  | boundary (cells : List (Land × Bool))
  deriving DecidableEq, Repr

/-- The TAP's IDCODE (R54). -/
def tapIdcode : Word := 0x104707D7

/-- The output lands that show a level. -/
def State.sampled (s : State) : List (Land × Bool) :=
  let lands := (List.range 3).flatMap (fun n => (List.range 3).map fun k => Land.lampCtl (Fin.ofNat 3 n) (Fin.ofNat 3 k))
    ++ (List.range 4).map (fun k => Land.ppsOut (Fin.ofNat 4 k))
    ++ [.rgmiiTxc, .rgmiiTxCtl] ++ (List.range 4).map (fun k => Land.rgmiiTxd (Fin.ofNat 4 k))
    ++ [.mdc, .mdio, .uartTx, .pwrGood, .faultN, .tempAlertN, .wakeN]
  lands.filterMap fun l =>
    match s.land l with
    | some .low => some (l, false)
    | some .high => some (l, true)
    | _ => none

/-- What a scan shifts out (R54, R55): SAMPLE/PRELOAD and EXTEST capture the lands, IDCODE the code, every other
instruction the bypass register. -/
def State.tapData (s : State) : TapData :=
  match s.board.tap with
  | .idcode => .idcode tapIdcode
  | .sample | .extest => .boundary s.sampled
  | .bypass | .clamp | .highz => .bypass

end Sys2Proof.Machine
end

