-- ==== Sys2Proof/WellFormed.lean ====
section
/-! DEFINITION. Which commands are well formed: those whose operands the spec admits. Machine meanings do not rest on it. -/
namespace Sys2Proof


/-- An instruction of a core's profile that has an encoding (R221, R258). -/
def wickOk (co : Core) (i : WInstr) : Bool :=
  match co with
  | .wick _ => i.wf && !i.sOnly
  | .lantern _ => i.wf && !i.wOnly

/-- Widths of a fabric access in bytes. -/
def widthOk (n : Nat) : Bool := n == 1 || n == 2 || n == 4

/-- Samples within the saturation of a sample word (R139). -/
def samplesOk (top : Nat) (l : List (Int × Int)) : Bool :=
  l.all fun x => decide (x.1.natAbs ≤ top) && decide (x.2.natAbs ≤ top)

/-- A frame that a port can report: not empty and within the longest frame it counts (R366). -/
def frameOk (f : List Byte) : Bool := !f.isEmpty && decide (f.length ≤ 65536)

/-- A soft-export body (R183, R184). -/
def bodyOk (b : List Byte) : Bool := decide (0x20 ≤ b.length) && decide (b.length ≤ 8192)

/-- A transaction lies in one granule (R349). -/
def dramOk : DramOp → Bool
  | .readArrives _ a n => decide (0 < n) && decide (a / 64 = (a + n - 1) / 64)
  | .writeArrives _ a b => !b.isEmpty && decide (a / 64 = (a + b.length - 1) / 64)
  | .serve _ => true

/-- A command whose operands the spec admits. -/
def instrWf : Instr → Bool
  | .registerWrite _ _ _ n _ => widthOk n.val || n.val == 8
  | .rcRead _ _ _ n => widthOk n.val || n.val == 8
  | .lowRead _ _ _ => true
  | .vinRise _ _ => true
  | .vinLockoutFall _ => true
  | .powerFailWarning _ => true
  | .overvoltageShutoff _ => true
  | .overvoltageRelease _ => true
  | .breakerTrip _ => true
  | .breakerRetry _ => true
  | .hsEnLow _ => true
  | .hsEnRise _ => true
  | .pwrGoodRise _ _ => true
  | .supplyFault _ => true
  | .referenceAbsentTimeout _ => true
  | .internalResetRelease _ _ => true
  | .resetNAssert _ _ _ => true
  | .resetNRise _ => true
  | .softCold _ _ _ => true
  | .softWarm _ _ => true
  | .perstFall _ => true
  | .perstRise _ => true
  | .pcieLinkChange _ _ => true
  | .tempAlertSet _ _ => true
  | .tempAlertClear _ _ => true
  | .thermalTrip _ _ => true
  | .thermalTripRecovery _ _ => true
  | .referenceLoss _ => true
  | .referenceRecovery _ => true
  | .supplySample _ _ _ => true
  | .lidTemperatureSample _ _ _ _ _ => true
  | .tapInstructionUpdate _ l => decide (l.cells.map (·.1)).Nodup
  | .ntimSet _ _ => true
  | .ntimStep _ _ => true
  | .slew _ _ => true
  | .cancelSlew _ _ => true
  | .slewComplete _ => true
  | .ntimRateWrite _ _ _ => true
  | .ntimModeWrite _ _ _ => true
  | .ntimHoldWrite _ _ _ => true
  | .beaconMissed _ => true
  | .beaconReceive _ _ => true
  | .ppsArm _ _ _ _ => true
  | .ppsDisarm _ _ _ _ => true
  | .ppsEdge _ _ => true
  | .ppsPulseEnd _ _ => true
  | .compareArm _ _ _ _ => true
  | .compareFire _ _ => true
  | .capture _ _ _ => true
  | .capLoRead _ _ _ => true
  | .capWindowClose _ _ _ => true
  | .reqOff _ _ _ _ => true
  | .reqStandby _ _ _ _ => true
  | .reqRx _ _ _ _ => true
  | .lampPowerUpComplete _ _ => true
  | .rxSettleComplete _ _ => true
  | .lampTuneWrite _ _ _ _ => true
  | .settleComplete _ _ => true
  | .lockFail _ _ => true
  | .synthRecompute _ _ => true
  | .foregroundCalibration _ _ _ _ => true
  | .calStepComplete _ _ => true
  | .calReturnComplete _ _ => true
  | .backgroundCalStep _ _ => true
  | .calDue _ _ _ => true
  | .lbtListenStart _ _ => true
  | .lbtListenEnd _ _ powers => !powers.isEmpty
  | .rxToTxStart _ _ _ => true
  | .rxToTxEnd _ _ => true
  | .transmissionEnd _ _ => true
  | .txToRxEnd _ _ => true
  | .pairForm _ _ _ => true
  | .pairAlignComplete _ => true
  | .pairDissolve _ _ _ => true
  | .seamAlignComplete _ => true
  | .preambleDeclaration _ _ adc _ partner _ _ _ => samplesOk 8191 adc && samplesOk 8191 partner.adc
  | .contextAllocate _ q => !q.streams.isEmpty
  | .activation _ _ => true
  | .holdExpiry _ _ => true
  | .searchEnable _ _ _ _ => true
  | .blockWrite _ _ xs => !xs.isEmpty
  | .contextOverrun _ _ => true
  | .setEnd _ _ _ _ => true
  | .consumed _ _ _ _ => true
  | .setSync _ _ _ _ => true
  | .setMod _ _ _ _ => true
  | .release _ _ _ _ => true
  | .syncTimeout _ _ => true
  | .headerTimeout _ _ => true
  | .maskCheck _ _ base => decide (base.length % 256 = 0)
  | .mantSubmit _ _ _ => true
  | .mantJobDispatch _ => true
  | .decHdr _ _ => true
  | .decPay _ _ => true
  | .encHdr _ _ => true
  | .encPay _ _ => true
  | .mantAbort _ _ _ => true
  | .storeEntryExpiry _ _ => true
  | .expLate _ => true
  | .mantPairEnable _ _ _ _ => true
  | .importBody _ body => bodyOk body
  | .addressingBlockRead _ _ => true
  | .commit _ _ => true
  | .lateDecision _ _ => true
  | .ackTransmitCommand _ _ => true
  | .register _ _ => true
  | .update _ _ _ => true
  | .nbrRead _ _ _ => true
  | .remove _ _ _ => true
  | .purge _ _ _ => true
  | .nbrLoad _ _ => true
  | .nbrExport _ _ => true
  | .enqueue _ _ _ => true
  | .dequeue _ _ _ => true
  | .nbrEnable _ _ _ => true
  | .lanternRun _ _ _ _ => true
  | .wickRun _ _ _ => true
  | .wickHaltRequest _ _ _ => true
  | .dmemDataAccess _ _ _ _ => true
  | .imemDataWrite _ _ _ _ => true
  | .imageLoad _ _ _ => true
  | .longOperationStep _ _ => true
  | .add co dd da db => wickOk co (.alu .add dd da db)
  | .sub co dd da db => wickOk co (.alu .sub dd da db)
  | .adc co dd da db => wickOk co (.alu .adc dd da db)
  | .sbc co dd da db => wickOk co (.alu .sbc dd da db)
  | .and co dd da db => wickOk co (.alu .and dd da db)
  | .or co dd da db => wickOk co (.alu .or dd da db)
  | .xor co dd da db => wickOk co (.alu .xor dd da db)
  | .andn co dd da db => wickOk co (.alu .andn dd da db)
  | .lsl co dd da db => wickOk co (.alu .lsl dd da db)
  | .lsr co dd da db => wickOk co (.alu .lsr dd da db)
  | .asr co dd da db => wickOk co (.alu .asr dd da db)
  | .ror co dd da db => wickOk co (.alu .ror dd da db)
  | .min co dd da db => wickOk co (.alu .min dd da db)
  | .max co dd da db => wickOk co (.alu .max dd da db)
  | .abs co dd da => wickOk co (.alu .abs dd da 0)
  | .neg co dd da => wickOk co (.alu .neg dd da 0)
  | .mov co dd da => wickOk co (.alu .mov dd da 0)
  | .cmp co da db => wickOk co (.alu .cmp 0 da db)
  | .tst co da db => wickOk co (.alu .tst 0 da db)
  | .norm co dd da => wickOk co (.alu .norm dd da 0)
  | .mul co dd da db => wickOk co (.alu .mul dd da db)
  | .mpyr co dd da db => wickOk co (.alu .mpyr dd da db)
  | .sxb co dd da => wickOk co (.alu .sxb dd da 0)
  | .zxb co dd da => wickOk co (.alu .zxb dd da 0)
  | .addi co dd da imm => wickOk co (.imm .addi dd da imm)
  | .andi co dd da imm => wickOk co (.imm .andi dd da imm)
  | .ori co dd da imm => wickOk co (.imm .ori dd da imm)
  | .xori co dd da imm => wickOk co (.imm .xori dd da imm)
  | .shi co kind dd da count => wickOk co (.shi kind dd da count)
  | .cmpi co da imm => wickOk co (.imm .cmpi 0 da imm)
  | .ldi co dd imm => wickOk co (.ldi dd imm)
  | .ldhi co dd imm => wickOk co (.ldhi dd imm)
  | .ld co reg m pk => wickOk co (.mem false reg m pk)
  | .st co reg m pk => wickOk co (.mem true reg m pk)
  | .lda co reg a => wickOk co (.memAbs false reg a)
  | .sta co reg a => wickOk co (.memAbs true reg a)
  | .dmov co a b => wickOk co (.dmov a b)
  | .mac co d1 d2 acc => wickOk co (.mac d1 d2 acc)
  | .msu co d1 d2 acc => wickOk co (.msu d1 d2 acc)
  | .mpa co d1 d2 acc => wickOk co (.mpa d1 d2 acc)
  | .clra co acc => wickOk co (.clra acc)
  | .ext co d1 acc sh => wickOk co (.ext d1 acc sh)
  | .movad co d1 acc w => wickOk co (.movad d1 acc w)
  | .movda co d1 acc w ins => wickOk co (.movda d1 acc w ins)
  | .adda co acc x => wickOk co (.adda acc x)
  | .suba co acc x => wickOk co (.suba acc x)
  | .sha co acc sh => wickOk co (.sha acc sh)
  | .nega co acc => wickOk co (.nega acc)
  | .absa co acc => wickOk co (.absa acc)
  | .sat48 co acc => wickOk co (.sat48 acc)
  | .mac2 co sx sy accX accY da db dc de => wickOk co (.mac2 sx sy accX accY da db dc de)
  | .paddi co pk imm => wickOk co (.paddi pk imm)
  | .pldi co pk imm => wickOk co (.pldi pk imm)
  | .movdp co pk da => wickOk co (.movdp pk da)
  | .movpd co pk dd => wickOk co (.movpd pk dd)
  | .cbset co k da db => wickOk co (.cbset k da db)
  | .cbget co k dd h => wickOk co (.cbget k dd h)
  | .movdl co l da => wickOk co (.movdl l da)
  | .movld co l dd => wickOk co (.movld l dd)
  | .movdw co da => wickOk co (.movdw da)
  | .movwd co dd => wickOk co (.movwd dd)
  | .movrd co dd => wickOk co (.movrd dd)
  | .br co cond target => wickOk co (.br cond target)
  | .jal co pk target => wickOk co (.jal pk target)
  | .jr co pk => wickOk co (.jr pk)
  | .loopi co lc rot count off => wickOk co (.loopi lc rot count off)
  | .loopr co lc rot dc e => wickOk co (.loopr lc rot dc e)
  | .nop co => wickOk co .nop
  | .rot co => wickOk co .rot
  | .halt co => wickOk co .halt
  | .twait co => wickOk co .twait
  | .tend co d => wickOk co (.tend d)
  | .tid co d => wickOk co (.tid d)
  | .dmawt co d ch => wickOk co (.dmawt d ch)
  | .dmast co d ch => wickOk co (.dmast d ch)
  | .fence co => wickOk co .fence
  | .dma co ch out mode pk n dc => wickOk co (.dma ch out mode pk n dc)
  | .dmaComplete _ _ _ => true
  | .fld _ co m n => wickOk co (.fld m n)
  | .fst _ co m n => wickOk co (.fst m n)
  | .tnow _ co k => wickOk co (.tnow k)
  | .tget co d k p => wickOk co (.tget d k p)
  | .tput co d k p => wickOk co (.tput d k p)
  | .tadd co k j d u => wickOk co (.tadd k j d u)
  | .tsub co d k j => wickOk co (.tsub d k j)
  | .tmov co k j => wickOk co (.tmov k j)
  | .twaitu _ co k => wickOk co (.twaitu k)
  | .twaituComplete _ _ => true
  | .rcmdTransmit _ co dd pk tmS tmD => wickOk co (.rcmd dd pk tmS tmD)
  | .rcmdGapOffer _ co dd pk tmS tmD => wickOk co (.rcmd dd pk tmS tmD)
  | .rstat _ co dd ds wait => wickOk co (.rstat dd ds wait)
  | .place _ co r di b ovr cls tmS tmD tmU => wickOk co (.place r di b ovr cls tmS tmD tmU)
  | .buildPoll _ co dd pk tm => wickOk co (.build dd pk tm)
  | .buildDownlink _ co dd pk tm => wickOk co (.build dd pk tm)
  | .buildBeacon _ co dd pk tm => wickOk co (.build dd pk tm)
  | .nbrInstrRead _ co r di w dc => wickOk co (.nbr r di false w dc)
  | .nbrInstrWrite _ co r di w dc => wickOk co (.nbr r di true w dc)
  | .descriptorWrite _ _ _ _ _ => true
  | .arm _ _ _ => true
  | .advance _ _ _ => true
  | .chndAbort _ _ _ => true
  | .delay _ _ _ => true
  | .free _ _ _ => true
  | .flagSet _ _ _ => true
  | .dispatch _ => true
  | .preemption _ => true
  | .resume _ _ => true
  | .delayWake _ => true
  | .orderedRelease _ _ => true
  | .chandlerEnable _ _ _ => true
  | .ciphSubmit _ _ _ => true
  | .jobAdmission _ => true
  | .cbcEncrypt _ _ => true
  | .cbcDecrypt _ _ => true
  | .cfbEncrypt _ _ => true
  | .cfbDecrypt _ _ => true
  | .ctr _ _ => true
  | .ccmEncrypt _ _ => true
  | .ccmDecrypt _ _ => true
  | .cmacGenerate _ _ => true
  | .cmacVerify _ _ => true
  | .ciphAbort _ _ _ => true
  | .generate _ _ _ => true
  | .loadSplit _ _ _ => true
  | .stagedComponentExpiry _ => true
  | .loadPlain _ _ _ => true
  | .unwrap _ _ _ => true
  | .wrapOut _ _ _ => true
  | .erase _ _ _ => true
  | .setLimit _ _ _ => true
  | .keyStatus _ _ _ => true
  | .recInval _ _ _ => true
  | .recErase _ _ _ => true
  | .flush _ _ _ => true
  | .rootSet _ _ _ => true
  | .rewrap _ _ _ => true
  | .cipherEnable _ _ _ => true
  | .approvedWrite _ _ => true
  | .tamperAlarm _ _ => true
  | .attest _ _ => true
  | .verify _ _ => true
  | .selftest _ _ => true
  | .secRngRead _ _ => true
  | .healthTestFailure _ => true
  | .dramTransaction _ op => dramOk op
  | .patrolScrub _ _ _ => true
  | .refresh _ _ => true
  | .refreshRateChange _ => true
  | .zqCalibration _ _ => true
  | .dramTraining _ _ _ => true
  | .caParityAlert _ _ _ => true
  | .rankFenceWrite _ _ _ => true
  | .selfRefreshRequest _ _ _ => true
  | .selfRefreshEntry _ => true
  | .portCfgWrite _ _ _ _ => true
  | .portEnable _ _ _ _ => true
  | .linkChange _ _ _ _ _ _ _ _ _ => true
  | .frameReceive _ _ f _ _ => frameOk f
  | .pauseEnd _ _ => true
  | .pauseXoff _ _ _ => true
  | .pauseRepeat _ _ _ => true
  | .pauseXon _ _ _ => true
  | .pauseSend _ _ _ _ => true
  | .transmitFrameFetch _ _ _ => true
  | .frameAdmission _ => true
  | .transmitSelection _ _ => true
  | .frameTransmitComplete _ _ => true
  | .mdio _ _ _ => true
  | .mdioDone _ _ => true
  | .routeSet _ _ => true
  | .routeDel _ _ _ => true
  | .routeRead _ _ _ => true
  | .neighSet _ _ => true
  | .neighDel _ _ _ => true
  | .neighRead _ _ _ => true
  | .recordArrival _ => true
  | .datagramFlush _ => true
  | .encapsulationEnable _ _ _ => true
  | .flowRelease _ => true
  | .flowRateWrite _ _ _ _ => true
  | .flowBurstWrite _ _ _ _ => true
  | .policerRateWrite _ _ _ _ _ => true
  | .gateEntryBoundary _ _ => true
  | .commitGcl _ _ _ => true
  | .abortGcl _ _ _ => true
  | .gclSwitchOver _ _ => true
  | .ember _ _ => true
  | .domainAnswer _ _ => true
  | .domainAckTimeout _ => true
  | .emberEntered _ => true
  | .wakeEvent _ _ => true
  | .wakeStepReady _ _ => true
  | .wakeStepTimeout _ => true
  | .domOff _ _ _ => true
  | .domOn _ _ _ => true
  | .unitSet _ _ => true
  | .sysSvnBurn _ _ _ => true
  | .storeBusError _ _ => true
  | .mailboxTailWrite _ _ => true
  | .hello _ => true
  | .getInfo _ => true
  | .mbxAbort _ => true
  | .boot _ => true
  | .unitGet _ => true
  | .calRead _ => true
  | .calWrite _ => true
  | .journalRead _ => true
  | .journalAppend _ data _ => decide (data.length < 65536)
  | .norErase _ => true
  | .sramScrub _ _ _ => true
  | .telemetrySample _ => true
  | .bgCalSecond _ => true
  | .cluImport _ _ _ => true
  | .clusterHello _ _ _ => true
  | .helloAck _ _ _ _ => true
  | .maskPropose _ _ _ _ _ _ => true
  | .maskCommit _ _ _ _ _ => true
  | .maskApply _ => true
  | .keepalive _ _ _ _ => true
  | .softExport _ _ _ => true
  | .snap _ _ _ => true
  | .gapOfferEnd _ _ => true
  | .consoleImageBlock _ _ data _ => decide (data.length ≤ 1024)
  | .interruptClaim _ _ _ => true

end Sys2Proof
end

