-- ==== Sys2Proof/Tests/Slice0.lean ====
section
/-! SUPPORT. The model's own tests: ill-formed commands, words of the Wick instruction set written out from the spec's
encoding tables, and for every statement states and operands that meet its hypotheses. -/
namespace Sys2Proof.Tests
open Sys2Proof Sys2Proof.Machine

/-- The state after command `c`. -/
def after (c : Instr) (s : State) : State :=
  match exec c s with
  | .next u => u
  | _ => s

def s0 : State := State.reset
/-- Hart 0 in machine mode: its accesses reach the fabric from reset. -/
def m : Ini := .hart 0 .machine
/-- Reset with DRAM rank 0 trained and in service. -/
def dramUp : State :=
  { (s0.setReg (SYS_UNIT_MGMT 0x38) 1).setReg (SYS_UNIT_DP 0x38) 1 with dmc := { s0.dmc with trained0 := true } }

/-- Reset with lamp 0 as `f` makes it. -/
def lampIs (f : Lamp → Lamp) : State := s0.setLamp 0 (f (s0.lamp 0))

/-! ### Network time and timers -/

theorem wit_NetworkTimeCommands : let s := s0.setReg NTIM_ARG_NS 999999999
    s.opens m NTIM_CMD ∧ s.ntMode ≠ 2 ∧ (s.reg NTIM_ARG_NS).toNat < 1000000000 := by decide
theorem wit_NetworkTimeCommands_refused : let s := s0.setReg NTIM_SRC_CTL 2; let r := s0.setReg NTIM_ARG_NS 1000000000
    s.opens m NTIM_CMD ∧ s.opens m NTIM_RATE ∧ s.ntMode = 2 ∧ r.opens m NTIM_CMD ∧ r.ntMode ≠ 2 ∧
      1000000000 ≤ (r.reg NTIM_ARG_NS).toNat := by decide
theorem wit_NetworkTimeRate : s0.runs 0 ∧ s0.opens m NTIM_RATE ∧ s0.ntMode ≠ 2 ∧ (s0.at 7).slewFine = 0 := by decide
theorem wit_NetworkTimeRate_modes : let p := s0.setReg NTIM_SRC_CTL 1; let u := after (.ntimModeWrite 9 m 0) p
    p.opens m NTIM_SRC_CTL ∧ p.ntMode = 1 ∧ u.ntMode ≠ p.ntMode ∧ u.ntMode ≠ 1 ∧ s0.ntMode ≠ 1 ∧ s0.opens m NTIM_SRC_CTL ∧
      (after (.ntimModeWrite 9 m 0x101) s0).ntMode = 1 ∧ bit 0x101 8 = true ∧ p.rb NTIM_SRC_CTL 8 = false := by decide
theorem wit_Beacons_missed : ∀ n ∈ [1, 2],
    let s := { s0.setReg NTIM_SRC_CTL 2 with ntim := { s0.ntim with lastAccept := some 0, missed := n } }
    let t := 2000000000000
    s.runs 0 ∧ s.ntMode = 2 ∧ s.ntim.missed = n ∧ s.ntim.lastAccept = some 0 ∧
      (0 : Int) + (s.ntim.windows + 1) * (s.at t).bcnPeriod + min (s.at t).bcnHalf ((s.at t).bcnPeriod / 2) ≤ (s.at t).now := by decide
def pulses (period width : Word) (p : Pps) : State :=
  ((s0.setReg (NTIM_PPS_PERIOD 3) period).setReg (NTIM_PPS_WIDTH 3) width).setPps 3 p
theorem wit_TimerChannels_arm : let s := pulses 2 1 {}; let b := pulses 1 1 {}; let o := pulses 0 1 {}; let z := pulses 0 0 {}
    s.runs 0 ∧ s.opens m (NTIM_PPS_CTL 3) ∧ (s.ppsOf 3).running = false ∧ (s.reg (NTIM_PPS_WIDTH 3)).toNat ≠ 0 ∧
      (s.reg (NTIM_PPS_WIDTH 3)).toNat < (s.reg (NTIM_PPS_PERIOD 3)).toNat ∧ (s.at 0).now ≤ s.ppsStart 3 ∧
      s.ppsStart 3 < (s.at 5).now ∧ (s.reg (NTIM_PPS_PERIOD 3)).toNat ≠ 0 ∧
      (o.ppsOf 3).running = false ∧ (o.reg (NTIM_PPS_WIDTH 3)).toNat ≠ 0 ∧ (o.reg (NTIM_PPS_PERIOD 3)).toNat = 0 ∧
      o.ppsStart 3 < (o.at 1).now ∧ (z.reg (NTIM_PPS_WIDTH 3)).toNat = 0 ∧
      (b.ppsOf 3).running = false ∧ (b.reg (NTIM_PPS_PERIOD 3)).toNat ≤ (b.reg (NTIM_PPS_WIDTH 3)).toNat := by decide
theorem wit_TimerChannels_edge : let s := pulses 2 1 ⟨true, false, some 4, 2, 1, none⟩
    let e := pulses 2 1 ⟨true, true, some 6, 2, 1, some 5⟩
    (s.ppsOf 3).running = true ∧ (s.ppsOf 3).pulseEnd = none ∧ (s.ppsOf 3).next = some 4 ∧ 4 ≤ (s.at 4).now ∧
      (e.ppsOf 3).running = true ∧ (e.ppsOf 3).pulseEnd = some 5 ∧ 5 ≤ (e.at 5).now ∧ (e.ppsOf 3).stopping = true := by decide
def channel (ctl : Word) (c : TmrCh) : State := (s0.setReg (TMR_CH_CTL 31) ctl).setTch 31 c
theorem wit_TimerChannels_compare : let s := (channel 2 { armed := true }).setReg (TMR_CH_PERIOD 31) 1
    let c := (channel 0x0A800001 { armed := true }).setReg (TMR_CH_CTL 10) 1
    s.runs 0 ∧ s.opens m (TMR_CH_CMP 31) ∧ s.tmode 31 = 2 ∧ (s.tch 31).armed = true ∧
      (BitVec.ofNat 32 (s.at 0x7FFFFFFF).raw - s.reg (TMR_CH_CMP 31)).toNat < 2 ^ 31 ∧ s.rb (TMR_CH_CTL 31) 23 = false ∧
      s.reg (TMR_CH_PERIOD 31) ≠ 0 ∧ (s.at 0x7FFFFFFF).fires 31 = true ∧ (s.at 0x80000000).fires 31 = false ∧
      c.tmode 31 = 1 ∧ (c.tch 31).armed = true ∧ c.rb (TMR_CH_CTL 31) 23 = true ∧ c.rf (TMR_CH_CTL 31) 28 24 = 10 ∧
      c.tmode 10 = 1 ∧ (channel 0 {}).tmode 31 = 0 := by decide
theorem wit_TimerChannels_capture : let s := channel 0x303 {}; let w := channel 0x303 { window := some 1000, shadow := some 9 }
    let b := channel 0x303 { before := some (7, 5, 0) }
    s.runs 0 ∧ s.opensRead m (TMR_CH_CAP_LO 31) ∧ s.opensRead m (TMR_CH_CAP_HI 31) ∧ s.tmode 31 = 3 ∧
      s.rf (TMR_CH_CTL 31) 12 8 = 3 ∧ s.rf (TMR_CH_CTL 31) 5 4 ≠ 1 ∧ (s.tch 31).window = none ∧ (s.tch 31).before = none ∧
      b.opensRead m (TMR_CH_CAP_LO 31) ∧ (b.tch 31).window = none ∧ (b.tch 31).before = some ((b.at 7).raw, 5, 0) ∧
      w.tmode 31 = 3 ∧ (w.tch 31).window = some 1000 ∧ (w.at 999).raw < 1000 ∧ w.opensRead m (TMR_CH_CAP_HI 31) ∧
      (w.tch 31).shadow ≠ none ∧ 1000 ≤ (w.at 1000).raw := by decide

/-! ### Lamps -/

theorem wit_LampRequests : let s := s0.setReg (LAMP_TUNE 0) 868000
    let r := (lampIs fun l => { l with st := .standby, calValid := 0xF, locked := true, centre := 150000000 }).setReg
      (LAMP_TUNE 0) 150000
    let u := (lampIs fun l => { l with st := .standby, calValid := 0xF }).setReg (LAMP_TUNE 0) 2700000
    let e := lampIs fun l => { l with st := .settle }; let p := { s0 with pair := { formed := true, lower := 0 } }
    s.opens m (LAMP_STATE_CTL 0) ∧ s.inService 0 = true ∧ s.pair.formed = false ∧ (s.lamp 0).calRun = none ∧
      (s.lamp 0).st = .off ∧ (s.lamp 0).calValid ≠ 0xF ∧ p.isUpper 1 = true ∧ p.opens m (LAMP_STATE_CTL 1) ∧
      p.inService 1 = true ∧ (e.lamp 0).st = .settle ∧ (e.lamp 0).calRun = none ∧
      r.opens m (LAMP_STATE_CTL 0) ∧ r.inService 0 = true ∧ r.pair.formed = false ∧ (r.lamp 0).calRun = none ∧
      (r.lamp 0).st = .standby ∧ (r.lamp 0).calValid = 0xF ∧ 150000 ≤ r.rf (LAMP_TUNE 0) 21 0 ∧
      r.rf (LAMP_TUNE 0) 21 0 ≤ 2700000 ∧ (r.lamp 0).locked = true ∧
      (r.lamp 0).centre = r.rf (LAMP_TUNE 0) 21 0 * 1000 ∧ (r.lamp 0).move = .idle ∧
      (u.lamp 0).locked = false ∧ u.board.refOk = true ∧ u.rf (LAMP_TUNE 0) 21 0 ≤ 2700000 := by decide
theorem wit_LampRequests_starts : let p := lampIs fun l => { l with move := .powerUp }
    let r := lampIs fun l => { l with st := .standby, move := .rxSettle, due := 5000 }
    p.runs 1 ∧ (p.lamp 0).reqWait = none ∧ (p.lamp 0).st = .off ∧ (p.lamp 0).move = .powerUp ∧
      (r.lamp 0).st = .standby ∧ (r.lamp 0).move = .rxSettle ∧ (r.lamp 0).due ≤ (r.at 5000).clk ∧
      (r.lamp 0).retuneWait = false ∧ (r.lamp 0).calHeld = 0 ∧ (r.lamp 0).reqWait = none := by decide
def pairable : State :=
  (s0.setLamp 1 { st := .standby, calValid := 0xF }).setLamp 2 { st := .standby, calValid := 0xF }
theorem wit_LampRequests_pairs : let f := { pairable with pair := { formed := true, lower := 1, seamDue := some 9 } }
    let a := { pairable with pair := { lower := 1, aligning := some 0, alignDue := 200000 } }
    pairable.opens m (LAMP_STATE_CTL 1) ∧ pairable.inService 1 = true ∧ fld 2 1 0 = 2 ∧ pairable.pair.formed = false ∧
      pairable.pair.aligning = none ∧ (∀ m ∈ [2 - 1, 2], (pairable.lamp m).st = .standby ∧
        (pairable.lamp m).move = .idle ∧ (pairable.lamp m).calValid = 0xF ∧ pairable.inService m = true) ∧
      f.opens m (LAMP_STATE_CTL 1) ∧ f.inService 1 = true ∧ f.pair.formed = true ∧ fld 3 1 0 ≠ 0 ∧
      (∀ m ∈ [f.pair.lower, f.pair.lower + 1], (f.lamp m).st = .rx ∨ (f.lamp m).st = .standby) ∧
      a.runs 2 ∧ a.pair.aligning.isSome = true ∧ a.pair.alignDue ≤ (a.at 200000).clk ∧ a.opens m (LAMP_STATE_CTL 1) ∧
      f.runs 4 ∧ f.pair.seamDue = some 9 ∧ 9 ≤ (f.at 9).clk := by decide
theorem wit_LampTuning : let r := lampIs fun l => { l with st := .rx }; let x := lampIs fun l => { l with st := .tx }
    let e := lampIs fun l => { l with st := .settle, move := .settle, due := 40000, locked := true, centre := 868000000 }
    let o := lampIs fun l => { l with st := .settle, move := .settle, reqWait := some 0 }
    r.runs 1 ∧ r.pair.formed = false ∧ r.opens m (LAMP_STATE_CTL 0) ∧ r.inService 0 = true ∧ (r.lamp 0).st = .rx ∧
      (r.lamp 0).partnerTx = false ∧ r.board.refOk = true ∧ x.opens m (LAMP_STATE_CTL 0) ∧ (x.lamp 0).st = .tx ∧
      e.runs 1 ∧ e.pair.formed = false ∧ (e.lamp 0).st = .settle ∧ (e.lamp 0).move = .settle ∧ e.board.refOk = true ∧
      (e.lamp 0).due ≤ (e.at 40000).clk ∧ (e.lamp 0).reqWait = none ∧ (e.lamp 0).retuneWait = false ∧
      (e.lamp 0).calHeld = 0 ∧ (e.lamp 0).settleAt + 200000 ≤ (e.at 200000).clk ∧ (e.lamp 0).reqWait ≠ some 0 ∧
      (o.lamp 0).st = .settle ∧ (o.lamp 0).move = .settle ∧ (o.lamp 0).settleAt + 200000 ≤ (o.at 200000).clk ∧
      (o.lamp 0).reqWait = some 0 ∧
      (e.lamp 0).locked = true ∧ (e.lamp 0).synthAt + 100000000 ≤ (e.at 100000000).clk ∧ 0 ≤ (e.lamp 0).centre := by decide
theorem wit_LampTuning_calibration : let r := lampIs fun l => { l with st := .rx }
    let c : CalRun := ⟨true, 1, 0, calSteps 0 - 1, .standby⟩
    let k := lampIs fun l => { l with st := .cal, calRun := some c, move := .calStep, due := 9 }
    let e := lampIs fun l => { l with st := .cal, calRun := some c, move := .calReturn, due := 9 }
    let b := ((lampIs fun l => { l with st := .rx, calDue := 1, gaps := [⟨.lantern 0 0, 0, 200000, 110000⟩] }).setRb
      (LAMP_CAL_CTL 0) 8 true).setReg SYS_BG_CAL 1
    r.opens m (LAMP_STATE_CTL 0) ∧ r.inService 0 = true ∧ (r.lamp 0).calRun = none ∧ (r.lamp 0).st = .rx ∧
      r.board.refOk = true ∧ calFirst (BitVec.ofNat 4 (fld 8 3 0)) = some 3 ∧
      k.runs 1 ∧ (k.lamp 0).calRun = some c ∧ c.fore = true ∧ (k.lamp 0).move = .calStep ∧ (k.lamp 0).due ≤ (k.at 9).clk ∧
      calSteps c.cur ≤ c.done + 1 ∧ calFirst (c.sel &&& ~~~(1#4 <<< c.cur)) = none ∧ 0 + 1 < calSteps 0 ∧
      e.runs 1 ∧ (e.lamp 0).calRun = some c ∧ c.former = .standby ∧ (e.lamp 0).move = .calReturn ∧
      (e.lamp 0).due ≤ (e.at 9).clk ∧ (e.lamp 0).reqWait = none ∧
      b.runs 1 ∧ b.board.refOk = true ∧ calFirst (b.lamp 0).calDue = some 0 ∧ b.rb (LAMP_CAL_CTL 0) 8 = true ∧ (b.lamp 0).st = .rx ∧
      (b.lamp 0).calRun = none ∧ (b.lamp 0).bgSecond < b.rf SYS_BG_CAL 7 0 ∧
      (∃ g ∈ (b.lamp 0).gaps, g.s ≤ (b.at 0).now ∧ (b.at 0).now + 110000 ≤ g.usable) := by decide
/-- A command of Lantern 0 that listens for 5 ms below -80 dBm. -/
def listening (l : Option Nat) : TxCmd :=
  { owner := .lantern 0 0, ack := false, profA := 0x80B00000, profB := 0x10000000, ofs := 0, chan := 868000000, s := 0
    d := 100000000, img := 0x08000000, dur := 1000000, listen := l }
theorem wit_Transmissions_listen : let x := listening none; let y := listening (some 0)
    let s := lampIs fun l => { l with st := .rx, queue := [x] }; let r := lampIs fun l => { l with st := .rx, queue := [y] }
    let g : TxRun := { cmd := { y with ack := true }, start := 0, first := 0, listening := true }
    let a := lampIs fun l => { l with st := .rxToTx, run := some g }
    s.runs 1 ∧ (s.lamp 0).queue = [x] ∧ (s.lamp 0).st = .rx ∧ x.ack = false ∧ x.listens = true ∧ x.clear = none ∧
      x.listen = none ∧ x.lbtFrom ≤ (s.at 0).now ∧ (s.at 0).now + x.listenUs * 1000 + 25000 ≤ x.d ∧
      (r.lamp 0).queue = [y] ∧ y.listens = true ∧ y.listen = some 0 ∧ 0 + y.listenUs * 1000 ≤ (r.at 5000000).clk ∧
      (r.lamp 0).run = none ∧
      (∀ p ∈ [-8001], p < sfld y.profA 23 16 * 100) ∧ (∃ p ∈ [-8000], sfld y.profA 23 16 * 100 ≤ p) ∧
      y.attempt ≠ fld y.profB 31 28 ∧ ({ y with profB := 0 } : TxCmd).attempt = fld 0 31 28 ∧
      a.runs 1 ∧ (a.lamp 0).run = some g ∧ (a.lamp 0).st = .rxToTx ∧ g.listening = true ∧
      g.start + g.cmd.listenUs * 1000 ≤ (a.at 5000000).clk := by decide
/-- A command without listen-before-talk whose image stands in shared SRAM. -/
def plainTx : TxCmd :=
  { owner := .lantern 0 15, ack := false, profA := 0, profB := 0, ofs := 0, chan := 868000000, s := 0
    d := 100000000, img := 0x08000000, dur := 1000000 }
theorem wit_Transmissions : let x := plainTx; let s := lampIs fun l => { l with st := .rx, queue := [x] }
    let r : TxRun := { cmd := x, start := 0, first := 25000, len := 16 }
    let a := lampIs fun l => { l with st := .rxToTx, run := some r, due := 24000 }
    let b := { lampIs fun l => { l with st := .tx, run := some r, due := 25000 } with rtagCnt := [(0, 31)], rtagBase := [(0, 15)] }
    let e := lampIs fun l => { l with st := .txToRx, due := 20000 }
    s.runs 1 ∧ s.pair.formed = false ∧ (s.lamp 0).st = .rx ∧ (s.lamp 0).refLost = false ∧
      (∀ y ∈ (s.lamp 0).queue, (s.at 99975000).now + 25000 ≤ y.d) ∧ (s.at 99975000).starter 0 = some x ∧
      s.imgWord x = some 0 ∧ tapSum (s.shapeSet 0 (bit 0 30)) ≠ 0 ∧ s.imgReads x (imageLen 0) = true ∧ x.listens = false ∧
      a.runs 1 ∧ (a.lamp 0).run = some r ∧ (a.lamp 0).st = .rxToTx ∧ (a.lamp 0).due ≤ (a.at 24000).clk ∧
      r.listening = false ∧ a.imgReads r.cmd r.len = true ∧ b.runs 1 ∧ (b.lamp 0).run = some r ∧ r.cmd.owner = .lantern 0 15 ∧ (b.lamp 0).st = .tx ∧
      (b.lamp 0).due ≤ (b.at 25000).clk ∧ b.imgReads r.cmd r.len = true ∧ tabGet 0 b.rtagBase 0 ≤ 15 ∧
      tabGet 0 b.rtagCnt 0 ≤ 15 + 16 ∧ e.runs 1 ∧ e.pair.formed = false ∧ (e.lamp 0).st = .txToRx ∧
      (e.lamp 0).due ≤ (e.at 20000).clk ∧ (e.lamp 0).goal = .rx ∧ (e.lamp 0).reqWait = none ∧
      (e.lamp 0).retuneWait = false ∧ (e.lamp 0).calHeld = 0 := by decide

/-! ### Lens -/

def det0 : Det := { cls := 0, posBin := 0, posCentre := 0, est := 0, m := 0, p := 1, n := 0, tDecl := 0 }
/-- Lamp 0 in RX since power-on with search 3 enabled on one evaluation with a metric of 1/2, the floors of its two lowest
bins known, DRAM in service and Chandler enabled. -/
def searching : State :=
  { (((((dramUp.setLamp 0 { st := .rx, blank := [] }).setReg (LENS_CTL 0) 1).setReg (LENS_SRCH 0 3) 0x81008000).setReg CHND_CTL
    1).setReg (CHND_POOL_RANGE 0) 0x10000).setReg (LENS_RING_HI 0) 8 with
    lens := [(0, { bins := [(342, { seen := 64 }), (343, { seen := 64 })] })] }
/-- A preamble of class 3 at 6 samples a symbol: up and down 90 degrees a sample in turn, symbol by symbol. -/
def preamble : List Cx := (List.range 109).map fun i =>
  let p := if i % 12 ≤ 6 then i % 12 else 12 - i % 12
  [(1000, 0), (0, 1000), (-1000, 0), (0, -1000)].getD (p % 4) (0, 0)
set_option maxRecDepth 100000 in
theorem wit_LensDetections_declared : let s := searching; let k := s.rf (LENS_SRCH 0 3) 27 24
    s.runs 4 ∧ s.pair.formed = false ∧ s.rb (LENS_CTL 0) 0 = true ∧ s.rb (LENS_SRCH 0 3) 31 = true ∧
      (-1706 : Int) ≤ -1706 ∧ -1706 + clsG 3 - 1 ≤ (1706 : Int) ∧ (-1706 + 1706) % ((clsG 3 / 2 : Nat) : Int) = 0 ∧
      [preamble].length = subCount 3 ∧ (∀ x ∈ [preamble], longEnough (clsFs 3) (clsRs 3) k x.length = true) ∧
      s.delivers 0 = true ∧ (s.at 0).quiet 0 3 k = true ∧
      ((s.at 0).feedLens 0 {}).groupFloor 0 (-1706) (clsG 3) false = 0 ∧ evalsOf 3 k [preamble] ≠ [] ∧
      (∀ e ∈ evalsOf 3 k [preamble],
        evalPasses 3 e 0 (s.rf (LENS_SRCH 0 3) 15 0) (s.rf (LENS_SRCH 0 3) 23 16) = true) ∧
      s.ctxOf 0 = [] ∧ s.pend 0 = [] := by decide +kernel
set_option maxRecDepth 20000 in
theorem wit_LensDetections_queue : let s := (searching.setPend 0 [det0]).setReg (LENS_HOLD 0) 1
    let a := (s.setPend 0 [{ det0 with ctx := some 0 }]).setCtx 0 { st := .held }; let o := s.setReg (LENS_CTL 0) 0
    let q := a.setReg CHND_CTL 0
    s.runs 4 ∧ s.pair.formed = false ∧ s.pend 0 = [det0] ∧ (s.at 1000).worksQueue 0 = true ∧
      (s.at 1000).holdOver 0 det0 = false ∧ det0.ctx = none ∧ s.rb (LENS_CTL 0) 0 = true ∧
      s.ctxOpen 0 < s.ctxLimit 0 ∧ s.unitsUsed 0 + clsCost det0.cls ≤ s.unitCap 0 ∧ s.freeArea 0 = some 0 ∧
      o.pend 0 = [det0] ∧ (o.at 1000).worksQueue 0 = true ∧ (o.at 1000).holdOver 0 det0 = false ∧ o.rb (LENS_CTL 0) 0 = false ∧
      a.pend 0 = [{ det0 with ctx := some 0 }] ∧ a.rb (LENS_CTL 0) 0 = true ∧ (a.at 1000).worksQueue 0 = true ∧
      (a.at 1000).holdOver 0 { det0 with ctx := some 0 } = false ∧
      ((a.at 1000).activate (0 / 1024) 0 0 (a.ctx 0).gen.toNat (a.ctx 0).cls).2 = some 0 ∧
      ((q.at 1000).activate (0 / 1024) 0 0 (q.ctx 0).gen.toNat (q.ctx 0).cls).2 = none ∧ q.rb (LENS_CTL 0) 0 = true ∧
      a.memOk (a.ctxArea 0) = true ∧ a.memOk (a.ctxArea 0 + 63) = true ∧ (s.at 2000).worksQueue 0 = true ∧
      s.rf (LENS_HOLD 0) 12 0 * 1000 < (s.at 2000).raw - det0.tDecl ∧ s.opens m (LENS_CTL 0) ∧
      s.areaIn (s.ringBase 0) 0x2000000 = true ∧ s0.opens m (LENS_CTL 0) ∧ s0.areaIn (s0.ringBase 0) 0x2000000 = false := by decide
def capturing (f : LensCtx → LensCtx) : State :=
  (dramUp.setReg (LENS_RING_HI 0) 8).setCtx 0 (f { st := .live, wr := 8, consumed := 1 })
theorem rank0_memOk {s : State} {a : Nat} (e : s.rankIn 0 = true) (h : 0x800000000 ≤ a) (k : a < 0x900000000) :
    s.memOk a = true := by
  have r : (a - 0x800000000) / 0x100000000 = 0 := by omega
  have d : inDram a = true := by simp [inDram]; omega
  simp [State.memOk, d, r, e]
theorem wit_LensContexts : let s := capturing id; let y := capturing fun c => { c with sync := some 0 }
    let o := capturing fun c => { c with sync := some 0, endAt := some 99 }
    s.runs 4 ∧ (s.ctx 0).st = .live ∧ (s.ctx 0).stopped = false ∧ (s.ctx 0).wr < (s.ctx 0).consumed + 8 ∧
      (s.ctx 0).sampleAt ((s.ctx 0).wr * clsBlock (s.ctx 0).cls + clsBlock (s.ctx 0).cls - 1) + 40000 ≤
        (s.at 60000000000).raw ∧ Memory.wf s.mem = true ∧ (s.ctx 0).lamp < 3 ∧
      (o.ctx 0).lamp < 3 ∧ (o.ctx 0).stopped = false ∧ (o.ctx 0).st = .live ∧ (o.at 60000000000).endDue 0 ≠ some 2 ∧
      (o.at 60000000000).endDue 0 ≠ some 3 ∧ o.runs 4 ∧
      1024 * 1000000000 < ((o.at 60000000000).raw - ((o.ctx 0).sampleAt ((o.ctx 0).wr * clsBlock (o.ctx 0).cls) + 40000)) *
        37500 ∧ (y.ctx 0).lamp < 3 ∧ (s.ctx 0).sync = none ∧
      symbolsPassed (s.ctx 0).cls (s.ctx 0).declLt (s.at 60000000000).raw (s.rf (LENS_LIMITS (s.ctx 0).lamp) 7 0) = true ∧
      y.runs 4 ∧ (y.ctx 0).st = .live ∧ (y.ctx 0).sync = some 0 ∧ (y.ctx 0).endAt = none ∧
      symbolsPassed (y.ctx 0).cls ((y.ctx 0).capLt + 0 * 1000000000 / (256 * clsFs (y.ctx 0).cls) + 40000)
        (y.at 60000000000).raw (y.rf (LENS_LIMITS (y.ctx 0).lamp) 15 8) = true := by decide
theorem wit_LensContexts_area : ∀ o, o < 0x8000 → (capturing id).memOk ((capturing id).ctxArea 0 + o) = true := by
  intro o h
  have a : (capturing id).ctxArea 0 = 0x800000000 := by decide
  rw [a]
  exact rank0_memOk (by decide) (by omega) (by omega)
theorem wit_LensCommands : let s := (capturing id).setReg LENS_CTX_ARG 8; let e := capturing fun c => { c with st := .ended }
    let a := s.setReg LENS_CTX_ARG 0x80000001; let z := capturing fun c => { c with stopped := true, sync := some 0 }
    let b := s.setReg LENS_CTX_ARG 9
    s.opens m LENS_CTX_CMD ∧ (s.ctx 0).st = .live ∧ (s.ctx 0).gen = 0 ∧ (s.ctx 0).stopped = false ∧
      (s.ctx 0).consumed ≤ (s.reg LENS_CTX_ARG).toNat ∧ (s.reg LENS_CTX_ARG).toNat ≤ (s.ctx 0).wr ∧
      (s.ctx 0).sync = none ∧ a.rf LENS_CTX_ARG 19 0 ≠ 0 ∧ a.rf LENS_CTX_ARG 30 20 = 0 ∧ (s.at 0).endDue 0 = none ∧
      (s.at 60000000000).endDue 0 = some 2 ∧ (z.ctx 0).st = .live ∧ z.opens m LENS_CTX_CMD ∧ (z.ctx 0).stopped = true ∧
      (z.ctx 0).sync ≠ none ∧ (b.ctx 0).wr < (b.reg LENS_CTX_ARG).toNat ∧ (z.reg LENS_CTX_ARG).toNat < (z.ctx 0).consumed ∧
      z.rf LENS_CTX_ARG 19 0 = 0 ∧ (s.ctx 0).gen ≠ 1 ∧
      (e.ctx 0).gen = 0 ∧ (e.ctx 0).st = .ended := by decide
/-- `n` zero samples, the sample `x` and zeros up to 2 `n`. -/
def pulseAt (n : Nat) (x : Cx) : List Cx := List.replicate n (0, 0) ++ x :: List.replicate (n - 1) (0, 0)
/-- The window on one sample `x` at place `n`, as long as the sample before it and the rest are zero. -/
theorem hann_pulse (n : Nat) (x : Cx) (h : 2 * n = 256) :
    hann (pulseAt n x) = pulseAt n (cscale x (1073741824 - (expi ((n : Int) * 2 ^ 24)).1) (2 ^ 19)) := by
  have z : ∀ (v : Cx) (i : Nat) (b : i < (pulseAt n v).length), (pulseAt n v)[i] = if i = n then v else (0, 0) := by
    intro v i b
    simp only [pulseAt, List.getElem_append, List.length_replicate, List.getElem_replicate, List.getElem_cons]
    by_cases l : i < n
    · simp [l, show i ≠ n by omega]
    · by_cases e : i = n
      · simp [e]
      · simp [l, e, show ¬i - n = 0 by omega]
  apply List.ext_getElem
  · simp [hann, pulseAt]; omega
  · intro i a b
    simp only [hann, List.getElem_map, List.getElem_zip, List.getElem_range, z]
    by_cases e : i = n <;> simp [e, Laws.cscale_zero]
theorem fft_pulse : fft 8 (pulseAt 128 (4096000, 0)) = (List.replicate 128 [(4096000, 0), (-4096000, 0)]).flatten := by
  have step : ∀ (k n : Nat) (f g : List Cx), fft k (pulseAt n (4096000, 0)) = f → f.length = 2 ^ k →
      evens (pulseAt (2 * n) (4096000, 0)) = pulseAt n (4096000, 0) →
      evens ((pulseAt (2 * n) (4096000, 0)).drop 1) = List.replicate (2 ^ k) (0, 0) → f ++ f = g →
      fft (k + 1) (pulseAt (2 * n) (4096000, 0)) = g := by
    intro k n f g h l e o r
    rw [← r]
    exact Laws.fft_even k _ _ f e h l (by rw [o, Laws.fft_zero k])
  have one : fft 1 (pulseAt 1 (4096000, 0)) = (List.replicate 1 [(4096000, 0), (-4096000, 0)]).flatten := by decide +kernel
  have two := step 1 1 _ ((List.replicate 2 [(4096000, 0), (-4096000, 0)]).flatten) one (by decide) (by decide) (by decide) (by decide)
  have h4 := step 2 2 _ ((List.replicate 4 [(4096000, 0), (-4096000, 0)]).flatten) two (by decide) (by decide) (by decide) (by decide)
  have h8 := step 3 4 _ ((List.replicate 8 [(4096000, 0), (-4096000, 0)]).flatten) h4 (by decide) (by decide) (by decide) (by decide)
  have h16 := step 4 8 _ ((List.replicate 16 [(4096000, 0), (-4096000, 0)]).flatten) h8 (by decide +kernel) (by decide +kernel) (by decide +kernel) (by decide +kernel)
  have h32 := step 5 16 _ ((List.replicate 32 [(4096000, 0), (-4096000, 0)]).flatten) h16 (by decide +kernel) (by decide +kernel) (by decide +kernel) (by decide +kernel)
  have h64 := step 6 32 _ ((List.replicate 64 [(4096000, 0), (-4096000, 0)]).flatten) h32 (by decide +kernel) (by decide +kernel) (by decide +kernel) (by decide +kernel)
  exact step 7 64 _ _ h64 (by decide +kernel) (by decide +kernel) (by decide +kernel) (by decide +kernel)
/-- 64 symbols of baseband at 16 samples per symbol, silent but for one sample. -/
def click : List Cx := pulseAt 128 (1000, 0) ++ List.replicate 768 (0, 0)
theorem spectrum_zero : Machine.spectrum (List.replicate 256 (0, 0)) = List.replicate 256 0 := by
  have h := Laws.fft_zero 8
  simp only [show 2 ^ 8 = 256 from rfl] at h
  simp only [Machine.spectrum, Laws.hann_zero, Nat.min_self, h]
  decide +kernel
theorem spectrum_pulse : Machine.spectrum (pulseAt 128 (1000, 0)) = List.replicate 256 16777216000000 := by
  have c : cscale (1000, 0) (1073741824 - (expi ((128 : Nat) * 2 ^ 24)).1) (2 ^ 19) = (4096000, 0) := by decide +kernel
  simp only [Machine.spectrum, hann_pulse 128 _ rfl, c, fft_pulse]
  decide +kernel
theorem click_spectrum : meanSpectrum click = List.replicate 256 4194304000000 := by
  have a : click.take 256 = pulseAt 128 (1000, 0) := by decide +kernel
  have b : click.drop 256 = List.replicate 768 (0, 0) := by decide +kernel
  have l : click.length = 1024 := by decide +kernel
  simp only [meanSpectrum, l, show 1024 / 256 = 4 from rfl, sumSpectra, a, b, List.length_replicate, List.take_replicate,
    List.drop_replicate, spectrum_pulse, show min 256 768 = 256 from rfl, show 768 - 256 = 512 from rfl,
    show min 256 512 = 256 from rfl, show 512 - 256 = 256 from rfl, show min 256 256 = 256 from rfl, spectrum_zero]
  decide +kernel
/-- A class 0 transmission of lamp 0 under a mask of its two highest bins. -/
def masked (ctl : Word) : State :=
  let r : TxRun := { cmd := plainTx, start := 0, first := 0 }
  ((lampIs fun l => { l with st := .tx, run := some r, due := 1000000000 }).setReg (LENS_MASK_CTL 0) ctl).setReg
    (LENS_MASK 0 0) 0xFE7F0000
theorem wit_SpectralMask : let r : TxRun := { cmd := plainTx, start := 0, first := 0 }; let s := masked 0x180
    let t := 60000000
    s.runs 4 ∧ s.pair.formed = false ∧ (s.lamp 0).run = some r ∧ (s.lamp 0).st = .tx ∧ s.rb (LENS_MASK_CTL 0) 7 = true ∧
      r.maskBad = false ∧ click.length = 1024 ∧ symbolsPassed (imageCls r.img) r.first (s.at t).clk (16 * 4) = true ∧
      symbolsPassed (imageCls r.img) r.first (s.at t).clk (16 * 4 + 16) = false ∧ s.rb (LENS_MASK_CTL 0) 8 = true ∧
      (s.at t).clk < (s.lamp 0).due ∧ (masked 0x80).rb (LENS_MASK_CTL 0) 8 = false := by decide +kernel
theorem wit_SpectralMask_fails : (masked 0x180).maskFails 0 (meanSpectrum click) = true := by
  rw [click_spectrum]
  decide +kernel

/-! ### Chandler -/

def descIs (d : Desc) : State := s0.setDesc 4095 d
theorem wit_DescriptorWrites : let s := descIs {}; let r := descIs { st := .running }
    s.opens m (CHND_DESC 4095 7) ∧ s.opens m (CHND_DESC 4095 0) ∧ (s.desc 4095).st = .free ∧ (7 : Fin 8) ≠ 0 ∧
      r.opens m (CHND_DESC 4095 6) ∧ (r.desc 4095).st ≠ .free := by decide
theorem wit_ChandlerCommands_arm : let s := descIs { thresh := 1, cost := 1 }; let w := descIs { waitFlag := true, cost := 1, flag := 63 }
    let f := { w with chnd := { w.chnd with flags := 1#64 <<< 63 } }
    s.opens m CHND_CMD ∧ w.opens m CHND_CMD ∧ f.opens m CHND_CMD ∧ (s.desc 4095).st = .free ∧ (s.desc 4095).thresh ≠ 0 ∧ (s.desc 4095).cost ≠ 0 ∧ s.inPool 4095 = false ∧
      (s.desc 4095).dep < (s.desc 4095).thresh ∧ ({ thresh := 1, dep := 1 } : Desc).thresh ≤ 1 ∧
      (w.desc 4095).st = .free ∧ (w.desc 4095).waitFlag = true ∧ w.inPool 4095 = false ∧
      w.chnd.flags.getLsbD (w.desc 4095).flag = false ∧ f.chnd.flags.getLsbD (f.desc 4095).flag = true := by decide
theorem wit_ChandlerCommands : let s := (descIs { st := .idle, thresh := 65535 }).setReg CHND_ARG 65535
    let o := (descIs { st := .idle, thresh := 65535 }).setReg CHND_ARG 1; let d := descIs { st := .delayed, dlist := 7 }
    let r := descIs { st := .ready, gen := 255 }; let g := r.setReg CHND_ARG 255; let u := descIs { st := .running }
    s.opens m CHND_CMD ∧ (s.desc 4095).st = .idle ∧ s.rf CHND_ARG 15 0 ≠ 0 ∧ (s.desc 4095).waitFlag = false ∧
      (s.desc 4095).thresh ≤ min 65535 ((s.desc 4095).dep + s.rf CHND_ARG 15 0) ∧
      min 65535 ((o.desc 4095).dep + o.rf CHND_ARG 15 0) < (o.desc 4095).thresh ∧ s.delayRoom 4095 = true ∧
      (g.desc 4095).st = .ready ∧ (g.desc 4095).held = none ∧ (g.desc 4095).gen = BitVec.ofNat 8 (g.rf CHND_ARG 7 0) ∧
      g.opens m CHND_CMD ∧ (r.desc 4095).st ≠ .free ∧ (r.desc 4095).gen ≠ BitVec.ofNat 8 (r.rf CHND_ARG 7 0) ∧
      u.opens m CHND_CMD ∧ (u.desc 4095).st = .running ∧ u.delayRoom 4095 = true ∧
      d.opens m CHND_CMD ∧ (d.desc 4095).st ∈ [DescSt.ready, .delayed] := by decide
def flagged : Desc := { st := .idle, waitFlag := true, flag := 63 }
def delayed : State :=
  { s0 with chnd := { descs := [(4095, { st := .delayed, dlist := 7, since := 0 })], delays := [(7, [4095])] } }
theorem wit_ChandlerWakes : (descIs flagged).chnd.descs = [(4095, flagged)] ∧ (descIs flagged).opens m CHND_FLAG_SET ∧
    flagged.st = .idle ∧ flagged.waitFlag = true ∧ flagged.flag = 63 ∧ s0.chnd.descs = [] ∧ s0.opens m CHND_FLAG_SET ∧
    delayed.runs 16 ∧ tabGet [] delayed.chnd.delays 7 = [4095] ∧ (delayed.desc 4095).dlist = 7 ∧
    (delayed.at 1000).tickDue (delayed.desc 4095).wake = true ∧ (delayed.at 1000).raw / 1000 ≠ delayed.chnd.worked ∧
    (delayed.desc 4095).since < (delayed.at 1000).raw / 1000 ∧ s0.opens m CHND_CTL ∧
    (s0.setReg CHND_CPL_BASE 0x08000000).cplInSram = true ∧ (s0.setReg CHND_CPL_BASE 0x08000000).opens m CHND_CTL := by decide
theorem wit_ChandlerWakes_alone : ∀ m, m ≠ 7 → tabGet [] [(7, [4095])] m = [] := fun m h => by simp [tabGet, Ne.symm h]
/-- Chandler with task 1 READY on list 0, at level 1 with PRE_EN, for cores 0 to 7; list 1 is at level 0. -/
def scheduling (ctl : Word) (c : WCore) : State :=
  { (((s0.setReg CHND_CTL ctl).setReg (CHND_LIST_CFG 0) 0x01001030).setReg (CHND_LIST_CFG 1) 0x01001000).setCore 0 c with
    chnd := { descs := [(1, { st := .ready, cost := 1 }), (2, { st := .running, list := 1, cost := 1 })], ready := [(0, [1])] } }
theorem wit_ChandlerDispatch : let s := scheduling 3 { st := .running, wait := some .dispatch }
    let p := scheduling 5 { st := .running, task := some 2 }
    let f : Frame := ⟨2, 1, [], true⟩
    let r := scheduling 0 { st := .running, wait := some .dispatch, frames := [f] }
    let h := s0.setDesc 0 { st := .running, held := some (.ok, 0, 0) }
    let n := (s0.setReg CHND_CTL 1).setCore 63 { st := .running, wait := some .dispatch }
    s.runs 16 ∧ s.rb CHND_CTL 0 = true ∧ ((s.at 0).offerCores ((List.range 64).filter s.coreWaits)).2 = some (0, 1) ∧
      n.runs 16 ∧ n.rb CHND_CTL 0 = true ∧ n.coreWaits 63 = true ∧
      ((n.at 0).offerCores ((List.range 64).filter n.coreWaits)).2 = none ∧
      p.runs 16 ∧ p.rb CHND_CTL 0 = true ∧ p.rb CHND_CTL 2 = true ∧ p.preemptor = some 1 ∧ p.victim 1 = some 0 ∧
      (p.core 0).task = some 2 ∧ r.runs 16 ∧ (r.core 0).frames.head? = some f ∧ r.coreWaits 0 = true ∧
      r.rb CHND_CTL 0 = false ∧ h.runs 16 ∧ (h.desc 0).held = some (.ok, 0, 0) ∧ h.seqFirst 0 = true := by decide

/-! ### Mantle -/

def mjob (w0 hdr : Word) : MJob :=
  { addr := 0x08002000, w0 := w0, w1 := 0, inA := 0x08000000, outA := 0x08001000, hdr := hdr, syncLt := 0 }
def mantle (m : Mant) : State := { s0 with mant := m }
theorem wit_MantleJobs : let j := mjob 0 0; let e := s0.setReg MANT_CTL 1; let q := mantle { queue := [j] }
    let b := { e with mem := [(0x08000003, 0x40)] }; let r := mantle { run := [{ j with lane := some 23 }] }
    let w := { e with mant := { waiting := [(5, 0, 0)] } }
    e.opens m MANT_SUBMIT ∧ e.rb MANT_CTL 0 = true ∧ e.mant.queue.length < 512 ∧ e.mant.waiting = [] ∧
      ((e.at 0).readJob (fld 0x200000 29 0 * 64)).isSome = true ∧
      (((e.at 0).readJob (fld 0x200000 29 0 * 64)).map MJob.kind) = some 0 ∧ s0.rb MANT_CTL 0 = false ∧ s0.opens m MANT_SUBMIT ∧
      (((b.at 0).readJob (fld 0x200000 29 0 * 64)).map MJob.kind) = some 4 ∧ b.opens m MANT_SUBMIT ∧ b.rb MANT_CTL 0 = true ∧
      w.opens m MANT_SUBMIT ∧ w.rb MANT_CTL 0 = true ∧ w.mant.waiting ≠ [] ∧
      Memory.wf s0.mem = true ∧ Memory.wf b.mem = true ∧
      s0.memOk (0x08000000 + 0x20) = true ∧ s0.memOk (0x08000000 + 0x27) = true ∧ q.runs 14 ∧ q.nextJob = some (j, 0) ∧
      q.mant.waiting = [] ∧ q.opens m MANT_ABORT ∧
      (q.mant.run ++ q.mant.queue).find? (fun j => j.addr == fld 0x200080 29 0 * 64) = some j ∧ j.lane = none ∧
      ((r.mant.run ++ r.mant.queue).find? (fun j => j.addr == fld 0x200080 29 0 * 64)).map MJob.lane = some (some 23) ∧
      r.opens m MANT_ABORT ∧ r.mant.waiting = [] ∧
      (∀ j ∈ q.mant.queue ++ q.mant.run, j.addr ≠ fld 0x200081 29 0 * 64) := by decide
theorem wit_MantleJobs_full : let f : State := { s0.setReg MANT_CTL 1 with mant := { queue := List.replicate 512 (mjob 0 0) } }
    f.opens m MANT_SUBMIT ∧ f.rb MANT_CTL 0 = true ∧ 512 ≤ f.mant.queue.length ∧
      ((f.at 0).readJob (fld 0x200000 29 0 * 64)).isSome = true := by decide +kernel
/-- Header 0x1000_0000 with its CRC-6. -/
def hdr1 : Word := hdrWithCrc 0x10000000
/-- Its 96 coded bits as LLR bytes, 1 for a 0 and 0xFF for a 1. -/
def hdrLlrs : List Byte :=
  (bitsOf [0x10, 0x0, 0x0, 0x1c, 0x28, 0x24, 0x8, 0xe5, 0xc9, 0xa0, 0x8, 0x31]).map fun b => if b then 0xFF else 1
def heard (j : MJob) (bs : List Byte) : State :=
  { (mantle { run := [j] }).setReg MANT_CTL 0 with mem := cellsWrite memZero [] 0x08000000 bs }
/-- What a state's header decode of `j` finds. -/
def headerOf (s : State) (j : MJob) (l : List Byte) : Decoded :=
  hdrCode.decode (l.map llrOf) (min 32 (min j.maxit (s.rf MANT_CTL 13 8)))
theorem wit_HeaderDecodes : let j := mjob 0x40000 0; let s := heard j hdrLlrs
    s.runs 14 ∧ Memory.wf s.mem = true ∧ s.memOk (j.addr + 0x20) = true ∧ s.memOk (j.addr + 0x27) = true ∧ j.maxit ≠ 0 ∧
      s.mant.run.find? (fun j => j.addr == 0x08002000 && j.kind == 0) = some j ∧ s.load j.inA 96 = some hdrLlrs ∧
      (headerOf s j hdrLlrs).unsat = 0 ∧ BitVec.ofNat 32 (beNat (bytesOf (headerOf s j hdrLlrs).bits)) = hdr1 ∧
      fld hdr1 5 0 = crc6 hdr1 ∧ hdrBad hdr1 = none := by decide +kernel
theorem wit_HeaderDecodes_bad : let j := mjob 0x40000 0; let z := List.replicate 96 (0 : Byte); let s := heard j z
    let f := 1 :: (hdrLlrs.drop 1).map fun b => if b = 1 then 0xFF else b; let g := heard j f; let k := mjob 0 0
    s.mant.run.find? (fun j => j.addr == 0x08002000 && j.kind == 0) = some j ∧ s.load j.inA 96 = some z ∧
      (headerOf s j z).unsat = 0 ∧ fld 0 5 0 = crc6 0 ∧ hdrBad 0 ≠ none ∧ Memory.wf s.mem = true ∧
      BitVec.ofNat 32 (beNat (bytesOf (headerOf s j z).bits)) = 0 ∧
      g.mant.run.find? (fun j => j.addr == 0x08002000 && j.kind == 0) = some j ∧ g.load j.inA 96 = some f ∧
      Memory.wf g.mem = true ∧ (headerOf g j f).unsat ≠ 0 ∧
      (heard k []).mant.run.find? (fun j => j.addr == 0x08002000 && j.kind == 0) = some k ∧ k.maxit = 0 := by decide +kernel
theorem unsat_zero (c : Ldpc) (v : Array Bool) (h : ∀ j, v.getD j false = false) : c.unsat v = 0 := by
  have row : ∀ (r : LdpcRow) (i : Nat), r.foldl (fun b e => b != v.getD (c.pos e i) false) false = false := by
    intro r i
    induction r with
    | nil => rfl
    | cons e r _ => simp [List.foldl_cons, h]
  simp only [Ldpc.unsat, row]
  have out : ∀ (rows : List LdpcRow), rows.foldl (fun (a : Nat) _ => a) 0 = 0 := by
    intro rows; induction rows with
    | nil => rfl
    | cons r rows ih => simp [List.foldl_cons, ih]
  have ins : ∀ (l : List Nat) (a : Nat), l.foldl (fun (a : Nat) _ => a) a = a := by
    intro l; induction l with
    | nil => intro a; rfl
    | cons r l ih => intro a; simp [List.foldl_cons, ih]
  simp [ins, out]
theorem wit_PayloadDecodes : let j := mjob 0x10040000 0x10600000; let s := heard j []
    let k := mjob 0x10000000 0x10600000; let b := mjob 0x10040000 0x600000
    s.runs 14 ∧ Memory.wf s.mem = true ∧ s.lanesStall = false ∧ s.memOk (j.addr + 0x20) = true ∧ s.memOk (j.addr + 0x27) = true ∧
      s.mant.run.find? (fun j => j.addr == 0x08002000 && j.kind == 1) = some j ∧ j.maxit ≠ 0 ∧ j.cwidx < hdrNcw j.hdr ∧
      hdrBad j.hdr = none ∧ s.load j.inA (hdrPay j.hdr).n = some (List.replicate (hdrPay j.hdr).n 0) ∧
      s.slotOf j.ctx j.syncLt = none ∧ s.boundTo j.ctx j.syncLt = [] ∧ s.rxFrame j.ctx = none ∧
      s.lant.dead.lookup j.ctx ≠ some j.syncLt ∧ min 32 (min j.maxit (s.rf MANT_CTL 13 8)) = 0 ∧
      (heard k []).mant.run.find? (fun j => j.addr == 0x08002000 && j.kind == 1) = some k ∧ k.maxit = 0 ∧
      (heard k []).lanesStall = false ∧
      (heard b []).mant.run.find? (fun j => j.addr == 0x08002000 && j.kind == 1) = some b ∧ b.maxit ≠ 0 ∧
      (heard b []).lanesStall = false ∧ b.cwidx < hdrNcw b.hdr ∧ hdrBad b.hdr ≠ none := by decide +kernel
theorem wit_PayloadDecodes_decodes (c : Ldpc) (n : Nat) :
    (payDecode c ((List.replicate n (0 : Byte)).map llrOf) 0 false).ok = true := by
  have z : ∀ l : Array Int, (∀ j, (hard l).getD j false = false) → c.unsat (hard l) = 0 := fun l h => unsat_zero c _ h
  simp only [payDecode, Ldpc.decode, Ldpc.run, beq_iff_eq]
  apply z
  intro j
  simp only [hard, List.map_replicate]
  by_cases k : j < n <;> simp [Array.getD, k, llrOf]
theorem wit_MantleEncodes : let j := mjob 0x20000000 0x10000000; let s := heard j []
    let k := mjob 0x3C000000 0; let r := heard k []; let c := payCode (fld k.w0 27 26) (fld k.w0 25 24)
    let b := mjob 0x20000000 0
    s.runs 14 ∧ Memory.wf s.mem = true ∧ s.memOk (j.addr + 0x20) = true ∧ s.memOk (j.addr + 0x27) = true ∧
      s.memOk j.outA = true ∧ s.memOk (j.outA + 11) = true ∧
      s.mant.run.find? (fun j => j.addr == 0x08002000 && j.kind == 2) = some j ∧ hdrBad j.hdr = none ∧
      j.outA + 12 ≤ j.addr + 0x20 ∧ c.k = 2048 ∧ r.memOk (k.outA + (c.n / 8 - 1)) = true ∧
      r.mant.run.find? (fun j => j.addr == 0x08002000 && j.kind == 3) = some k ∧ (r.load k.inA (c.k / 8)).isSome = true ∧
      k.outA + c.n / 8 ≤ k.addr + 0x20 ∧
      (heard b []).mant.run.find? (fun j => j.addr == 0x08002000 && j.kind == 2) = some b ∧ hdrBad b.hdr ≠ none := by decide +kernel
def softEntry : SoftEntry :=
  { ctx := 0, syncLt := 0, hdr := hdr1, cls := 0, mod4 := false, t0 := 0, stamp := 0, lqi := 0, cws := [(0, .bits [])], hold := true }
def importing : State :=
  ((mantle { store := [(4095, softEntry)] }).setReg MANT_EXP_CTL 0x40000000).setReg MANT_IMP_RING_LO 0x08000000
theorem sram_memOk {s : State} {a : Nat} (e : s.domOn 21 = true) (h : 0x08000000 ≤ a) (k : a < 0x09000000) :
    s.memOk a = true := by
  have d : inSram a = true := by simp [inSram]; omega
  simp [State.memOk, d, e]
theorem wit_SoftStore : let s := importing; let e := softEntry; let u := { softEntry with unbound := true, cws := [] }
    let k := mantle { store := [(4095, u)], exports := [{ t0 := 0, body := [], peers := [] }] }; let o := dramUp.setReg MANT_STORE_HI 8
    let w := (o.setReg MANT_PAIR_CTL 0x80000000).setReg MANT_EXP_CTL 0x80000000
    s.runs 14 ∧ s.entryAt 4095 = some e ∧ e.bound = none ∧ e.exp = false ∧
      (s.at 1000000000).passed (e.t0 + BitVec.ofNat 32 (s.rf MANT_PAIR_CTL 14 0 * 1000 + 81000000)) = true ∧
      e.stamp + bodyNs e.hdr e.mod4 e.cls + 2000000 < (s.at 1000000000).now ∧
      k.runs 14 ∧ k.entryAt 4095 = some u ∧ u.unbound = true ∧ u.whole = false ∧
      (k.at 81000000).passed (u.t0 + BitVec.ofNat 32 (k.rf MANT_PAIR_CTL 14 0 * 1000 + 81000000)) = false ∧
      (∃ x ∈ k.mant.exports, x.t0 + (2000000 - k.rf MANT_EXP_CTL 29 20 * 1000 : Nat) < (k.at 81000000).now) ∧
      s0.opens m MANT_PAIR_CTL ∧ s0.opens m MANT_EXP_CTL ∧ s0.storeOk = false ∧ bit 0xC0000000 31 = true ∧
      bit 0xC0000000 30 = true ∧ s0.rb MANT_PAIR_CTL 31 = false ∧ s0.rb MANT_EXP_CTL 31 = false ∧ s0.rb MANT_EXP_CTL 30 = false ∧
      o.opens m MANT_PAIR_CTL ∧ o.storeOk = true ∧ o.storeBars MANT_PAIR_CTL 31 0xFFFFFFFF = false ∧ o.opens m MANT_EXP_CTL ∧
      o.storeBars MANT_EXP_CTL 31 0xFFFFFFFF = false ∧ o.storeBars MANT_EXP_CTL 30 0xFFFFFFFF = false ∧
      w.storeBars MANT_PAIR_CTL 31 0xFFFFFFFF = false := by decide +kernel
/-- What the import of `body` by entry `e` finds of each codeword. -/
def imported (s : State) (e : SoftEntry) (body : List Byte) : List (Option (List Byte)) :=
  importCws e (min 32 (s.rf MANT_CTL 13 8)) (leNat ((body.drop 16).take 4) / 2 ^ 20 % 16) (leNat ((body.drop 20).take 4))
    (leNat ((body.drop 24).take 4)) (List.range (hdrNcw e.hdr)) (body.drop 0x20)
theorem wit_SoftImports : let s := importing; let e := softEntry
    let body : List Byte := [0, 0, 0, 1] ++ leBytes 4 hdr1.toNat ++ List.replicate 24 0
    let p := { softEntry with cws := [], hdr := hdr1 }; let f := { s with mant := { store := [(0, p)] } }
    s.runs 14 ∧ s.rb MANT_EXP_CTL 30 = true ∧ leNat (([0, 0, 0, 0] : List Byte).take 4) / 2 ^ 24 ≠ 1 ∧
      Memory.wf s.mem = true ∧ leNat (body.take 4) / 2 ^ 24 = 1 ∧
      s.mant.store = [(4095, e)] ∧ e.hold = true ∧ e.hdr.toNat = leNat ((body.drop 4).take 4) ∧
      (s.at 2000000).now ≤ e.stamp + bodyNs e.hdr e.mod4 e.cls + 2000000 ∧
      (e.stamp - ((leNat ((body.drop 16).take 4) % 65536 * 2 ^ 32 + leNat ((body.drop 12).take 4)) * 1000000000
        + leNat ((body.drop 8).take 4) : Nat)).natAbs ≤ s.rf MANT_EXP_CTL 7 0 * 1000 ∧
      none ∉ imported s e body ∧ (s.rf MANT_IMP_IDX 21 16 + 1) % 64 ≠ s.rf MANT_IMP_IDX 5 0 ∧
      f.runs 14 ∧ f.mant.store = [(0, p)] ∧ p.hold = true ∧ p.hdr.toNat = leNat ((body.drop 4).take 4) ∧
      none ∈ imported f p body := by decide +kernel
theorem wit_SoftImports_short : ∀ c ∈ softEntry.cws, ∀ b, c.2 = .bits b → b.length ≤ 256 := by
  intro c h b e
  simp only [softEntry, List.mem_singleton] at h
  subst h
  simp_all [SoftCw.bits.injEq]
theorem wit_SoftImports_ring : ∀ o, o < 0x10000 → importing.memOk (importing.impRing + importing.rf MANT_IMP_IDX 21 16 * 0x8000 + o) = true := by
  intro o h
  have a : importing.impRing + importing.rf MANT_IMP_IDX 21 16 * 0x8000 = 0x08000000 := by decide
  rw [a]
  exact sram_memOk (by decide) (by omega) (by omega)

/-! ### Lantern and the neighbour table -/

/-- An entry with word 1 `w1`, HIGH `hi` and head and tail `q`. -/
def entry (w1 w2 q : Word) : List Word :=
  [7, w1, w2, 0, 0, 0, 0, 0, 0, 0, 0, 0, 0, 0, q, 0]
/-- The last entry holds `e` in the cache; the three areas lie at 0x8_0000_0000 and up. -/
def table (e : List Word) : State :=
  { ((dramUp.setReg NBR_STORE_HI 8).setReg NBR_DIR_HI 8).setReg NBR_DIR_LO 0x1000000 with
    lant := { cache := [(2047, [{ index := 262143, words := e }])] } }
def idle : List Word := entry 0x40000000 0 0xFFFFFFFF
theorem wit_NeighbourEntries : let s := ((table idle).setReg NBR_MSG_HI 8).setReg NBR_MSG_LO 0x2000000
    let r := table (entry 0x80000000 0 0xFFFFFFFF); let p := { s with mem := cellsWrite memZero [] 0x802000000 [1, 0, 0, 0, 240] }
    let d := { ((table (entry 0x40000000 0 0)).setReg NBR_MSG_HI 8).setReg NBR_MSG_LO 0x2000000 with mem := p.mem }
    s.opens m NBR_CMD ∧ r.opens m NBR_CMD ∧ p.opens m NBR_CMD ∧ d.opens m NBR_CMD ∧ idle.length = 16 ∧ ((s.at 0).nbrFetch 262143).2 = some idle ∧ eActive idle = true ∧ eState idle ≠ 0 ∧
      eHead idle = 0xFFFF ∧ ((r.at 0).nbrFetch 262143).2.map eState = some 2 ∧ s.rf (NBR_BUF 0) 15 0 = 0 ∧
      (((p.at 0).nbrFetch 262143).1.load (((p.at 0).nbrFetch 262143).1.msgAt 0) 16).map
        (fun m => (eFld (wordsOf m) 0 7 0, eFld (wordsOf m) 1 15 0)) = some (1, 240) ∧
      Memory.wf p.mem = true ∧ (((d.at 0).nbrFetch 262143).1.msgHead (entry 0x40000000 0 0)).isSome = true ∧
      ((((d.at 0).nbrFetch 262143).1.msgHead (entry 0x40000000 0 0)).bind Prod.snd).isSome = true ∧
      s.rf (NBR_BUF 0) 15 0 ≠ 0xFFFF ∧ eActive (entry 0x80000000 0 0xFFFFFFFF) = false ∧ eState (entry 0 0 0) = 0 ∧
      (((table (entry 0 0 0)).at 0).nbrFetch 262143).2 = some (entry 0 0 0) := by decide
theorem wit_NeighbourOperations : let s := ((table idle).setReg NBR_MSG_HI 8).setReg NBR_MSG_LO 0x2000000
    let o := { s with lant := { s.lant with op := some { load := false, addr := 0, by_ := 0 } } }
    s.opens m NBR_CMD ∧ s.lant.op = none ∧ o.opens m NBR_CMD ∧ o.lant.op ≠ none ∧ s.opens m NBR_CTL ∧ s.nbrAreasOk = true ∧
      s0.opens m NBR_CTL ∧ s0.nbrAreasOk = false := by decide
theorem wit_NeighbourRegister : let s := (((table idle).setReg (NBR_BUF 0) 9).setReg (NBR_BUF 1) 0x40000000)
    let q := ((s.at 0).nbrFetch 0).1
    s.opens m NBR_CMD ∧ s0.opens m NBR_CMD ∧ eState s0.nbrBuf ≠ 1 ∧ Memory.wf q.mem = true ∧ eState s.nbrBuf = 1 ∧ devidBad (s.reg (NBR_BUF 0)).toNat = false ∧
      s.dirFind (s.reg (NBR_BUF 0)).toNat = some none ∧ s.firstFree 262144 0 = some 0 ∧
      ((s.at 0).nbrFetch 0).2.isSome = true ∧ q.dirFind (s.reg (NBR_BUF 0)).toNat = some none ∧
      (q.dirInsert (s.reg (NBR_BUF 0)).toNat 0).isSome = true := by decide
/-- A frame under `hdr` whose first codeword begins with DEVID 7, EPOCH 0, SEQ `n` and LENGTH 4. -/
def heardFrame (st : RxStage) (hdr : Word) (n : Byte) : RxFrame :=
  { stage := st, hdr := hdr, syncLt := 0, cls := 0, mod4 := false, bt3 := false, lamp := 0, stamp := 0, cfo := 0, fde := 0
    lqi := 0, chan := 0, bin := 0, offRaster := false, t0 := 0, cws := [(0, [0, 0, 0, 7, 0, 0, 0, n, 0, 4])] }
def hearing (f : RxFrame) (e : List Word) : State :=
  { (table e).setReg NBR_CTL 0x80000000 with
    lant := { rx := [(3071, f)], cache := [(2047, [{ index := 262143, words := e }])] } }
set_option maxRecDepth 20000 in
theorem wit_LanternReception : let f := heardFrame .fresh hdr1 1; let s := hearing f idle
    let s := { s with mem := cellsWrite memZero [] (s.dirWays 7).head! (leBytes 8 (7 * 2 ^ 32 + 2 ^ 31 + 262143)) }
    let g := heardFrame .fresh 0x12000000 1; let r := hearing g idle
    let b := { f with cws := [(0, [0xFF, 0xFF, 0xFC, 0, 0, 0, 0, 1, 0, 4])] }; let o := (hearing f idle).setReg NBR_CTL 0
    let l := { f with cws := [(0, [0, 0, 0, 7, 0, 0, 0, 1, 0, 3])] }
    s.runs 13 ∧ s.rxFrame 3071 = some f ∧ f.stage = .fresh ∧ (f.cws.lookup 0).isSome = true ∧ f.type = 0 ∧
      f.lengthOk = true ∧ geometryOk f.hdr f.length = true ∧ f.devid < 0xFFFFFC00 ∧ s.rb NBR_CTL 31 = true ∧
      s.dirFind f.devid = some (some 262143) ∧ ((s.at 0).nbrFetch 262143).2 = some idle ∧ eActive idle = true ∧
      f.epoch = eEpoch idle ∧ eBit idle 1 26 = false ∧ r.runs 13 ∧ r.rxFrame 3071 = some g ∧ g.type = 1 ∧
      (hearing b idle).rxFrame 3071 = some b ∧ b.type = 0 ∧ b.lengthOk = true ∧ geometryOk b.hdr b.length = true ∧
      0xFFFFFC00 ≤ b.devid ∧ (hearing l idle).rxFrame 3071 = some l ∧ l.type = 0 ∧ l.lengthOk = false ∧
      o.runs 13 ∧ o.rxFrame 3071 = some f ∧ o.rb NBR_CTL 31 = false ∧
      f.late = false ∧ f.beacon = false ∧ f.t0 + 215000 < (s.at 1000215001).now := by decide
theorem wit_LanternCommit : let f := heardFrame .verified hdr1 1; let e := entry 0x44000000 0 0xFFFFFFFF
    let f := { f with index := 262143, keyref := 0 }; let s := hearing f e
    let d := (entry 0x44000000 2 0xFFFFFFFF).set 3 3; let o := entry 0x44000000 65 0xFFFFFFFF
    s.runs 13 ∧ s.rxFrame 3071 = some f ∧ f.stage = .verified ∧ f.beacon = false ∧ f.type ≠ 3 ∧
      ((s.at 0).nbrFetch f.index).2 = some e ∧
      e.length = 16 ∧ eActive e = true ∧ eKeyref e = f.keyref ∧ (eWord e 0).toNat = f.devid ∧ f.epoch = eEpoch e ∧
      f.nextKey = false ∧ eBit e 1 26 = true ∧ 0 < (f.seq + 2 ^ 24 - eHigh e) % 2 ^ 24 ∧
      (f.seq + 2 ^ 24 - eHigh e) % 2 ^ 24 < 2 ^ 23 ∧ f.seq < 2 ^ 24 ∧
      (∀ x ∈ [d, o], (((hearing f x).at 0).nbrFetch f.index).2 = some x ∧ x.length = 16 ∧ eActive x = true ∧
        eKeyref x = f.keyref ∧ (eWord x 0).toNat = f.devid ∧ f.epoch = eEpoch x) ∧
      (windowKind d f.seq).1 = .dupOld ∧ (windowKind o f.seq).1 = .stale := by decide
theorem wit_LanternReception_ack : let f := { heardFrame .ack hdr1 1 with t0 := 1000000000, chan := 868000000 }
    let s := ((hearing f idle).setReg (LAMP_TUNE 0) 868000).setLamp 0 { st := .rx, calValid := 0xF, locked := true, centre := 868000000 }
    let v := ((s.at 1000225000).dropRx 3071).event 164; let x := (s.at 1000225000).ackCmd 3071 f
    s.runs 13 ∧ s.rxFrame 3071 = some f ∧ f.stage = .ack ∧ f.t0 + 225000 ≤ (s.at 1000225000).now ∧
      (v.txAccept (s.txLamp f.lamp x.ofs) x).2 = .ok := by decide
theorem wit_LanternReception_drop : let f := { heardFrame .ack hdr1 1 with t0 := 1000000000, chan := 868000000 }
    let s := hearing f idle; let v := ((s.at 1000225000).dropRx 3071).event 164; let x := (s.at 1000225000).ackCmd 3071 f
    s.runs 13 ∧ s.rxFrame 3071 = some f ∧ (v.txAccept (s.txLamp f.lamp x.ofs) x).2 ≠ .ok := by decide
def beaconFrame : RxFrame :=
  { heardFrame .verified 0x18000000 1 with beacon := true, plain := List.replicate 12 0 }
theorem wit_LanternBeacons : let f := beaconFrame; let s := ((hearing f idle).setReg NTIM_SRC_CTL 2).setReg NTIM_BCN_CTL 0x00700000
    let w := { s.setReg NTIM_BCN_PERIOD 1000000 with ntim := { s.ntim with lastAccept := some (-500000000) } }
    let o := { s with lant := { s.lant with bcnLast := [(7, 1)] } }
    s.runs 13 ∧ s.rxFrame 3071 = some f ∧ f.stage = .verified ∧ f.beacon = true ∧
      f.devid % 1024 = s.rf NTIM_BCN_CTL 29 20 ∧ s.bcnLast (f.devid % 1024) = none ∧ s.ntMode = 2 ∧ s.ntim.lastAccept = none ∧
      ((((beVal ((natsOf f.plain).take 6) * 1000000000 + beVal (((natsOf f.plain).drop 6).take 4) : Nat) : Int)
        + s.rf NTIM_BCN_PATH 19 0 - f.stamp).natAbs : Int) ≤ s.rf NTIM_BCN_CTL 15 8 * 1000 ∧ s0.ntMode ≠ 2 ∧
      w.rxFrame 3071 = some f ∧ w.ntMode = 2 ∧ (w.at 0).bcnInside f.stamp = false ∧ o.runs 13 ∧ o.rxFrame 3071 = some f ∧
      o.bcnLast (f.devid % 1024) = some 1 ∧ seqLater f.seq 1 = false := by decide

/-! ### Coding and ciphers -/

theorem wit_CodewordsSatisfyChecks : (List.replicate 32 true).length = 32 ∧ (3 : Nat) < 4 ∧
    (List.replicate 2048 true).length = (payCode 3 3).k := by decide +kernel
theorem wit_CipherRoundTrips : let key := List.replicate 32 255
    (key.length = 16 ∨ key.length = 32) ∧ (∀ x ∈ key, x < 256) ∧ (∀ b ∈ [List.replicate 16 255], b.length = 16) ∧
      (16 : Nat) ≤ 16 ∧ (List.replicate 13 0).length = 13 ∧ (∀ b ∈ [0, 255], b < 256) := by decide

/-- The engine with its self-tests passed, EN set and CACHE_BASE 2,046, as `c` makes it. -/
def engine (c : Ciph) : State :=
  { (s0.setReg CIPH_STATUS 0x10000000).setReg CIPH_CTL 0x07FE0001 with ciph := c, sec := {} }
def cjob (op : Nat) : CJob :=
  { src := .desc 0x08001000, cls := 1, op := op, keyRec := false, key := 2045, epoch := 255, tlen := 16, nlen := 13, adlen := 0
    len := 1, iv := List.replicate 16 0, inA := 0x08002000, outA := 0x08003000, kdata := List.replicate 16 0 }
def key0 : Key := { data := List.replicate 16 0, epoch := 255, limit := 1 }
theorem wit_CipherJobs : let s := engine { slots := [(2045, { key := some key0 })], queue := [cjob 4] }
    let w := engine { waiting := [(5, 0)] }; let r := { s0 with ciph := { queue := [cjob 4] } }; let b := engine { queue := [cjob 9] }
    s.opens m CIPH_SUBMIT ∧ s.rb CIPH_CTL 0 = true ∧ s.ciph.queue.length < 256 ∧ (s.readCJob (fld 0x00200000 29 0 * 64)).isSome = true ∧
      w.opens m CIPH_SUBMIT ∧ w.rb CIPH_CTL 0 = true ∧ w.ciph.waiting ≠ [] ∧ s0.opens m CIPH_SUBMIT ∧ s0.rb CIPH_CTL 0 = false ∧
      Memory.wf s0.mem = true ∧ s0.memOk (fld 0x00200000 29 0 * 64 + 0x30) = true ∧ s0.memOk (fld 0x00200000 29 0 * 64 + 0x33) = true ∧
      s.runs 15 ∧ s.cipherRefuses = false ∧ s.cipherWaits = false ∧ s.ciph.queue = [cjob 4] ∧ s.ciph.run = [] ∧ s.ciph.frames = [] ∧
      s.ciph.waiting = [] ∧ (s.cipherLane true (cjob 4).hold).isSome = true ∧ (cjob 4).valid = true ∧ 2045 < s.cacheBase ∧
      (s.slot 2045).key = some key0 ∧ (s.slot 2045).half = none ∧ key0.epoch = (cjob 4).epoch ∧ key0.kek = false ∧
      key0.used < key0.limit ∧ r.runs 15 ∧ r.cipherWaits = false ∧ r.cipherRefuses = true ∧ (cjob 4).lane < 4 ∧
      r.memOk 0x08001030 = true ∧ r.memOk 0x08001033 = true ∧ b.runs 15 ∧ b.cipherWaits = false ∧ b.cipherRefuses = false ∧
      b.rb CIPH_CTL 0 = true ∧ (cjob 9).valid = false ∧ s.opens m CIPH_ABORT ∧
      (∃ j ∈ s.ciph.queue ++ s.ciph.run, j.src = .desc (fld 0x00200040 29 0 * 64)) ∧
      (∀ j ∈ s.ciph.queue ++ s.ciph.run, j.src ≠ .desc (fld 0x00200041 29 0 * 64)) := by decide
theorem wit_CipherJobs_full : let f := engine { queue := List.replicate 256 (cjob 4) }
    f.opens m CIPH_SUBMIT ∧ f.rb CIPH_CTL 0 = true ∧ 256 ≤ f.ciph.queue.length ∧
      (f.readCJob (fld 0x00200000 29 0 * 64)).isSome = true := by decide +kernel
theorem wit_CipherModes : ∀ op : Fin 9, let j := cjob op; let s := engine { run := [j] }
    s.runs 15 ∧ Memory.wf s.mem = true ∧ s.inService 0x28 = true ∧ s.ciph.run = [j] ∧ j.lane = 0 ∧ j.op = op.val ∧
      j.need = 0 ∧ s.memOk 0x08001030 = true ∧ s.memOk 0x08001033 = true := by decide
theorem wit_CipherModes_results : let j := cjob 4; let s := engine { run := [j] }; let e := { cjob 0 with inA := 0, len := 16 }
    (s.jobResult j).toOption.map List.length = some 1 ∧ s.memOk j.outA = true ∧ 0x08001034 ≤ j.outA ∧
      ((engine { run := [e] }).jobResult e).toOption = none ∧
      (engine {}).memOk ({ j with outA := 0 } : CJob).outA = false := by decide +kernel
theorem wit_KeySlotCommands : let c : State := (engine { slots := [(2045, { key := some key0 })], staged := [(2045, key0.data, 5)]
                                                         root := some [], pend := some [] }).setReg CIPH_KARG 1
    let s := c.setReg CIPH_KARG 0x00000800; let h := c.setReg CIPH_KARG 2
    s0.opens m CIPH_KCMD ∧ s0.cipherRefuses = true ∧ s.opens m CIPH_KCMD ∧ s.cipherRefuses = false ∧
      s.cacheBase ≤ (2046#18).toNat ∧ (2045#18).toNat < s.cacheBase ∧ s.ciph.run = [] ∧ s.rb CIPH_CTL 31 = false ∧
      s.rb CIPH_KARG 0 = false ∧ c.rb CIPH_KARG 0 = true ∧ c.ciph.staged.lookup (2045#18).toNat = some (key0.data, 5) ∧
      (c.at 1000000004).clk < 5 + 1000000000 ∧ 5 + 1000000000 ≤ (c.at 1000000005).clk ∧ key0.data.length = c.kargLen ∧
      (c.slot (2045#18).toNat).key = some key0 ∧ (c.slot (2045#18).toNat).half = none ∧ c.rb CIPH_KARG 31 = false ∧
      c.rf CIPH_KARG 28 0 ≠ 0 ∧ c.rf CIPH_KARG 28 0 ≤ key0.limit ∧ key0.limit < h.rf CIPH_KARG 28 0 ∧
      h.rb CIPH_KARG 31 = false := by decide
theorem wit_KeyRecordCommands : let y : Key := { data := List.replicate 32 0, epoch := 0, kek := true }
    let s := ((engine { slots := [(0, { key := some y }), (2045, { key := some key0 })], root := some [], pend := some [] }).setReg
      CIPH_KARG 0x800).setReg CIPH_KADDR_LO 0x08000000
    let k := s.setReg CIPH_KARG 0; let o := { s with ciph := { s.ciph with op := some { rewrap := false, by_ := 0 } } }
    s.opens m CIPH_KCMD ∧ s.cipherRefuses = false ∧ (2045#18).toNat < s.cacheBase ∧ s.rb CIPH_KARG 11 = true ∧
      s.ciph.root = some [] ∧ s.ciph.rootUses < 2 ^ 28 ∧ (s.slot (2045#18).toNat).key = some key0 ∧
      key0.data.length ≤ 32 ∧ Memory.wf s.mem = true ∧ s.ciph.op = none ∧ s.ciph.pend ≠ none ∧
      s.memOk s.kaddr = true ∧ s.memOk (s.kaddr + 63) = true ∧ k.opens m CIPH_KCMD ∧ k.rb CIPH_KARG 11 = false ∧
      k.kekOf.toOption = some y.data ∧ o.opens m CIPH_KCMD ∧ o.cipherRefuses = false ∧ o.ciph.op ≠ none ∧ s.runs 15 ∧
      s.rb CIPH_KARG 0 = false ∧ (s.setReg CIPH_KARG 1).rb CIPH_KARG 0 = true := by decide
/-- A half wrapped under the root of zeros. -/
def half : List Byte :=
  [0, 0, 0xC0, 0xFF] ++ List.replicate 7 0 ++ [0x10] ++ List.replicate 12 0 ++
  [0xdd, 0x9e, 0x44, 0xa8, 0x08, 0xfb, 0x06, 0xd8, 0x48, 0x3c, 0x2e, 0x19, 0x3a, 0x57, 0xec, 0xe6, 0xa6, 0x88, 0xa3, 0x3a,
   0x6f, 0x63, 0xc3, 0x27, 0x01, 0xec, 0x8d, 0x63, 0x56, 0x36, 0x6d, 0xef, 0xf3, 0x44, 0x7a, 0x0c, 0x75, 0x09, 0x19, 0x03]
theorem wit_KeyRecordCommands_unwrap : let r : List Byte := List.replicate 32 0
    let s := { ((engine { root := some r }).setReg CIPH_KARG 0x800).setReg CIPH_KADDR_LO 0x08000000 with
      mem := cellsWrite memZero [] 0x08000000 half }
    s.load s.kaddr 64 = some half ∧ s.rb CIPH_KARG 11 = true ∧ s.rootOf (fld (halfWord half 0) 20 20) = some r ∧
      bit (halfWord half 0) 23 = true := by decide
theorem wit_KeyRecordCommands_opens :
    unwrapHalf (List.replicate 32 0) half = some { data := List.replicate 32 0, epoch := 255, limit := 2 ^ 28 } := by
  decide +kernel
theorem wit_KeyRecordCommands_shut : let r : List Byte := List.replicate 32 1
    let s := engine { root := some r }
    s.rootOf (fld (halfWord half 0) 20 20) = some r ∧ unwrapHalf r half = none := by decide +kernel
theorem wit_KeyRecordCommands_erase : let s := { (dramUp.setReg CIPH_STATUS 0x10000000).setReg CIPH_KREC_HI 8 with sec := {} }
    (s.load (s.halfAddr 262143 s.kargHalf) 64).isSome = true ∧ Memory.wf s.mem = true ∧ s.cipherRefuses = false ∧
      s.opens m CIPH_KCMD ∧ s.ciph.run = [] := by decide
theorem wit_CipherControl : let s := dramUp.setReg CIPH_KREC_HI 8
    let a := { (s.setReg CIPH_STATUS 0x10000000).setReg SEC_TAMPER_CTL 0x1FC with sec := { op := none, bootOwner := true } }
    s.opens m CIPH_CTL ∧ s.rb CIPH_CTL 0 = false ∧ s.krecOk = true ∧ bit 0x07FF0001 31 = false ∧ s.rb CIPH_CTL 31 = false ∧
      s.approvable = false ∧ a.opens m CIPH_CTL ∧ a.rb CIPH_CTL 31 = false ∧ a.approvable = true ∧
      (s.setReg CIPH_CTL 1).rb CIPH_CTL 0 = true := by decide
theorem wit_Snuffer : let s := { s0.setReg SEC_TAMPER_CTL 0x1FC with sec := { op := none, bootOwner := true } }
    let o := { s with sec := { s.sec with op := some { kind := .attest, by_ := 0, total := 30 } } }
    let z := s.setReg CIPH_STATUS 0xC0000000; let off := s0.setReg SEC_TAMPER_CTL 0
    s.board.vinOk = true ∧ (∀ n : Fin 6, s.rb SEC_TAMPER_CTL (2 + n) = true ∧ off.rb SEC_TAMPER_CTL (2 + n) = false) ∧
      s.opens m SEC_CMD ∧ s.sec.op = none ∧ s.rb CIPH_STATUS 30 = false ∧ o.opens m SEC_CMD ∧ o.sec.op ≠ none ∧
      z.opens m SEC_CMD ∧ z.sec.op = none ∧ z.rb CIPH_STATUS 30 = true ∧ s.opensRead m SEC_RNG ∧ z.opensRead m SEC_RNG ∧
      z.rb CIPH_STATUS 31 = true ∧ s.runs 15 := by decide

/-! ### Wick words, written out bit by bit from R257 to R287 -/

theorem test_words_alu :
    wdecode 0b000001_000001_000010_000011_00_000000 = some (.alu .add 1 2 3) ∧
    wdecode 0b000001_111111_000010_000011_00_010101 = some (.alu .mpyr 63 2 3) ∧
    wdecode 0b000010_000001_000010_11111111111111 = some (.imm .addi 1 2 (-1)) ∧
    wdecode 0b000111_000000_000010_00000000000001 = some (.imm .cmpi 0 2 1) ∧
    wdecode 0b000110_000001_000010_10_0000000_10111 = some (.shi 2 1 2 23) ∧
    wdecode 0b001000_000001_10000000000000000000 = some (.ldi 1 0x80000) ∧
    wdecode 0b001001_000001_00000000_000000000001 = some (.ldhi 1 1) := by decide
theorem test_words_memory :
    wdecode 0b001010_000011_1_010_0101_00000000_0111 = some (.mem true 3 (.post 7) 5) ∧
    wdecode 0b001010_000011_0_011_0101_000000_111111 = some (.mem false 3 (.idx 63) 5) ∧
    wdecode 0b001011_000011_1_000_1000000000000001 = some (.memAbs true 3 0x8001) ∧
    wdecode 0b11_1_000001_0010_1111_0_000011_0100_0001 = some (.dmov ⟨true, 1, 2, -1⟩ ⟨false, 3, 4, 1⟩) ∧
    wdecode 0b010011_10_1_01_0011_00100_000101_000000 = some (.dma 2 true 1 3 4 5) ∧
    wdecode 0b010100_00001_00010_1_000000000000000 = some (.fst 1 2) := by decide
theorem test_words_accumulators :
    wdecode 0b001100_000001_000010_000000_11_000001 = some (.msu 1 2 3) ∧
    wdecode 0b001100_000001_000000_001000_11_000100 = some (.ext 1 3 (-8)) ∧
    wdecode 0b001100_000001_000000_001100_11_000110 = some (.movda 1 3 4 true) ∧
    wdecode 0b001100_000000_000000_111111_01_001001 = some (.sha 1 (-1)) ∧
    wdecode 0b10_0_1_01_10_000001_000010_000011_000100 = some (.mac2 false true 1 2 1 2 3 4) := by decide
theorem test_words_control :
    wdecode 0b001101_0000_0010_00_1111111111111111 = some (.paddi 2 (-1)) ∧
    wdecode 0b001101_0101_00_10_000001_1_00000000000 = some (.cbget 2 1 true) ∧
    wdecode 0b001110_1110_00000000_00000000000001 = some (.br 14 1) ∧
    wdecode 0b001111_1_1111_0000000_00000000000000 = some (.jr 15) ∧
    wdecode 0b010000_10_1_1111111111111111_0000001 = some (.loopi 2 true 0xFFFF 1) ∧
    wdecode 0b010001_01_0_000011_000_00000000000100 = some (.loopr 1 false 3 4) ∧
    wdecode 0b010010_000001_0000000000_00_00_000100 = some (.tend 1) ∧
    wdecode 0b010010_000001_0000000000_11_00_000110 = some (.dmawt 1 3) ∧
    wdecode 0b010010_000001_0000000000_00_00_000101 = some (.tid 1) := by decide
theorem test_words_lantern :
    wdecode 0b010101_0011_01_10_000011_00_1_000000000 = some (.tadd 1 2 3 true) ∧
    wdecode 0b010110_000001_0010_11_01_000000000000 = some (.rcmd 1 2 3 1) ∧
    wdecode 0b010111_000001_000010_1_0000000000000 = some (.rstat 1 2 true) ∧
    wdecode 0b011000_00001_000010_00011_1_101_00_01_10 = some (.place 1 2 3 true 5 0 1 2) ∧
    wdecode 0b011001_000001_0010_11_00000000000000 = some (.build 1 2 3) ∧
    wdecode 0b011010_00001_000010_1_1011_000011_0000 = some (.nbr 1 2 true 11 3) := by decide
/-- A word with a bit set in a field that the tables give as 0, a reserved function, and OP6 0x00 are reserved (R258). -/
theorem test_words_reserved :
    wdecode 0 = none ∧ wdecode 0b000001_000001_000010_000011_01_000000 = none ∧
    wdecode 0b000001_000001_000010_000011_00_011000 = none ∧
    wdecode 0b010000_11_1_1111111111111111_0000001 = none := by decide
theorem test_encode_refuses : WInstr.wf (.mac2 false false 1 1 0 0 0 0) = false ∧ WInstr.wf (.shi 0 1 1 24) = false ∧
    WInstr.wf (.alu .cmp 1 0 0) = false ∧ WInstr.wf (.alu .neg 0 0 1) = false ∧ WInstr.wf (.imm .cmpi 1 0 0) = false ∧
    WInstr.wf (.movad 0 0 5) = false ∧ WInstr.wf (.movda 0 0 5 true) = false ∧ WInstr.wf (.movdl 3 0) = false ∧
    WInstr.wf (.movld 3 0) = false ∧ WInstr.wf (.br 15 0) = false ∧ WInstr.wf (.loopi 3 false 0 0) = false ∧
    WInstr.wf (.loopr 3 false 0 0) = false ∧ WInstr.wf (.tget 0 0 3) = false ∧ WInstr.wf (.tput 0 0 3) = false ∧
    WInstr.wf (.place 0 0 0 false 0 1 1 2) = false := by decide

/-! ### Cores -/

/-- Core `co`, changed by `f`, runs with the word of `i` at pc 5. -/
def at5 (co : Core) (i : WInstr) (f : WCore → WCore) : State :=
  s0.setCore (coreKey co) (f { st := .running, pc := 5, imem := [(5, wencode i)] })
theorem wit_WickWordsDecode : WInstr.wf (.place 31 63 31 true 7 3 2 1) = true ∧ WInstr.wf (.tget 63 3 2) = true := by decide
theorem wit_WickArithmetic : ∀ f ∈ [AluFn.add, .adc, .sub, .sbc, .abs, .neg, .mul, .mpyr, .min, .max],
    ∀ co ∈ [Core.wick 63, .lantern 5], let i := WInstr.alu f 63 16 (if f.unary then 0 else 15)
    (at5 co i id).issues co i ∧ (at5 co (.imm .addi 63 0 8191) id).issues co (.imm .addi 63 0 8191) := by decide
theorem wit_WickLogic : (∀ f ∈ [AluFn.and, .or, .xor, .andn, .lsl, .lsr, .asr, .ror, .norm, .mov, .sxb, .zxb, .cmp, .tst],
      let i := WInstr.alu f (if f.flagsOnly then 0 else 63) 16 (if f.unary then 0 else 15)
      (at5 (.lantern 5) i id).issues (.lantern 5) i) ∧
    ∀ i ∈ [WInstr.imm .andi 1 2 (-1), .imm .ori 1 2 (-1), .imm .xori 1 2 (-1), .imm .cmpi 0 2 (-1), .shi 3 1 2 23, .ldi 1 (-1),
      .ldhi 1 (-1)], (at5 (.wick 63) i id).issues (.wick 63) i := by decide
theorem wit_WickAccumulators : ∀ i ∈ [WInstr.mac 1 2 3, .msu 1 2 3, .mpa 1 2 3, .clra 3, .adda 3 3, .suba 3 3, .nega 3, .absa 3,
      .sat48 3, .sha 3 31, .sha 3 (-32), .movda 1 3 4 false, .movda 1 3 4 true, .movad 1 3 4, .ext 1 3 (-8), .ext 1 3 7,
      .mac2 true true 3 2 1 2 3 4], (at5 (.wick 63) i id).issues (.wick 63) i := by decide
theorem wit_WickMemory : ∀ i ∈ [WInstr.mem false 3 .ind 15, .mem true 3 (.inc (-8)) 0, .mem false 3 (.post 15) 0,
      .mem true 3 (.idx 63) 15, .memAbs false 3 0xFFFF, .memAbs true 3 0xFFFF, .dmov ⟨true, 1, 0, -8⟩ ⟨false, 1, 0, 7⟩],
    ∀ co ∈ [Core.wick 63, .lantern 5], (at5 co i id).issues co i := by decide
theorem wit_WickMemory_waits : ∀ n ∈ [30, 31], ∀ co ∈ [Core.wick 63, .lantern 5], let x : DMove := ⟨true, 1, 0, -8⟩
    let s := at5 co (.dmov x x) fun c => { c with waited := n, dma := [(3, ⟨true, true, 0, 0x08000000, 0, 1, .ok⟩)] }
    s.issues co (.dmov x x) ∧ (s.core (coreKey co)).dma.any (fun e => e.2.busy) = true ∧ (s.core (coreKey co)).waited = n := by decide
/-- p0 circular by wsr bits 9 and 8, and bit-reversed. -/
theorem wit_PointerModes : ∀ w ∈ [(1 : BitVec 2), 2], ∀ i ∈ [WInstr.mem false 3 (.inc (-8)) 0, .mem true 3 (.post 15) 0,
      .mem false 3 .ind 0, .mem true 3 (.idx 63) 0, .dmov ⟨true, 1, 0, -8⟩ ⟨false, 1, 0, 7⟩, .dmov ⟨true, 1, 0, -8⟩ ⟨false, 1, 1, 7⟩],
    let s := at5 (.wick 63) i fun c => { c with wsr := w.setWidth 32 <<< 8 }
    s.issues (.wick 63) i ∧ (s.seen (.wick 63)).wsr >>> 8 = w.setWidth 32 := by decide
theorem wit_WickMovesAndJumps : ∀ i ∈ [WInstr.paddi 15 (-1), .pldi 15 (-1), .movdp 15 1, .movpd 15 1, .cbset 3 1 2, .cbget 3 1 true,
      .movdl 2 1, .movld 2 1, .movdw 1, .movwd 1, .movrd 1, .br 14 0x3FFF, .jal 15 0x3FFF, .jr 15, .loopi 2 true 0xFFFF 127,
      .loopr 2 true 1 9, .nop, .rot], ∀ co ∈ [Core.wick 63, .lantern 5], (at5 co i id).issues co i := by decide
theorem wit_WickMovesAndJumps_loops : let c := (at5 (.wick 63) .nop id).seen (.wick 63)
    c.loopBad 2 (c.pc + 1 + 127) = false ∧ c.loopBad 2 9 = false := by decide
theorem wit_WickFaults : let co := Core.wick 63; let e := at5 co .nop fun c => { c with pc := 16384 }
    let h := at5 co .halt fun c => { c with task := some 4095 }; let l := at5 co (.loopr 2 true 1 5) id
    let m := at5 co (.loopi 2 true 1 0) fun c => { c with loops := [⟨2, 0, 9, false⟩] }
    e.canIssue 63 = true ∧ e.fetchW 63 = (5, none) ∧ h.fetchW 63 = (6, none) ∧ l.issues co (.loopr 2 true 1 5) ∧
      (l.seen co).loopBad 2 5 = true ∧ m.issues co (.loopi 2 true 1 0) ∧
      (m.seen co).loopBad 2 ((m.seen co).pc + 1 + 0) = true := by decide
theorem wit_WickSystem : (∀ i ∈ [WInstr.halt, .twait, .fence, .dmast 1 3, .dmawt 1 3, .dma 3 true 0 15 31 63],
      let b := at5 (.wick 63) i fun c => { c with dma := [(3, ⟨true, true, 0, 0x08000000, 0, 1, .ok⟩)] }
      (at5 (.wick 63) i id).issues (.wick 63) i ∧ b.issues (.wick 63) i ∧ (tabGet ({} : DmaCh) (b.core 63).dma 3).busy = true) ∧
    (∀ i ∈ [WInstr.tend 63, .tid 63], let s := at5 (.wick 63) i fun c => { c with task := some 4095 }
      s.issues (.wick 63) i ∧ (s.core 63).fstHeld = none) ∧
    (∀ i ∈ [WInstr.fence, .tend 63], let s := at5 (.wick 63) i fun c => { c with task := some 4095, fstHeld := some (0, 0) }
      s.issues (.wick 63) i ∧ (s.core 63).fstHeld ≠ none) := by decide
theorem wit_WickFabric : let co := Core.wick 63
    let q : WCore → WCore := fun c => { c with d := [(62, 0), (63, 8)], wait := some (.dma 3 63) }
    let busy : DmaCh := ⟨true, true, 0, 0x08000000, 0, 1, .ok⟩
    (∀ i ∈ [WInstr.fld 31 31, .fst 31 31], let s := at5 co i fun c => { c with d := [(62, 0), (63, 8)] }
      s.issues co i ∧ (s.core 63).fstHeld = none ∧ inMemory ((s.seen co).pairAddr 31 / 4 * 4) = true ∧
      s.memOk ((s.seen co).pairAddr 31 / 4 * 4) = true) ∧
    (∀ i ∈ [WInstr.fld 31 31, .fst 31 31], let s := at5 co i fun c => { c with fstHeld := some (0, 0) }
      s.issues co i ∧ (s.core 63).fstHeld ≠ none) ∧
    (let s := at5 co .nop fun c => { q c with dma := [(3, busy)] }
     s.runs (coreDomain 63) ∧ s.coreIn 63 = true ∧ tabGet ({} : DmaCh) (s.core 63).dma 3 = busy ∧ busy.busy = true ∧ busy.bad = false ∧
      s.memOk busy.fabric = true ∧ s.memOk (busy.fabric + (4 * busy.count - 1)) = true ∧
      (s.core 63).wait = some (.dma 3 63) ∧ (s.load busy.fabric (4 * busy.count)).isSome = true ∧
      s.load 0 4 = none ∧ s.memOk 0 = false ∧ ({ busy with count := 0 } : DmaCh).bad = true) := by decide
theorem wit_Rotation : let s := at5 (.wick 63) .rot id; let c := s.core 63
    s.issues (.wick 63) .rot ∧ (s.seen (.wick 63)).loops = [] ∧
      ({ c with loops := [⟨2, 1, 5, true⟩] } : WCore).loops.head?.map (fun l => decide (l.last = c.pc) && l.rot) = some true := by
  decide
theorem wit_CoreControl : let h := s0.setCore 63 { loaded := true, entry := 7 }; let r := s0.setCore 63 { st := .running }
    let l := { s0 with loader := some ⟨4, [63], 0x08000000, [], some 0⟩ }
    let n := s0.setCore 69 { loaded := true }; let o := s0.setCore 69 { st := .running }
    h.opens m (WICK_CTL 63) ∧ h.inService (coreUnit 63) = true ∧ (h.core 63).running = false ∧ (h.core 63).loaded = true ∧
      (s0.core 63).loaded = false ∧ s0.opens m (WICK_CTL 63) ∧ s0.inService (coreUnit 63) = true ∧ r.opens m (WICK_CTL 63) ∧
      (r.core 63).running = true ∧ (r.core 63).task = none ∧ (r.core 63).frames = [] ∧
      s0.opens m (WICK_DMEM_DATA 63) ∧ s0.opensRead m (WICK_DMEM_DATA 63) ∧ s0.opens m (WICK_IMEM_DATA 63) ∧
      (s0.core 63).running = false ∧ fromCode m = false ∧ r.opens m (WICK_IMEM_DATA 63) ∧
      s0.opens (.wick 0) (WICK_IMEM_DATA 63) ∧ fromCode (.wick 0) = true ∧
      n.opens m (LANT_RUN 5) ∧ n.inService (coreUnit 69) = true ∧ (n.core 69).running = false ∧ (n.core 69).loaded = true ∧
      o.opens m (LANT_RUN 5) ∧ o.inService (coreUnit 69) = true ∧ (o.core 69).running = true ∧
      s0.opens m WICK_LOAD_CMD ∧ s0.loadKeys 0x10000105 ≠ [] ∧ fld 0x10000105 31 28 = 1 ∧ s0.loader = none ∧
      (s0.loadKeys 0x10000105).all (fun k => !(s0.core k).running && s0.coreIn k) = true ∧
      l.opens m WICK_LOAD_CMD ∧ l.loader ≠ none ∧ fld 0x20000105 31 28 ≠ 1 ∧ l.runs 20 ∧
      [63].all l.coreIn = true ∧ (l.load 0x08000000 (4 * 0)).isSome = true ∧ (imgWrites []).length ≤ 0 + 2048 := by decide

/-! ### Lanterns -/

/-- Lantern 5 at the word of `i`, with parameter block `blk` at p0, on `s`. -/
def onLantern (i : WInstr) (blk : List (Nat × BitVec 24)) (s : State) : State :=
  s.setCore 69 { st := .running, pc := 5, imem := [(5, wencode i)], dmem := blk, d := [(63, 0x3FFFF)] }
theorem wit_LanternTime : (∀ i ∈ [WInstr.tnow 3, .tget 63 3 2, .tput 63 3 2, .tadd 3 2 63 true, .tsub 63 3 2, .tmov 3 2, .twaitu 3],
      (at5 (.lantern 5) i id).issues (.lantern 5) i) ∧
    (let s := at5 (.lantern 5) .nop fun c => { c with wait := some (.time 9) }
     s.runs 13 ∧ s.inService (coreUnit 69) = true ∧ (s.core 69).wait = some (.time 9)) := by decide
/-- Lamp 2 of `s` in RX at 868 MHz. -/
def tuned2 (s : State) : State :=
  (s.setReg (LAMP_TUNE 2) 868000).setLamp 2 { st := .rx, calValid := 0xF, locked := true, centre := 868000000 }
/-- Lantern 5 as an instruction sees it. -/
def lant5 (s : State) : WCore := { s.seen (.lantern 5) with waited := 0 }
theorem wit_LanternRadio : let i := WInstr.rcmd 62 0 1 2
    let s := onLantern i [] s0; let k := onLantern i [(0, 0xC00000)] s0; let g := tuned2 (onLantern i [(0, 0x800000)] s0)
    let f := onLantern i [(0, 0x800000)] s0; let v := fun (s : State) => (s.at 0).setCore 69 (lant5 s)
    let x := fun (s : State) => (v s).rcmdTx 69 (lant5 s) 0 1 2; let l := fun (s : State) => (v s).txLamp (5 / 2) (x s).ofs
    s.issues (.lantern 5) i ∧ (lant5 s).param 69 0 0 / 2 ^ 22 = 0 ∧ (lant5 s).rcmdZero 69 0 = true ∧ k.issues (.lantern 5) i ∧
      (lant5 k).param 69 0 0 / 2 ^ 22 = 3 ∧ g.issues (.lantern 5) i ∧ (lant5 g).param 69 0 0 / 2 ^ 22 = 2 ∧
      (lant5 g).rcmdZero 69 0 = true ∧ ((v g).txJudge (l g) (x g) (.ok 0)).toOption = some 0 ∧
      (v g).gapClash (l g) (x g).s (x g).d = false ∧ f.issues (.lantern 5) i ∧ (lant5 f).rcmdZero 69 0 = true ∧
      ((v f).txJudge (l f) (x f) (.ok 0)).toOption = none ∧
      (∀ w : Bool, (onLantern (.rstat 1 63 w) [] s0).issues (.lantern 5) (.rstat 1 63 w)) := by decide
theorem wit_LanternRadio_clash : let i := WInstr.rcmd 62 0 1 2
    let t := tuned2 (onLantern i [(0, 0x800000)] s0); let g := t.setLamp 2 { t.lamp 2 with queue := [plainTx] }
    let g := g.setCore 69 { g.core 69 with tm := [(2, 1000)] }
    let v := (g.at 0).setCore 69 (lant5 g); let x := v.rcmdTx 69 (lant5 g) 0 1 2
    g.issues (.lantern 5) i ∧ (v.txJudge 2 x (.ok 0)).toOption = some 0 ∧ v.txLamp (5 / 2) x.ofs = 2 ∧
      v.gapClash 2 x.s x.d = true := by decide
/-- The entry `e` in the table with the engine ready and a key in the slots that its KEYREF names. -/
def tabled (e : List Word) : State :=
  { (((((table e).setReg NBR_MSG_HI 8).setReg NBR_MSG_LO 0x2000000).setReg NBR_CTL 0x80000000).setReg CIPH_STATUS
    0x10000000).setReg CIPH_CTL 0x07FE0001 with
    ciph := { slots := [(2044, { key := some { key0 with epoch := 0 } })] }, sec := {} }
def keyed (q : Word) : List Word := entry 0x400807FC 0 q
theorem wit_LanternRadio_place : let i := WInstr.place 31 63 30 true 7 0 1 2; let s := onLantern i [] (tabled idle)
    let c := lant5 s; let v := (s.at 0).setCore 69 c; let z := onLantern i [] (tabled (entry 0 0 0))
    s.issues (.lantern 5) i ∧ ((v.event 170).instEntry (c.dr 63).toNat eActive).2.toOption = some idle ∧
      z.issues (.lantern 5) i ∧
      ((((z.at 0).setCore 69 (lant5 z)).event 170).instEntry ((lant5 z).dr 63).toNat eActive).2.toOption = none := by decide
theorem bytesOf_length : ∀ l : List Bool, 8 * (bytesOf l).length ≤ l.length
  | a :: b :: c :: d :: e :: f :: g :: h :: r => by
    have := bytesOf_length r
    simp only [bytesOf, List.length_cons]
    omega
  | [] | [_] | [_, _] | [_, _, _] | [_, _, _, _] | [_, _, _, _, _] | [_, _, _, _, _, _] | [_, _, _, _, _, _, _] => by simp [bytesOf]
theorem encode_size (c : Ldpc) (l : List Bool) : (c.encode l).size = max c.n l.length := by
  have inner : ∀ (g : Array Bool → Nat → Nat) (h : Array Bool → Nat → Bool) (is : List Nat) (v : Array Bool),
      (is.foldl (fun v i => v.setIfInBounds (g v i) (h v i)) v).size = v.size := by
    intro g h is
    induction is with
    | nil => intro v; rfl
    | cons i is ih => intro v; simp [List.foldl_cons, ih]
  have outer : ∀ (rs : List LdpcRow) (f : Array Bool → LdpcRow → Array Bool) (v : Array Bool),
      (∀ v r, (f v r).size = v.size) → (rs.foldl f v).size = v.size := by
    intro rs f
    induction rs with
    | nil => intro v _; rfl
    | cons r rs ih => intro v h; rw [List.foldl_cons, ih _ h, h]
  unfold Ldpc.encode
  rw [outer]
  · simp; omega
  · intro v r
    exact inner _ _ _ _
theorem enc_length (c : Ldpc) (l : List Bool) : (c.encode l).toList.length = max c.n l.length := by
  rw [Array.length_toList]
  exact encode_size c l
theorem bitsOf_length (l : List Byte) : (bitsOf l).length = 8 * l.length := by
  induction l with
  | nil => rfl
  | cons a l ih => simp [bitsOf, List.flatMap_cons] at ih ⊢; omega
theorem pieces_small {α : Type} (k : Nat) : ∀ (f : Nat) (l : List α), (pieces k f l).length ≤ f ∧ ∀ p ∈ pieces k f l, p.length ≤ k
  | 0, l => by simp [pieces]
  | f + 1, l => by
    have ih := pieces_small k f (l.drop k)
    unfold pieces
    split
    · simp
    · refine ⟨by simp only [List.length_cons]; omega, ?_⟩
      intro p h
      rcases List.mem_cons.mp h with rfl | h
      · simp
      · exact ih.2 p h
theorem flatMap_small {α β : Type} (g : α → List β) (n : Nat) : ∀ l : List α, (∀ x ∈ l, (g x).length ≤ n) →
    (l.flatMap g).length ≤ l.length * n
  | [], _ => by simp
  | a :: l, h => by
    have i := flatMap_small g n l fun x m => h x (List.mem_cons_of_mem _ m)
    have j := h a (List.mem_cons_self ..)
    simp only [List.flatMap_cons, List.length_append, List.length_cons, Nat.add_mul]
    omega
/-- Every transmit image is shorter than 32 KiB. -/
theorem image_small (l : Link) (hdr : Word) (st : List Byte) : (imageOf l hdr st).length ≤ 0x8000 := by
  have kn : (hdrPay hdr).n ≤ 6144 ∧ (hdrPay hdr).k ≤ 2048 := by
    have k4 : ∀ c < 4, ksizeK c ≤ 2048 := by decide
    have := k4 (hdrKsize hdr % 4) (Nat.mod_lt _ (by decide))
    have e : ksizeK (hdrKsize hdr) = ksizeK (hdrKsize hdr % 4) := by simp [ksizeK]
    unfold hdrPay payCode
    split <;> constructor <;> simp only <;> omega
  have cw : ∀ b : List Byte, b.length ≤ (hdrPay hdr).k / 8 →
      (bytesOf ((hdrPay hdr).encode (bitsOf b)).toList).length ≤ 768 := by
    intro b h
    have := bytesOf_length ((hdrPay hdr).encode (bitsOf b)).toList
    rw [enc_length, bitsOf_length] at this
    omega
  have ps := pieces_small ((hdrPay hdr).k / 8) (hdrNcw hdr) st
  have fm := flatMap_small (fun b => bytesOf ((hdrPay hdr).encode (bitsOf b)).toList) 768 _ fun b h => cw b (ps.2 b h)
  have hd := bytesOf_length (hdrCode.encode (bitsOf (beBytes 4 hdr.toNat))).toList
  rw [enc_length, bitsOf_length] at hd
  have hb : (beBytes 4 hdr.toNat).length = 4 := by simp [beBytes, leBytes]
  have n32 : hdrNcw hdr ≤ 32 := by
    have := Nat.mod_lt (hdr.toNat / 2 ^ 16) (show 0 < 2 ^ 5 by decide)
    simp [hdrNcw, fld]; omega
  have hn : hdrCode.n = 96 := by decide
  have lb : ∀ n x, (leBytes n x).length = n := by
    intro n
    induction n with
    | zero => intro x; rfl
    | succ n ih => intro x; simp [leBytes, ih]
  unfold imageOf
  simp only [List.length_append, lb, List.length_replicate]
  have m : (pieces ((hdrPay hdr).k / 8) (hdrNcw hdr) st).length * 768 ≤ 32 * 768 := Nat.mul_le_mul_right _ (by omega)
  omega
theorem image_stored {q : State} (e : q.domOn 21 = true) (l : Link) (hdr : Word) (st : List Byte) :
    (q.store 0x08010000 (imageOf l hdr st)).isSome = true := by
  have n := image_small l hdr st
  have a := sram_memOk (a := 0x08010000) e (by omega) (by omega)
  have b := sram_memOk (a := 0x08010000 + ((imageOf l hdr st).length - 1)) e (by omega) (by omega)
  simp [State.store, a, b]
/-- Lantern 5 at BUILD of TYPE `ty` for the last entry, whose words are `e`, with the image in shared SRAM. -/
def building (ty : BitVec 24) (e : List Word) : State :=
  onLantern (.build 1 0 3) [(0, ty), (1, 0x3FFFF), (2, 0x200400)] (tabled e)
theorem wit_LanternBuild_poll : let e := keyed 0xFFFFFFFF; let s := building 0x200000 e
    let c := lant5 s; let v := (s.at 0).setCore 69 c
    let q := ((v.event 167).instEntry 0x3FFFF eActive).1
    let w := q.encryptNow (q.keyrefOf (eKeyref e) (eEpoch e)) (eEpoch e) ((c.param 69 0 0).testBit 8)
      (if (linkOfEntry e).mic16 then 16 else 8) 2
    e.length = 16 ∧ s.issues (.lantern 5) (.build 1 0 3) ∧ c.param 69 0 0 / 2 ^ 21 = 1 ∧ c.param 69 0 1 = 0x3FFFF ∧
      c.buildZero 69 0 = true ∧ (c.param 69 0 0).testBit 20 = false ∧ ((v.event 167).instEntry 0x3FFFF eActive).2.toOption = some e ∧ eBit e 1 29 = false ∧
      eDseq e ≠ 0xFFFFFF ∧ w.2.toOption.isSome = true ∧ c.imgOf 69 0 2 = 0x08010000 ∧
      (w.1.nbrPut 0x3FFFF (eSet (eSet e 5 23 0 1) 1 25 25 0)).domOn 21 = true := by decide
theorem wit_LanternBuild_downlink : let e := keyed 0; let o := keyed 0xFFFFFFFF; let n := building 0x400000 o
    let s := { building 0x400000 e with mem := cellsWrite memZero [] 0x802000000 [1, 0, 0xFF, 0xFF, 240] }
    let c := lant5 s; let v := (s.at 0).setCore 69 c
    let q := ((v.event 168).instEntry 0x3FFFF eActive).1; let d := q.dropMsgs 65535 e
    let w := d.1.nbrPut 0x3FFFF d.2; let m := w.msgAt 0
    let r := w.encryptNow (w.keyrefOf (eKeyref d.2) (eEpoch d.2)) (eEpoch d.2) ((c.param 69 0 0).testBit 8)
      (if (linkOfEntry d.2).mic16 then 16 else 8) 240
    s.issues (.lantern 5) (.build 1 0 3) ∧ c.param 69 0 0 / 2 ^ 21 = 2 ∧ c.buildZero 69 0 = true ∧
      (c.param 69 0 0).testBit 20 = false ∧
      ((v.event 168).instEntry 0x3FFFF eActive).2.toOption = some e ∧ eBit e 1 29 = false ∧ eHead o = 0xFFFF ∧
      n.issues (.lantern 5) (.build 1 0 3) ∧ (w.msgHead d.2).map Prod.fst = some 0 ∧
      ((w.msgHead d.2).bind Prod.snd).map (fun h => eFld h 1 15 0) = some 240 ∧ (w.load (m + 16) 240).isSome = true ∧
      eDseq d.2 ≠ 0xFFFFFF ∧ r.2.toOption.isSome = true ∧ r.1.memOk (m + 1) = true := by decide
theorem wit_LanternBuild_beacon : let s := (building 0x900000 idle).setReg LANT_BCN_CTL 2044
    let p := { s with lant := { s.lant with bcnFirst := [(2044 * 256, 0)], bcnSent := 2 ^ 24 } }
    let c := lant5 s; let v := (s.at 0).setCore 69 c
    s.issues (.lantern 5) (.build 1 0 3) ∧ c.param 69 0 0 / 2 ^ 21 = 4 ∧ (c.param 69 0 0).testBit 20 = true ∧
      c.buildZero 69 0 = true ∧ s.rb NBR_CTL 31 = true ∧ s.bcnSpent = false ∧
      (s.at 0).now ≤ (c.tmr 3).toInt + symNs 64 (linkOf (c.param 69 0 0)).cls ∧
      (c.tmr 3).toInt + symNs 64 (linkOf (c.param 69 0 0)).cls < (s.at 1000000000).now ∧
      p.issues (.lantern 5) (.build 1 0 3) ∧ p.rb NBR_CTL 31 = true ∧ p.bcnSpent = true ∧
      ((v.event 169).encryptNow (false, s.rf LANT_BCN_CTL 10 0) (s.rf LANT_BCN_CTL 31 24)
        ((c.param 69 0 0).testBit 8) 8 12).2.toOption.isSome = true := by decide
theorem wit_LanternBuild_nbr : ∀ x ∈ [(true, (11 : BitVec 4)), (true, 10), (false, 15)], let i := WInstr.nbr 31 63 x.1 x.2 2
    let s := onLantern i [] (tabled idle); let v := (s.at 0).setCore 69 (lant5 s); let z := onLantern i [] (tabled (entry 0 0 0))
    s.issues (.lantern 5) i ∧ (v.instEntry ((lant5 s).dr 63).toNat (fun e => eState e != 0)).2.toOption = some idle ∧
      (v.instEntry ((lant5 s).dr 63).toNat eActive).2.toOption = some idle ∧ z.issues (.lantern 5) i ∧
      (((z.at 0).setCore 69 (lant5 z)).instEntry ((lant5 z).dr 63).toNat (fun e => eState e != 0)).2.toOption = none := by decide

/-! ### DRAM -/

def dram (f : Dmc → Dmc) : State := { dramUp with dmc := f dramUp.dmc }
def tx0 (wr : Option (List (Option Byte))) : DmcTx := ⟨0, 7, 0x800000000, 1, wr, 0, false⟩
theorem wit_DramTransactions : let s := dramUp; let f := (dramUp.setReg (DMC_PORT_CFG 7) 0).setReg (DMC_PORT_CFG 0) 0x800000
    s.runs 22 ∧ inDram 0x8FFFFFFFF = true ∧ s.rankIn (rankOf 0x8FFFFFFFF) = true ∧ s.placeFree 7 = true ∧
      (∀ z ∈ s.dmc.outside, z.port ≠ iniPort .background) ∧ (∀ z ∈ s.dmc.queue, fabCycle z.arrived ≠ fabCycle 0) ∧
      s.rankIn (rankOf 0x900000000) = false ∧ f.placeFree 7 = false ∧
      (let o := dram fun d => { d with outside := [tx0 none] }
       (∃ z ∈ o.dmc.outside, z.port = iniPort .background) ∧ o.runs 22 ∧ o.rankIn 0 = true) ∧
      (∀ w ∈ [none, some [some 1], some [none]], let q := dram fun d => { d with queue := [tx0 w] }
        q.dmc.queue = [tx0 w] ∧ q.dmc.outside = [] ∧ q.dmc.selfRefresh = false ∧ Memory.wf q.mem = true ∧
        (q.at 0).zqBlocks (rankOf (tx0 w).addr) = false ∧
        q.dmc.poison.contains ((tx0 w).addr / 64) = false) ∧ (s.setReg DMC_SCRUB_CTL 0).rb DMC_SCRUB_CTL 31 = false := by decide
def bothRanks : State :=
  { (dramUp.setReg (SYS_UNIT_MGMT 0x39) 1).setReg (SYS_UNIT_DP 0x39) 1 with
    dmc := { dramUp.dmc with trained1 := true, scrubPos := 0x7FFFFFF } }
theorem wit_DramTransactions_scrub : let s := bothRanks.setReg DMC_SCRUB_CTL 0x80000001
    s.runs 22 ∧ s.rb DMC_SCRUB_CTL 31 = true ∧ s.dmc.selfRefresh = false ∧ s.rankIn 0 = true ∧ s.rankIn 1 = true ∧
      s.dmc.scrubMs ≠ (s.at 5000000).clk / 1000000 ∧ s.rf DMC_SCRUB_CTL 11 0 ≠ 0 ∧ s.dmc.scrubPos < 0x8000000 ∧
      s.dmc.poison = [] ∧ (let b := { s with dmc := { s.dmc with scrubMs := 5, scrubN := 1 } }
        b.dmc.scrubMs = (b.at 5000000).clk / 1000000 ∧ b.rf DMC_SCRUB_CTL 11 0 ≤ b.dmc.scrubN) := by decide
theorem wit_DramUpkeep_pmp : ∀ (s : State) (a : Nat), s.pmpOk .host .write a 4 = true := fun _ _ => rfl
theorem wit_DramUpkeep : let s := dramUp; let g : Training := { ranks := 1, cur := 0, steps := 94 }
    let r := dram fun d => { d with training := some g, rate := 0 }; let c := dram fun d => { d with coolAt := some 0, rate := 2 }
    let a := dram fun d => { d with alerts := [(0, 3)] }; let e : Training := { ranks := 3, cur := 1, steps := 95 }
    s.runs 22 ∧ { s with board := { s.board with linkUp := true } }.hears .host = true ∧
      (dram fun d => { d with training := some e }).dmc.training = some e ∧ e.set = none ∧ e.failed = 0 ∧
      fld 0x20000003 31 28 ≠ 1 ∧ r.dmc.training ≠ none ∧
      128 < min 128 (fld 0xFF0000 23 16) + (((List.range 8).filter fun q => q ≠ 7).map s.portReserve).sum ∧ s.rankIn 0 = true ∧ s.dmc.selfRefresh = false ∧ c.dmc.coolAt = some 0 ∧ refreshFor c.lid ≤ c.dmc.rate ∧
      0 + 1000000000 ≤ (c.at 1000000000).clk ∧ fld 0x10000003 31 28 = 1 ∧ fld 0x10000003 1 0 ≠ 0 ∧ s.dmc.training = none ∧
      r.dmc.training = some g ∧ 1 ≤ g.steps ∧ g.steps < 95 ∧ tabGet 0 s.dmc.alerts 0 + 1 < 4 ∧ a.rankIn 0 = true ∧
      3 ≤ tabGet 0 a.dmc.alerts 0 ∧ a.dmc.training = none ∧ s.rb DMC_RANK_CTL 0 = false ∧
      s.rb DMC_RANK_CTL 1 = bit 1 1 ∧ bit 1 0 = true ∧
      fld 0x100000 23 16 + (((List.range 8).filter fun q => q ≠ 7).map s.portReserve).sum ≤ 128 := by decide
theorem wit_DramUpkeep_hot : let s := { (dram fun d => { d with rate := 0 }) with regs := (dramUp.setReg SYS_THERMAL 0x5F0005F0).regs }
    s.dmc.rate < refreshFor s.lid := by decide

/-! ### Ethernet, traffic and routing -/

/-- Port 3 enabled, with its link up. -/
def portUp : State := (s0.setReg (EMAC_CTL 3) 0x05EE0001).setReg (EMAC_STATUS 3) 1
def port3 (f : Emac → Emac) : State := portUp.onEmac 3 f
/-- A broadcast frame of EtherType 0x9900 with its FCS. -/
def frame64 : List Byte :=
  List.replicate 6 0xFF ++ List.replicate 6 2 ++ [0x99, 0] ++ List.replicate 46 0 ++ [0xE5, 0x98, 0xCA, 0x89]
theorem wit_EthernetPorts : let s := portUp; let w : MdioRun := ⟨0x20000000, .host, 25600⟩
    let z := { s0 with mdio := some w }; let o := s0.setReg (SYS_UNIT_MGMT 0x33) 0
    s.runs 17 ∧ o.runs 17 ∧ o.opens m (EMAC_CTL 3) ∧ o.inService (0x30 + 3) = false ∧ s.opens m (EMAC_CTL 3) ∧
      s.inService (0x30 + 3) = true ∧ bit 1 0 = true ∧ bit 0 0 = false ∧ s.rb (EMAC_CTL 3) 0 = true ∧ s0.rb (EMAC_CTL 3) 0 = false ∧
      s.rb (EMAC_STATUS 3) 0 = true ∧ (frame64.drop 1).length < 64 ∧
      s.maxLen 3 = 1518 ∧ fTagged (List.replicate 1519 0) = false ∧
      (port3 fun e => { e with pause := some (65535, some 0) }).emacOf 3 = { pause := some (65535, some 0) } ∧
      s.opens m (EMAC_PAUSE_SEND 3) ∧ s.opens m EMAC_MDIO ∧ z.opens m EMAC_MDIO ∧
      s.inService 0x30 = true ∧ s.mdio = none ∧ z.mdio = some w ∧ w.due ≤ (z.at 25600).clk := by decide
theorem wit_EthernetPorts_fcs : let f := List.replicate 64 (0 : Byte)
    64 ≤ f.length ∧ f.length ≤ portUp.maxLen 3 ∧ f.drop 60 ≠ leBytes 4 (crc32 (natsOf (f.take 60))) := by decide +kernel
def ringUp : State :=
  { ((portUp.setReg (EMAC_RX_BASE_LO 3 0) 0x08000000).setReg (EMAC_RX_BASE_LO 3 0 + 8) 0x80010001).setReg
    (EMAC_RX_BASE_LO 3 0 + 12) 1 with mem := cellsWrite memZero [] 0x08000000 [0, 0x10, 0, 8] }
theorem wit_EthernetPorts_receive : let s := ringUp; let f := frame64; let n := f.length - 4; let a := EMAC_RX_BASE_LO 3 0
    let d := s.ringDesc a 0; let buf := s.word32 d / 64 * 64 + s.word32 (d + 4) % 16 * 2 ^ 32
    s.accepts 3 f ≠ .no ∧ fHalf f 12 ∉ [0x8100, 0x8808, 0x0800, 0x86DD, 0x88F7] ∧ 65472 + f.length ≤ 65536 ∧
      s.rb (FWD_VLAN (s.rf (EMAC_VLAN 3) 11 0)) 3 = true ∧ s.ringAvail a ≠ 0 ∧ s.rf (a + 8) 3 0 ≤ 12 ∧ n ≤ s.ringBuf a ∧
      Memory.wf s.mem = true ∧ s.memOk buf = true ∧ s.memOk (buf + (n - 1)) = true ∧ d + 32 ≤ buf := by decide
theorem wit_EthernetPorts_fault : ringUp.rxFault 3 frame64 = none := by decide +kernel
theorem wit_EthernetPorts_pauses : let s := (portUp.setReg (EMAC_CTL 3) 0x05EE0201).setReg (EMAC_PAUSE_CTL 3) 0x00010804
    let x := s.onEmac 3 fun e => { e with xoff := some 0 }
    s.rb (EMAC_CTL 3) 0 = true ∧ s.rb (EMAC_CTL 3) 9 = true ∧ (s.emacOf 3).xoff = none ∧
      s.rf (EMAC_PAUSE_CTL 3) 15 8 * 1024 ≤ 8192 ∧ (x.emacOf 3).xoff = some 0 ∧ x.rf (EMAC_PAUSE_CTL 3) 7 0 * 1024 ≤ 4096 ∧
      0 * 20 + x.rf (EMAC_PAUSE_CTL 3) 31 16 * 512 * x.bitTenths 3 ≤ (x.at 1000000).clk * 20 ∧
      4095 < x.rf (EMAC_PAUSE_CTL 3) 7 0 * 1024 := by decide
def txf : TxFrame := { src := .transit, port := 3, queue := 7, data := List.replicate 60 0, vid := 4094 }
def sending : State :=
  { ((portUp.setReg (txRing 3 7) 0x08000000).setReg (txRing 3 7 + 8) 0x80010001).setReg (txRing 3 7 + 12) 1 with
    mem := cellsWrite memZero [] 0x08000000 [0, 0x10, 0, 8, 0, 0, 0, 0, 1, 0, 0, 0x40] }
theorem wit_EthernetTransmit : let s := sending; let d := s.ringDesc (txRing 3 7) 0; let n := s.word32 (d + 8) % 16384
    s.runs 17 ∧ s.portUp 3 = true ∧ s.tmgr.adm = [] ∧ s.txPend 3 7 = [] ∧ s.ringAvail (txRing 3 7) ≠ 0 ∧
      (s.word32 (d + 8)).testBit 30 = true ∧ (s.word32 (d + 8)).testBit 27 = false ∧ (s.word32 (d + 8)).testBit 28 = false ∧
      n ≠ 0 ∧ max 60 n ≤ s.maxLen 3 ∧ (s.load (s.word32 d + s.word32 (d + 4) % 16 * 2 ^ 32) n).isSome = true := by decide
theorem wit_EthernetTransmit_selects : let a := { portUp with tmgr := { adm := [txf] } }
    let q := { portUp with tmgr := { queues := [(31, [txf])] } }; let z := a.setReg (TMGR_Q_CFG 31) 0
    let w := port3 fun e => { e with wire := some ⟨txf, 0, 800⟩ }
    let c := port3 fun e => { e with sends := [0] }
    a.runs 17 ∧ a.tmgr.adm = [txf] ∧ a.rb (TMGR_VCLS txf.vid) 15 = false ∧ a.rb (TMGR_VCLS txf.vid) 31 = false ∧
      (a.setReg (TMGR_Q_CFG 31) 0x1000).fits txf = true ∧ z.fits txf = false ∧ z.holds txf = false ∧ q.portUp 3 = true ∧
      q.rb (EMAC_STATUS 3) 0 = true ∧ (q.emacOf 3).wire = none ∧ (c.emacOf 3).sends = [0] ∧ (q.emacOf 3).sends = [] ∧
      (q.at 0).paused 3 = false ∧ q.rb (TMGR_GCL_CTL 3) 31 = false ∧ (q.gclOf 3).running = false ∧
      (q.gclOf 3).pend = none ∧ q.queueOf (8 * 3 + 7) = [txf] ∧ q.rb (TMGR_Q_CFG (8 * 3 + 7)) 30 = false ∧
      (w.emacOf 3).wire = some ⟨txf, 0, 800⟩ ∧ 800 ≤ (w.at 800).clk ∧ txf.oneStep = false ∧ txf.queue < 8 ∧
      txf.src = .transit ∧ (w.at 799).clk < 800 ∧ txf.port < 4 ∧ z.runs 17 := by decide
def gated (g : Gcl) : State :=
  { ((s0.setReg (TMGR_GCL_CTL 3) 0x101).setReg (TMGR_ADMIN_CYCLE 3) 1000000).setReg (TMGR_GCL_INTERVAL 3 1 0) 1000 with
    tmgr := { gcl := [(3, g)] } }
theorem wit_TrafficShaping : let x : Flow := { t := 0, last := 0, next := 15625000, frames := [txf] }
    let s := { s0 with tmgr := { flows := [(511, x)] } }; let now := (s.at 1000000000).wheelNow
    s.runs 17 ∧ now = 15625000 ∧ x.isDue now = true ∧ x.dueSlot = now ∧ s.tmgr.wheelSlot ≠ now ∧ txf.port < 4 ∧
      s.opens m (TMGR_FLOW_RATE 510) ∧ s.opens m (TMGR_FLOW_BURST 511) ∧ s.opens m (TMGR_POL_RATE 1023) ∧
      s.opens m (TMGR_POL_CBS 1023) ∧
      (s.flowOf 510).frames = [] ∧ (s.gclOf 3).pend = none ∧ (s.gclOf 3).rawEnd = none ∧ (s.gclOf 3).running = false ∧
      ((gated { running := true, cycle := 1000, len := 1 }).gclOf 3).running = true ∧
      ((gated { pend := some ⟨5, 1000, 1, .host, false⟩ }).gclOf 3).pend = some ⟨5, 1000, 1, .host, false⟩ ∧
      5 ≤ ((gated {}).at 1000000000).now := by decide
theorem wit_TrafficShaping_commit : let s := (gated {}).setReg (TMGR_GCL_CTL 3) 1; let q := (s.at 0).gclRun 3
    let z := (s.setReg (TMGR_GCL_CTL 3) 0); let w : GclPend := ⟨1000000000000, 1000, 1, .host, false⟩
    let p := (gated { pend := some w }).setReg (TMGR_GCL_CTL 3) 1; let r := (p.at 0).gclRun 3
    s.opens m (TMGR_GCL_CMD 3) ∧ z.opens m (TMGR_GCL_CMD 3) ∧ p.opens m (TMGR_GCL_CMD 3) ∧ (r.gclOf 3).pend = some w ∧
      r.rf (TMGR_GCL_CTL 3) 8 0 = 1 ∧ (r.reg (TMGR_ADMIN_CYCLE 3)).toNat = 1000000 ∧
      (∀ e < 1, r.reg (TMGR_GCL_INTERVAL 3 (1 - (r.gclOf 3).bank) e) ≠ 0) ∧ iniIdx w.by_ ≠ iniIdx m ∧
      (q.gclOf 3).pend = none ∧ q.rf (TMGR_GCL_CTL 3) 8 0 = 1 ∧ (q.reg (TMGR_ADMIN_CYCLE 3)).toNat = 1000000 ∧
      (∀ e < 1, q.reg (TMGR_GCL_INTERVAL 3 (1 - (q.gclOf 3).bank) e) ≠ 0) ∧ ((z.at 0).gclRun 3).rf (TMGR_GCL_CTL 3) 8 0 = 0 := by decide
def route0 : Route := { prefix_ := 0, len := 0, hop := 0, v4 := true, direct := true, black := false, port := 3, vid := 4094 }
def neigh0 : Neigh := { addr := 0xC0000201, mac := 1, v4 := true, port := 3 }
theorem wit_ForwardingTables : let e := { s0 with fwd := { routes := [(8191, route0)], neighs := [(4095, neigh0)] } }
    let s := s0.setReg (FWD_BUF 8) 0xC0003FFE; let n := ((s0.setReg (FWD_BUF 3) 0xC0000201).setReg (FWD_BUF 5) 0xB000)
    s.runs 17 ∧ s.opens m FWD_CMD ∧ n.opens m FWD_CMD ∧ e.opens m FWD_CMD ∧ s0.opens m FWD_CMD ∧ (s0.setReg (FWD_BUF 5) 1).bufNeigh = none ∧ (s0.setReg (FWD_BUF 5) 1).opens m FWD_CMD ∧
      s0.routeAt (8191#13).toNat = none ∧ s0.neighAt (8191#13).toNat = none ∧ s.bufRoute = some route0 ∧ lowestFree s.fwd.routes 0 8192 = some 0 ∧
      (e.fwd.routes.find? fun e => e.2.v4 == route0.v4 && e.2.prefix_ == route0.prefix_ && e.2.len == route0.len) =
        some (8191, route0) ∧ s0.bufRoute = none ∧ (e.routeAt (8191#13).toNat).isSome = true ∧ n.bufNeigh.isSome = true ∧
      lowestFree n.fwd.neighs 0 4096 = some 0 ∧ e.neighAt 4095 = some neigh0 ∧
      (e.fwd.neighs.find? fun e => e.2.v4 == neigh0.v4 && e.2.addr == neigh0.addr && e.2.port == neigh0.port) =
        some (4095, neigh0) := by decide
/-- A table with an entry `x` under every index from `i` on, `n` of them. -/
def filled {α : Type} (x : α) (i n : Nat) : Tab α := (List.range n).map fun k => (i + k, x)
theorem filled_full {α : Type} (x : α) (m : Nat) : ∀ n i, i + n ≤ m → lowestFree (filled x 0 m) i n = none
  | 0, _, _ => rfl
  | n + 1, i, h => by
    have k : (filled x 0 m).any (fun e => e.1 == i) = true := by
      simp only [List.any_eq_true, filled]
      exact ⟨(i, x), List.mem_map.mpr ⟨i, by simp; omega, by simp⟩, by simp⟩
    rw [lowestFree, if_pos k]
    exact filled_full x m n (i + 1) (by omega)
/-- A list no element of which meets `p` finds none. -/
theorem filled_miss {α : Type} (x : α) (n : Nat) (p : Nat × α → Bool) (h : ∀ k, p (k, x) = false) :
    (filled x 0 n).find? p = none :=
  List.find?_eq_none.mpr fun e m => by
    obtain ⟨k, -, rfl⟩ := List.mem_map.mp m
    simp [h]
theorem wit_ForwardingTables_full : ∃ s n : State,
    (∃ r, s.bufRoute = some r ∧ s.fwd.routes.find? (fun e => e.2.v4 == r.v4 && e.2.prefix_ == r.prefix_ && e.2.len == r.len)
        = none) ∧ lowestFree s.fwd.routes 0 8192 = none ∧
      (∃ r, n.bufNeigh = some r ∧ n.fwd.neighs.find? (fun e => e.2.v4 == r.v4 && e.2.addr == r.addr && e.2.port == r.port)
        = none) ∧ lowestFree n.fwd.neighs 0 4096 = none := by
  obtain ⟨s, hs⟩ : ∃ s, s = { s0.setReg (FWD_BUF 8) 0xC0003FFE with
    fwd := { routes := filled { route0 with len := 1 } 0 8192 } } := ⟨_, rfl⟩
  obtain ⟨n, hn⟩ : ∃ n, n = { (s0.setReg (FWD_BUF 3) 0xC0000202).setReg (FWD_BUF 5) 0xB000 with
    fwd := { neighs := filled neigh0 0 4096 } } := ⟨_, rfl⟩
  have r : s.fwd.routes = filled { route0 with len := 1 } 0 8192 := by rw [hs]
  have q : n.fwd.neighs = filled neigh0 0 4096 := by rw [hn]
  refine ⟨s, n, ?_⟩
  rw [r, q]
  exact ⟨⟨route0, by rw [hs]; decide +kernel, filled_miss _ _ _ fun _ => rfl⟩,
    filled_full _ 8192 8192 0 (Nat.le_refl _),
    ⟨{ neigh0 with addr := 0xC0000202, mac := 0 }, by rw [hn]; decide +kernel, filled_miss _ _ _ fun _ => rfl⟩,
    filled_full _ 4096 4096 0 (Nat.le_refl _)⟩
theorem wit_Encapsulation : let s := ((s0.setReg FWD_ENC_PORTS 0x00010000).setReg (FWD_LOCAL_EN) 0xFFFF).setReg FWD_ENC_LIM 0x000405DC
    let r := { s.setReg FWD_ENC_CTL 0x80000000 with lant := { records := [List.replicate 32 0] } }
    let a := { s with fwd := { openRecs := [[0]] } }
    s.runs 17 ∧ s.opens m FWD_ENC_CTL ∧ s0.opens m FWD_ENC_CTL ∧ s.rf FWD_ENC_PORTS 31 16 ≠ 0 ∧ s.rb FWD_LOCAL_EN (fld 0x8F000000 27 24) = true ∧ bit 0x8F000000 31 = true ∧
      s0.rf FWD_ENC_PORTS 31 16 = 0 ∧ s.encWaits = false ∧ s0.rb FWD_ENC_CTL 31 = false ∧ r.rb FWD_ENC_CTL 31 = true ∧
      (r.at 0).aged = false ∧ r.lant.records = [List.replicate 32 0] ∧ r.encWaits = false ∧
      16 + (r.fwd.openRecs ++ [wireRecord (List.replicate 32 0)]).flatten.length ≤ r.rf FWD_ENC_LIM 13 0 ∧
      r.fwd.openRecs.length < 254 ∧ a.encWaits = false ∧ (a.at 1000000000).aged = true := by decide

/-! ### Power, reset and the board -/

def pwrOp (f : Pwr → Pwr) : State := s0.onPwr f
theorem wit_PowerDomains : let s := (s0.setReg PWR_RESUME 0x08F00000).setReg PWR_RET_MASK 0x8000
    let a := pwrOp fun p => { p with op := some .ember, asked := 18 }; let e := (a.setReg PWR_RESUME 0x08F00000).setReg PWR_RET_MASK 0x8000
    let b := { a with mbx := { a.mbx with opened := [(0, 1)] } }; let x := pwrOp fun p => { p with op := some (.domOff 18), asked := 18 }
    s.runs 0 ∧ s.opens m PWR_CMD ∧ s.resumeOk = true ∧ (s0.setReg PWR_RET_MASK 0).resumeOk = false ∧ s.pwr.op = none ∧
      e.opens m PWR_CMD ∧ e.resumeOk = true ∧ e.pwr.op ≠ none ∧ s.dom 18 = .on ∧ s.domOn 18 = true ∧ a.opens m PWR_CMD ∧
      (pwrOp fun p => { p with dom := [(18, .off)] }).dom 18 = .off ∧
      (pwrOp fun p => { p with dom := [(18, .off)] }).opens m PWR_CMD ∧ a.asking = true ∧ a.pwr.wakePending = false ∧
      a.pwr.asked ≠ 19 ∧ a.domRefuses 18 = none ∧ b.asking = true ∧ b.pwr.wakePending = false ∧
      b.domRefuses b.pwr.asked = some 1 ∧ b.pwr.asked < 24 ∧ b.opens m PWR_CMD ∧ x.asking = true ∧ x.pwr.wakePending = false ∧
      x.domRefuses x.pwr.asked = none ∧ x.opens m PWR_CMD ∧
      a.pwr.askedAt + a.rf PWR_ACK_TIMEOUT 15 0 * 1000 ≤ (a.at 100000000).clk := by decide
theorem wit_PowerDomains_wakes :
    let c := (pwrOp fun p => { p with op := some .ember, committed := true }).setReg PWR_RET_MASK 0xFFFE
    let e := (pwrOp fun p => { p with ember := true }).setReg PWR_WAKE_EN 0x7FF
    let w := fun (k : Nat) => pwrOp fun p => { p with op := some .ember, waking := some k }
    let d := pwrOp fun p => { p with op := some (.domOn 18), waking := some 118 }
    c.pwr.op = some .ember ∧ c.pwr.ember = false ∧ c.pwr.askedAt + c.retained.length * 41000 ≤ (c.at 1000000).clk ∧
      c.rb PWR_RET_MASK 0 = false ∧ inSram 0x08000000 = true ∧ inSram 0 = false ∧ e.wakeEnabled 10 = true ∧
      e.pwr.waking = none ∧ e.pwr.ember = true ∧ s0.wakeEnabled 9 = false ∧ c.pwr.committed = true ∧
      (∀ k ∈ [1, 4, 5, 2, 9, 102, 114], (w k).runs 0 ∧ (w k).opens m PWR_CMD ∧ (w k).pwr.waking = some k ∧
        (w k).pwr.op = some .ember) ∧ (∀ k ∈ [1, 4, 5, 2, 3, 6, 7, 8],
        (w k).pwr.stepAt + stepTimeout k ≤ ((w k).at 1000000000).clk) ∧ (w 9).pwr.waking = some 9 ∧ (w 101).pwr.op = some .ember ∧
      d.pwr.op = some (.domOn 18) ∧ d.pwr.stepAt + stepTimeout 118 ≤ (d.at 50000).clk ∧
      (w 8).pwr.stepAt + stepTimeout 8 ≤ ((w 8).at 50000).clk := by decide
def boardIs (f : Board → Board) : State := { s0 with board := f s0.board }
theorem wit_Resets : let s := s0; let off := fun (f : Board → Board) => boardIs fun b => f { b with passOn := false, held := true }
    let g := boardIs fun b => { b with pwrGood := false, held := true }; let h := boardIs fun b => { b with held := true }
    s.board.passOn = true ∧ s.board.pwrGood = true ∧ s.board.thermalHold = false ∧ s.runs 0 ∧
      (let o := off fun b => { b with vinOk := false }
       o.board.passOn = false ∧ o.board.vinOk = false ∧ o.board.hsEn = true ∧ o.board.overVolt = false ∧
         o.board.breakerAt = none) ∧
      (off fun b => { b with overVolt := true }).board.overVolt = true ∧ (off id).board.vinOk = true ∧
      (let o := off fun b => { b with breakerAt := some 0 }
       o.board.breakerAt = some 0 ∧ 0 + 900000000 ≤ (o.at 900000000).clk) ∧
      g.board.passOn = true ∧ g.board.pwrGood = false ∧ g.board.thermalHold = false ∧
      (let o := boardIs fun b => { b with held := true, refOk := false }
       o.board.pwrGood = true ∧ o.board.refOk = false ∧ o.board.pwrGoodAt + 100000000 ≤ (o.at 100000000).clk) ∧
      h.board.held = true ∧ h.board.resetN = true ∧ h.board.refOk = true ∧ h.board.tapDirty = false ∧
      h.board.relDue ≤ (h.at 500000).clk ∧ (boardIs fun b => { b with resetN := false }).board.resetN = false ∧
      (off id).board.hsEn = true ∧ (off fun b => { b with overVolt := true }).board.vinOk = true ∧
      (off fun b => { b with overVolt := true }).board.hsEn = true ∧
      (off fun b => { b with overVolt := true }).board.breakerAt = none ∧ (off id).board.overVolt = false ∧
      (off id).board.breakerAt = none ∧ (off id).board.passOn = false ∧ s.opens m SYS_RESET_CTRL ∧
      h.board.pwrGood = true ∧ h.board.thermalHold = false ∧
      (boardIs fun b => { b with thermalHold := true }).board.thermalHold = true := by decide
theorem wit_BoardEvents : let a := boardIs fun b => { b with tempAlert := true }; let r := boardIs fun b => { b with refOk := false }
    s0.runs 0 ∧ s0.board.tempAlert = false ∧ sfld (s0.reg SYS_THERMAL) 31 24 * 16 ≤ 2080 ∧ a.board.tempAlert = true ∧
      s0.domOn 1 = true ∧ s0.board.refOk = true ∧ r.board.refOk = false ∧ s0.domOn 18 = true ∧
      (boardIs fun b => { b with perstN := true }).board.perstN = true ∧
      (79 : Int) * 16 < sfld (s0.reg SYS_THERMAL) 31 24 * 16 := by decide

/-! ### Management -/

/-- The mailbox ready with one command of `op` and TAG 9 and the payload `p` at its head, version 0 agreed. -/
def mail (op : Byte) (p : List Byte) : State :=
  { ((s0.setReg HIF_MBX_BASE 0x08000000).setReg HIF_MBX_STATUS 1).setReg HIF_MBX_CMD_IDX 1 with
    mem := cellsWrite memZero [] 0x08000000 ([9, 0, op, 0] ++ leBytes 4 p.length ++ p), mbx := { s0.mbx with minor := some 0 }
    boot := { phase := .done } }
theorem wit_MailboxCommands : ∀ x ∈ [((1 : Byte), [0, 1]), (1, [0, 2]), (2, []), (3, [8]), (0x11, [0x34]), (0x20, [3, 0, 0, 0, 0, 0, 1, 8]),
      (0x21, [1, 0, 0, 0, 0, 0, 1, 8]), (0x30, []),
      (0x10, [0x34, 0, 0, 0, 0, 0, 0, 0])],
    let s := mail x.1 x.2; let q := (s.at 0).mbxFlush s.mbx.out.length
    s.runs 18 ∧ q.mbxHead.map (fun c => (c.opcode, c.tag, decide (c.len ≤ 56))) = some (x.1.toNat, 9, true) ∧
      q.mbx.opened.lookup 9 = none ∧ q.mbx.minor ≠ none ∧ q.romServes = false ∧ q.calWr = none ∧ q.jrn.used = 0 := by decide
theorem wit_MailboxCommands_hello : let own := fun (s : State) => s.rf HIF_MBX_VER 15 0 / 256
    let w := fun (s : State) => (s.mbxHead.map fun c => c.word 0 / 256 % 256)
    w (mail 1 [0, 1]) = some 1 ∧ w (mail 1 [0, 2]) = some 2 ∧ own s0 = 1 ∧ isUnit 0x34 = true ∧ (s0.at 0).mbxHead = none ∧ s0.mbx.out = [] ∧ s0.runs 18 := by decide
theorem wit_MailboxCommands_set : let v := mail 0x10 [0x34, 0, 0, 0, 0, 0, 0, 0]
    (v.mbxHead.map fun c => (v.unitSet (c.word 0 % 64) (c.word 1 / 65536) (c.word 1 % 2 == 1) (256 + c.tag)).2) = some .refused := by
  decide
/-- The journal with one sector open whose one record holds the byte 7. -/
def journal (s : State) : State :=
  { s with jrn := { used := 1, off := 33, seq := 1 }, nor := cellsWrite norZero [] 0x2100000 (leBytes 4 0 ++ leBytes 4 0 ++
    List.replicate 8 0xFF ++ [1, 0, 0x52, 0x4A, 0, 0, 0, 0, 0, 0, 0, 0, 7, 0xDE, 0xC0, 0, 0]) }
theorem wit_MailboxCommands_journal : let v := journal (mail 0x30 [0, 0, 0, 0, 0, 0, 1, 8])
    v.jrn.used = 1 ∧ v.jrn.first < 1520 ∧ v.jrnLen (jrnSector v.jrn.first + 16) = some 1 ∧
      v.norWord (jrnSector v.jrn.first + 28 + 1) = 0xC0DE ∧ v.norWord (jrnSector v.jrn.first + 20) = 0 ∧
      (v.store 0x08010000 (cellsRead norZero v.nor (jrnSector v.jrn.first + 28) 1)).isSome = true ∧
      (v.mbxHead.map fun c => (c.word 0, c.word 1 + c.word 2 * 2 ^ 32)) = some (0, 0x08010000) := by decide
theorem wit_MailboxCommands_sectors : let v := mail 0x20 [3]
    v.memOk 0x08010000 = true ∧ v.memOk (0x08010000 + 65535) = true ∧ v.poisoned 0x08010000 65536 = false := by decide
/-- An image of 64 bytes, its header and signature block, at 0x0800_1000. -/
def imageHeader : List Byte :=
  leBytes 4 0x48435447 ++ [0, 1, 0, 0] ++ [64, 0, 0, 0] ++ leBytes 4 0x08002000 ++ leBytes 4 0x08002000 ++ leBytes 4 64 ++
    List.replicate 40 0
theorem wit_MailboxCommands_boot : let m := mail 4 [0, 0x10, 0, 8]
    let s := { m with boot := { phase := .mailbox }, mem := cellsWrite memZero m.mem 0x08001000 imageHeader }
    s.romServes = true ∧ s.mbxHead.map (fun c => c.opcode) = some 4 ∧ inSram (0x08001000 + 63) = true ∧
      s.load 0x08001000 64 = some imageHeader ∧ headerCode imageHeader s.board.svn = none ∧
      inSram (0x08001000 + imgLen imageHeader + 135) = true ∧
      (s.load 0x08001000 (imgLen imageHeader + 136)).isSome = true := by decide
theorem wit_MailboxCommands_ring : let w := mail 2 []
    w.mbx.out = [] ∧ (w.rf HIF_MBX_RSP_IDX 23 16 + 1) % 256 ≠ w.rf HIF_MBX_RSP_IDX 7 0 ∧
      (w.store (w.mbxBase + 0x4000 + 64 * w.rf HIF_MBX_RSP_IDX 23 16) (MbxRsp.bytes ⟨2, 9, 0, []⟩)).isSome = true ∧
      (let l := fun (s : State) => { s with board := { s.board with linkUp := true } }
       (l w).opens .host HIF_MBX_CMD_IDX ∧ (l s0).opens .host HIF_MBX_CMD_IDX) ∧
      w.rb HIF_MBX_STATUS 0 = true ∧ s0.rb HIF_MBX_STATUS 0 = false := by decide
/-- Entry 0 of hart 3's PMP opens the whole address space to the lower modes. -/
def pmpOpen : State :=
  { s0 with harts := [(3, { s0.hart 3 with csr := tabSet (tabSet (s0.hart 3).csr 0x3A0 0x1F) 0x3B0 0x3FFFFFFFFFFFFF })] }
theorem wit_ControlCommands : let s := s0.setReg SYS_UNIT_ARG 0x00010001; let o := s0.setReg SYS_UNIT_ARG 0x00010000
    let b := s0.setReg SYS_BUSERR_HI 0x80000000; let c := { s0 with boot := { phase := .console } }
    let l := { s0 with board := { s0.board with linkUp := true } }
    s.runs 0 ∧ s.opens m SYS_UNIT_CMD ∧ o.opens m SYS_UNIT_CMD ∧ fld 0x10000034 5 0 < 0x38 ∧ s0.opens m SYS_SVN_BURN ∧
      s0.opens m PCNT_CTL ∧ l.opens .host PCNT_CTL ∧ pmpOpen.opens (.hart 3 .supervisor) PCNT_CTL ∧ pmpOpen.runs 0 ∧ l.runs 0 ∧
      fld 0x10000034 31 28 = 1 ∧ isUnit (fld 0x10000034 5 0) = true ∧ s.rf SYS_UNIT_ARG 31 16 = s.nextEpoch 0x34 ∧
      s.rb SYS_UNIT_ARG 0 = true ∧ s.domOn (unitDomain 0x34) = true ∧ s0.rf SYS_UNIT_ARG 31 16 ≠ s0.nextEpoch 0x34 ∧
      o.rf SYS_UNIT_ARG 31 16 = o.nextEpoch 0x34 ∧ o.rb SYS_UNIT_ARG 0 = false ∧ b.rb SYS_BUSERR_HI 31 = true ∧
      s0.rb SYS_BUSERR_HI 31 = false ∧ c.boot.phase = .console ∧ (0#32).toNat = c.boot.next ∧ s0.domOn 20 = true := by decide
theorem wit_BackgroundWork : let s := journal s0; let f := { s0 with jrn := { used := 1517 } }
    let u := { s0 with jrn := { used := 1520, off := 0x10000 } }; let k := { s0 with bg := { s0.bg with telemAt := some 0 } }
    let g := (s0.setReg SYS_SSCRUB_CTL 0x80000FFF); let x := s0.setReg SYS_TELEM_CTL 0x80000000
    let y := (x.setReg SYS_TELEM_LO 0x08000000).setReg SYS_TELEM_IDX 1
    s.runs 0 ∧ 1 ≤ s.jrn.used ∧ s.jrn.off + 16 + 4080 ≤ 0x10000 ∧ 1517 ≤ f.jrn.used ∧ f.bg.norSec ≠ (f.at 1000000000).clk / 1000000000 ∧
      f.rf SYS_NOR_CTL 7 0 ≠ 0 ∧ s0.jrn.used < 1517 ∧ g.domOn 21 = true ∧ g.rb SYS_SSCRUB_CTL 31 = true ∧
      g.rf SYS_SSCRUB_CTL 11 0 ≠ 0 ∧ g.bg.sramMs ≠ (g.at 1000000).clk / 1000000 ∧
      g.bg.sramBad.contains (0x200000 + g.bg.sramPos) = false ∧ (s0.setReg SYS_TELEM_CTL 0).rb SYS_TELEM_CTL 31 = false ∧
      x.rb SYS_TELEM_CTL 31 = true ∧ x.bg.telemAt = none ∧
      ((x.setReg SYS_TELEM_IDX 1).rf SYS_TELEM_IDX 25 16 + 1) % 1024 = (x.setReg SYS_TELEM_IDX 1).rf SYS_TELEM_IDX 9 0 ∧
      (let z := x.setReg SYS_TELEM_LO 0x08000000
       let a := z.rf SYS_TELEM_HI 3 0 * 2 ^ 32 + z.rf SYS_TELEM_LO 31 16 * 2 ^ 16 + 64 * z.rf SYS_TELEM_IDX 25 16
       (z.rf SYS_TELEM_IDX 25 16 + 1) % 1024 ≠ z.rf SYS_TELEM_IDX 9 0 ∧ z.memOk a = true ∧ z.memOk (a + 63) = true) ∧
      u.jrn.used = 1520 ∧ 0x10000 < u.jrn.off + 16 + 1 ∧ k.bg.telemAt = some 0 ∧
      (k.at 0).clk < 0 + (k.setReg SYS_TELEM_CTL 1).rf SYS_TELEM_CTL 9 0 * 1000000 ∧
      y.rb SYS_TELEM_CTL 31 = true ∧ s0.domOn 3 = true := by decide
def cluHdr (src : BitVec 10) (c : BitVec 32) : CluHdr := { major := 1, minor := 0, src := src, cluster := c }
def deal0 : MaskDeal := ⟨0, [1, 2, 4], 9, true⟩
theorem wit_ClusterMessages : let s := (s0.setReg (CLU_PEER 3) 1).setReg LANT_CTL 5
    let d := { s with clu := { deal := some deal0 } }; let x : Export := { body := [], t0 := 0, peers := [3] }
    let e := { (s.setReg (MANT_EXP_PEER 3) 3) with mant := { exports := [x] } }
    s.runs 17 ∧ s.opens m CLU_IMPORT ∧ s.rf LANT_PART 15 0 ≠ 1 ∧ s.member = 5 ∧ (cluHdr 5 0).src.toNat = s.member ∧ (cluHdr 1023 0).src.toNat ≠ s.member ∧
      (cluHdr 1023 0).major = 1 ∧ d.clu.deal = some deal0 ∧ d.rb (CLU_PEER 3) 0 = true ∧ s0.rb (CLU_PEER 3) 0 = false ∧
      deal0.agreed = true ∧ ((deal0.at_ : Nat) : Int) * 1000000000 ≤ (d.at 9000000000).now ∧ d.domOn 13 = true ∧
      inSram ((0 : Word).toNat * 16) = false ∧ inDram ((0 : Word).toNat * 16) = false ∧
      inSram ((0x800000 : Word).toNat * 16) = true ∧ (s.load ((0x800000 : Word).toNat * 16) 0x20).isSome = true ∧
      (s.load ((0x800000 : Word).toNat * 16) (bodyLen (List.replicate 32 0))).isSome = true ∧ s.domOn 14 = true ∧
      e.mant.exports = [x] ∧ x.peers = [e.rf (MANT_EXP_PEER 3) 9 0] ∧
      (e.at 0).now ≤ x.t0 + 2000000 - e.rf MANT_EXP_CTL 29 20 * 1000 := by decide
theorem wit_ClusterMessages_headers : (cluHdr 5 Config.clusterId).cluster = Config.clusterId ∧
    (cluHdr 5 (Config.clusterId + 1)).cluster ≠ Config.clusterId := by
  refine ⟨rfl, ?_⟩
  intro h
  have : Config.clusterId + 1 = Config.clusterId := h
  bv_omega
theorem wit_RegisterAccess : let s := s0; let by_ : Ini := .hart 3 .machine; let a := SYS_UNIT_ARG
    let e := EMAC_SERDES 4
    s0.hears .host = false ∧ s.hears by_ = true ∧ s.pmpOk (.hart 3 .supervisor) .write a 4 = false ∧ s.hears (.hart 3 .supervisor) = true ∧
      s.pmpOk (.hart 3 .supervisor) .read a 8 = false ∧ s.pmpOk by_ .write a 8 = true ∧ s.pmpOk by_ .read a 8 = true ∧
      inMemory a = false ∧ 0x10000 ≤ a ∧ s.served by_ a 4 true = true ∧ rsvdEntry a = false ∧ (s.at 0).ownWrite by_ a 1 = none ∧
      (regFind a).isSome = true ∧ s.served by_ a 8 true = false ∧ s.served by_ 0x7FFFFFFC 4 true = false ∧
      s.served by_ 0x7FFFFFFC 4 false = false ∧ inMemory 0x7FFFFFFC = false ∧ rsvdEntry e = true ∧ inMemory e = false ∧
      s.served by_ e 4 true = true ∧ s.served by_ e 4 false = true ∧ s.pmpOk by_ .write e 4 = true ∧ s.pmpOk by_ .read e 4 = true ∧
      inMemory 0x08FFFFFC = true ∧ s.hostSees by_ 0x08FFFFFC 4 = true ∧ s.pmpOk by_ .write 0x08FFFFFC 4 = true ∧
      s.memOk 0x08FFFFFC = true ∧ s.memOk (0x08FFFFFC + 3) = true ∧ Memory.wf s.mem = true ∧
      s.pmpOk by_ .read 0x08FFFFF8 8 = true ∧ s.hostSees by_ 0x08FFFFF8 8 = true ∧
      (s.load 0x08FFFFF8 8).isSome = true ∧ s.opensRead by_ SYS_CNT_SSCRUB_UE ∧ s.opensRead by_ NTIM_RAW_LO ∧
      s.opensRead by_ NTIM_RAW_HI := by decide
theorem wit_ResetState : s0.opens m SYS_RESET_CTRL ∧ Memory.wf s0.mem = true ∧ cellsAbove norZero none s0.nor = true ∧ s0.pending = [] := by decide
theorem wit_MemoriesStayFormed : let s := { s0 with pending := [.tmov (.lantern 0) 0 0] }
    (Memory.wf s.mem = true ∧ cellsAbove norZero none s.nor = true) ∧ (match step s with | .next u => u = s0 | _ => False) := by
  refine ⟨by decide, rfl⟩
theorem wit_AesInverse : let key := List.range 16; let b := List.replicate 16 255
    (key.length = 16 ∨ key.length = 32) ∧ (∀ x ∈ key, x < 256) ∧ b.length = 16 ∧ (∀ x ∈ b, x < 256) := by decide

/-! ### Ill-formed commands -/

theorem test_wf_access : instrWf (.registerWrite 0 .host 0 3 0) = false ∧ instrWf (.rcRead 0 .host 0 5) = false ∧
    instrWf (.rcRead 0 .host 0 8) = true ∧ widthOk 0 = false := by decide
theorem test_wf_wick : wickOk (.wick 0) (.tnow 0) = false ∧ wickOk (.lantern 0) (.clra 0) = false ∧
    instrWf (.twait (.lantern 0)) = false ∧ instrWf (.tget (.lantern 0) 0 0 3) = false ∧
    instrWf (.tget (.lantern 0) 0 0 2) = true := by decide
theorem test_wf_samples : samplesOk 8191 [(8191, -8191)] = true ∧ samplesOk 8191 [(8192, 0)] = false ∧
    instrWf (.preambleDeclaration 0 0 [(0, -8192)] [] {} 0 0 []) = false ∧ instrWf (.blockWrite 0 0 []) = false := by decide
theorem test_wf_bytes : frameOk [] = false ∧ bodyOk [] = false ∧ bodyOk (List.replicate 32 0) = true ∧
    instrWf (.importBody 0 []) = false ∧ instrWf (.frameReceive 0 0 [] 0 0) = false ∧
    instrWf (.maskCheck 0 0 [(0, 0)]) = false := by decide
theorem test_wf_dram : dramOk (.readArrives .host 0x800000000 0) = false ∧ dramOk (.readArrives .host 0x80000003F 2) = false ∧
    dramOk (.writeArrives .host 0x800000000 []) = false ∧ dramOk (.readArrives .host 0x80000003F 1) = true := by decide
set_option maxRecDepth 8000 in
theorem test_wf_console : instrWf (.consoleImageBlock 0 0 (List.replicate 1025 0) true) = false ∧
    instrWf (.consoleImageBlock 0 0 (List.replicate 1024 0) true) = true := by decide

/-! ### Known answers -/

/-- FIPS 197, C.1, which R313 names. -/
theorem test_aes128 : aesEnc (List.range 16) ((List.range 16).map (· * 17)) =
    [0x69, 0xc4, 0xe0, 0xd8, 0x6a, 0x7b, 0x04, 0x30, 0xd8, 0xcd, 0xb7, 0x80, 0x70, 0xb4, 0xc5, 0x5a] := by decide +kernel
/-- IEEE 802.3 CRC-32 of "123456789". -/
theorem test_crc32 : crc32 [0x31, 0x32, 0x33, 0x34, 0x35, 0x36, 0x37, 0x38, 0x39] = 0xCBF43926 := by decide +kernel
/-- R223: d16 reads what d63 read after a rotation. -/
theorem test_rotation : let c : WCore := { d := [(63, 5)] }; c.dr 63 = 5 ∧ c.rotate.dr 16 = 5 ∧ c.rotate.rrb = 47 := by decide
/-- R239: without DSAT a sum wraps and sets V. -/
theorem test_add_wraps : let s := at5 (.wick 0) (.alu .add 1 2 3) fun c => { c with wsr := 0, d := [(2, 0x7FFFFF), (3, 1)] }
    let c := (after (.add (.wick 0) 1 2 3) s).core 0
    c.inflight.map InFlight.val = [0x800000] ∧ c.fV = true ∧ c.fN = true ∧ c.pc = 6 := by decide
/-- R242: at the last iteration the loop ends and the core goes on behind it. -/
theorem test_loop_ends : let s := at5 (.wick 0) .nop fun c => { c with lc := [(2, 1)], loops := [⟨2, 3, 5, false⟩] }
    let c := (after (.nop (.wick 0)) s).core 0
    c.pc = 6 ∧ c.loops = [] := by decide
/-- A command whose core stands at another instruction leaves the core as it was (assumption 7). -/
theorem test_other_instruction : let s := at5 (.wick 0) .nop id; (after (.rot (.wick 0)) s).core 0 = s.core 0 := by decide
/-- R66: SET outside BEACON mode; in BEACON mode only CMD_REFUSED. -/
theorem test_set : let s := (s0.setReg NTIM_ARG_SEC_LO 7).setReg NTIM_ARG_NS 9; let b := s.setReg NTIM_SRC_CTL 2
    (after (.ntimSet 100 m) s).now = 7000000009 ∧ (after (.ntimSet 100 m) b).rb NTIM_STATUS 6 = true ∧
      (after (.ntimSet 100 m) b).now = 100 := by decide
/-- A step takes the front of the queue. -/
theorem test_step_front : (match step { s0 with pending := [.softWarm 0 m, .vinRise 1 false] } with
    | .next u => u.board.held && u.pending == [.vinRise 1 false]
    | _ => false) = true := by decide

end Sys2Proof.Tests
end

section
/-! SUPPORT. What moving to the next instruction leaves in a core, and how the names of the data registers turn (R223). -/
namespace Sys2Proof.Machine

/-- Moving on to the next instruction changes the counts, the pc, the loops and the rotation base, and nothing else. -/
theorem WCore.next_eq (c : WCore) : c.next =
    { c with cyc := c.next.cyc, lc := c.next.lc, rrb := c.next.rrb, loops := c.next.loops, pc := c.next.pc } := by
  simp only [WCore.next]
  split
  · split
    · split <;> split <;> rfl
    · rfl
  · rfl

@[simp] theorem WCore.next_d (c : WCore) : c.next.d = c.d := by rw [c.next_eq]
@[simp] theorem WCore.next_ptr (c : WCore) (j : BitVec 4) : c.next.ptr j = c.ptr j := by rw [c.next_eq]; rfl

theorem physReg_static (r : Fin 48) {n : Nat} (h : n < 16) : physReg r n = n := by simp [physReg, h]

theorem physReg_rotating (r : Fin 48) {n : Nat} (h : 16 ≤ n) : physReg r n = 16 + (n - 16 + r.val) % 48 := by
  simp [physReg, Nat.not_lt.mpr h]

/-- Core `u` is `c` after one rotation: the base one down, every physical register as it was. -/
structure WCore.Rotated (c u : WCore) : Prop where
  rrb : u.rrb.val = (c.rrb.val + 47) % 48
  phys : u.d = c.d

theorem WCore.Rotated.dr_static {c u : WCore} (h : c.Rotated u) {n : BitVec 6} (hn : n.toNat < 16) : u.dr n = c.dr n := by
  simp only [WCore.dr, WCore.phys, h.phys, physReg_static _ hn]

theorem WCore.Rotated.dr_succ {c u : WCore} (h : c.Rotated u) {n : BitVec 6} (lo : 16 ≤ n.toNat) (hi : n.toNat < 63) :
    u.dr (n + 1) = c.dr n := by
  have e : (n + 1).toNat = n.toNat + 1 := by bv_omega
  have r := h.rrb
  simp only [WCore.dr, WCore.phys, h.phys, e, physReg_rotating _ lo, physReg_rotating _ (Nat.le_succ_of_le lo)]
  congr 1
  omega

theorem WCore.Rotated.dr_wrap {c u : WCore} (h : c.Rotated u) : u.dr 16 = c.dr 63 := by
  have r := h.rrb
  have e : physReg u.rrb 16 = physReg c.rrb 63 := by
    rw [physReg_rotating _ (by decide), physReg_rotating _ (by decide)]
    omega
  change tabGet 0 u.d (physReg u.rrb 16) = tabGet 0 c.d (physReg c.rrb 63)
  rw [h.phys, e]

/-- An iteration of a rotating loop ends at the core's pc (R223, R242). -/
def WCore.endsRotating (c : WCore) : Bool :=
  match c.loops with
  | [] => false
  | l :: _ => decide (l.last = c.pc) && l.rot

theorem WCore.rotated_next {c : WCore} (h : c.endsRotating = true) : c.Rotated c.next := by
  refine ⟨?_, c.next_d⟩
  cases hl : c.loops with
  | nil => simp [WCore.endsRotating, hl] at h
  | cons l ls =>
    obtain ⟨hlast, hrot⟩ : l.last = c.pc ∧ l.rot = true := by simpa [WCore.endsRotating, hl] using h
    simp only [WCore.next, hl, hlast, hrot, if_true]
    split <;> rfl

theorem WCore.next_rrb {c : WCore} (h : c.endsRotating = false) : c.next.rrb = c.rrb := by
  cases hl : c.loops with
  | nil => simp [WCore.next, hl]
  | cons l ls =>
    by_cases hlast : l.last = c.pc
    · have hrot : l.rot = false := by simpa [WCore.endsRotating, hl, hlast] using h
      simp only [WCore.next, hl, hlast, hrot, if_true]
      split <;> rfl
    · simp [WCore.next, hl, hlast]

theorem WCore.dr_next {c : WCore} (h : c.endsRotating = false) (n : BitVec 6) : c.next.dr n = c.dr n := by
  simp only [WCore.dr, WCore.phys, WCore.next_rrb h, WCore.next_d]

theorem exec_rot (co : Core) (s : State) : exec (.rot co) s = execRot co s := rfl

/-- ROT rotates once where no iteration of a rotating loop ends with it. -/
theorem execRot_rotated {s : State} {co : Core} (h : s.issues co .rot) (e : (s.seen co).endsRotating = false) :
    ∃ u, execRot co s = .next u ∧ s.coreOnly u (coreKey co) ∧ (s.seen co).Rotated (u.core (coreKey co)) := by
  obtain ⟨u, hu, only, hc⟩ := s.issuePure_moves h fun _ c => c.rotate
  have e' : (s.sees co .rot).rotate.endsRotating = false := e
  refine ⟨u, hu, only, ?_, ?_⟩ <;> rw [hc]
  · rw [WCore.next_rrb e']; rfl
  · rw [WCore.next_d]; rfl

/-- Settles O58: a rotation turns only the names, `next` makes one exactly where a rotating iteration ends, and ROT
makes one by itself. -/
theorem rotation : Obligations.Rotation := by
  unfold Obligations.Rotation
  intro turned ends
  have turned_of {c u : WCore} (h : c.Rotated u) : turned c u :=
    ⟨h.rrb, fun _ => h.dr_static, fun _ => h.dr_succ, h.dr_wrap⟩
  have ends_eq : ends = WCore.endsRotating := rfl
  rw [ends_eq]
  refine ⟨fun c n => ⟨fun hn => ?_, fun hn => ?_⟩,
    fun c => ⟨fun h => turned_of (c.rotated_next h), fun h => ⟨WCore.next_rrb h, WCore.dr_next h⟩⟩, fun s co h e => ?_⟩
  · rw [WCore.dr, physReg_static _ hn]
  · rw [WCore.dr, physReg_rotating _ hn]
  · obtain ⟨u, hu, only, hr⟩ := execRot_rotated h e
    exact ⟨u, (exec_rot co s).trans hu, only, turned_of hr⟩

end Sys2Proof.Machine
end

section
/-! SUPPORT. Pointer updates (R233 to R235): the circular and the bit-reversed step as arithmetic modulo 2^16, and what a
load, a store and a dual move make of a pointer. -/
namespace Sys2Proof.Machine

/-! ### Steps -/

/-- A reversed word as a sum over its bits. -/
theorem toNat_reverse_eq_sum : ∀ {w : Nat} (x : BitVec w),
    x.reverse.toNat = ∑ i ∈ Finset.range w, if x.toNat.testBit i then 2 ^ (w - 1 - i) else 0
  | 0, x => by simp [BitVec.of_length_zero]
  | w + 1, x => by
    rw [BitVec.reverse, BitVec.toNat_concat, toNat_reverse_eq_sum, Finset.sum_range_succ, Finset.sum_mul]
    congr 1
    · refine Finset.sum_congr rfl fun i hi => ?_
      have hw := Finset.mem_range.mp hi
      have e : w + 1 - 1 - i = w - 1 - i + 1 := by omega
      rw [e, Nat.pow_succ]
      simp [hw]
    · rw [BitVec.msb_eq_getLsbD_last, BitVec.getLsbD]
      cases h : x.toNat.testBit w <;> simp [h]

theorem rev16_eq (x : BitVec 16) : rev16 x.toNat = x.reverse.toNat := by
  rw [toNat_reverse_eq_sum]
  simp [rev16, Finset.sum_range_succ, List.range_succ]

/-! A buffer's word holds FIRST in its upper half and LAST in its lower. -/

theorem toNat_div_65536 (b : BitVec 32) : b.toNat / 65536 = (b.extractLsb' 16 16).toNat := by
  have := b.isLt
  simp only [BitVec.extractLsb'_toNat, Nat.shiftRight_eq_div_pow]
  omega

theorem toNat_mod_65536 (b : BitVec 32) : b.toNat % 65536 = (b.extractLsb' 0 16).toNat := by
  simp [BitVec.extractLsb'_toNat]

theorem toNat_sub_16 (p first : BitVec 16) : (p.toNat + 65536 - first.toNat) % 65536 = (p - first).toNat := by
  bv_omega

/-- The circular step of R234 is arithmetic modulo the length of the buffer. -/
theorem ofNat_circular (first last p : BitVec 16) (step : Int) :
    BitVec.ofNat 16 (circular first.toNat last.toNat p.toNat step) =
      first + BitVec.ofInt 16 (((p - first).toNat + step) % ((last - first).toNat + 1 : Nat)) := by
  apply BitVec.eq_of_toNat_eq
  simp only [circular, toNat_sub_16, BitVec.toNat_ofNat, BitVec.toNat_add, BitVec.toNat_ofInt]
  have h0 := Int.emod_nonneg ((p - first).toNat + step) (b := ((last - first).toNat + 1 : Nat)) (by omega)
  omega

/-- The bit-reversed step of R235 is an addition whose carries run from the top bit down. -/
theorem ofNat_bitReversed (first p : BitVec 16) (step : Int) :
    BitVec.ofNat 16 (bitReversed first.toNat p.toNat step) =
      first + ((p - first).reverse + (BitVec.ofInt 16 step).reverse).reverse := by
  have hs : (step % 65536).toNat = (BitVec.ofInt 16 step).toNat := by simp
  apply BitVec.eq_of_toNat_eq
  rw [bitReversed, toNat_sub_16, hs, rev16_eq, rev16_eq]
  rw [show 65536 = 2 ^ 16 from rfl, ← BitVec.toNat_add, rev16_eq]
  simp

/-- The address mode of p0 to p3 is a field of wsr (R225). -/
theorem WCore.am_eq {c : WCore} {k : Nat} (hk : k < 4) {v : BitVec 2}
    (h : (c.wsr >>> (8 + 2 * k)).setWidth 2 = v) : c.am k = v.toNat := by
  subst h
  simp [WCore.am, hk, Nat.shiftRight_eq_div_pow]

section
variable (c : WCore)

/-- FIRST of the buffer of pointer `j` (R234). -/
def WCore.bufFirst (j : BitVec 4) : BitVec 16 := (tabGet (0 : BitVec 32) c.cb j.toNat).extractLsb' 16 16
/-- LAST of the buffer of pointer `j` (R234). -/
def WCore.bufLast (j : BitVec 4) : BitVec 16 := (tabGet (0 : BitVec 32) c.cb j.toNat).extractLsb' 0 16

theorem WCore.stepped_circular {j : BitVec 4} (h : c.am j.toNat = 1) (p : BitVec 16) (step : Int) :
    c.stepped j p step = c.bufFirst j + BitVec.ofInt 16
      (((p - c.bufFirst j).toNat + step) % ((c.bufLast j - c.bufFirst j).toNat + 1 : Nat)) := by
  simp only [WCore.stepped, h, toNat_div_65536, toNat_mod_65536]
  exact ofNat_circular ..

theorem WCore.stepped_bitReversed {j : BitVec 4} (h : c.am j.toNat = 2) (p : BitVec 16) (step : Int) :
    c.stepped j p step =
      c.bufFirst j + ((p - c.bufFirst j).reverse + (BitVec.ofInt 16 step).reverse).reverse := by
  simp only [WCore.stepped, h, toNat_div_65536]
  exact ofNat_bitReversed ..

/-! ### Pointers through an access -/

@[simp] theorem WCore.ptr_access (k : Nat) (store : Bool) (reg : BitVec 6) (a : Nat) (j : BitVec 4) :
    (c.access k store reg a).ptr j = c.ptr j := by cases store <;> rfl
@[simp] theorem WCore.stepped_access (k : Nat) (store : Bool) (reg : BitVec 6) (a : Nat) :
    (c.access k store reg a).stepped = c.stepped := by cases store <;> rfl
@[simp] theorem WCore.stepped_memPtr (m : MemMode) (j : BitVec 4) : (c.memPtr m j).stepped = c.stepped := by
  cases m <;> rfl
@[simp] theorem State.ptr_sees (s : State) (co : Core) (i : WInstr) : (s.sees co i).ptr = (s.seen co).ptr := rfl
@[simp] theorem State.stepped_sees (s : State) (co : Core) (i : WInstr) : (s.sees co i).stepped = (s.seen co).stepped := rfl

theorem WCore.ptr_setPtr (j i : BitVec 4) (v : BitVec 16) : (c.setPtr j v).ptr i = if i = j then v else c.ptr i := by
  simp only [WCore.ptr, WCore.setPtr, tabGet_tabSet, BitVec.toNat_inj]

/-- What mode `m` adds to the pointer it goes through; none where it has no post-increment or post-modify (R233). -/
def WCore.stepOf : MemMode → Option Int
  | .ind | .idx _ => none
  | .inc i => some i.toInt
  | .post j => some (c.ptr j).toInt

/-- Pointer `j` after an access through it in mode `m` (R233). -/
def WCore.ptrAfter (m : MemMode) (j : BitVec 4) : BitVec 16 := (c.stepOf m).elim (c.ptr j) (c.stepped j (c.ptr j))

theorem WCore.ptrAfter_of_some {m : MemMode} {step : Int} (h : c.stepOf m = some step) (j : BitVec 4) :
    c.ptrAfter m j = c.stepped j (c.ptr j) step := by simp [WCore.ptrAfter, h]
theorem WCore.ptrAfter_of_none {m : MemMode} (h : c.stepOf m = none) (j : BitVec 4) : c.ptrAfter m j = c.ptr j := by
  simp [WCore.ptrAfter, h]
@[simp] theorem WCore.ptrAfter_access (k : Nat) (store : Bool) (reg : BitVec 6) (a : Nat) :
    (c.access k store reg a).ptrAfter = c.ptrAfter := by
  funext m j
  cases m <;> simp [WCore.ptrAfter, WCore.stepOf]
@[simp] theorem State.ptrAfter_sees (s : State) (co : Core) (i : WInstr) :
    (s.sees co i).ptrAfter = (s.seen co).ptrAfter := rfl

theorem WCore.ptr_memPtr (m : MemMode) (j i : BitVec 4) :
    (c.memPtr m j).ptr i = if i = j then c.ptrAfter m j else c.ptr i := by
  cases m with
  | ind | idx _ => by_cases h : i = j <;> simp [WCore.memPtr, WCore.ptrAfter, WCore.stepOf, h]
  | inc _ | post _ => exact c.ptr_setPtr ..

theorem WCore.ptr_move (k : Nat) (x : DMove) (i : BitVec 4) :
    (c.move k x).ptr i = if i = x.pk then c.stepped x.pk (c.ptr x.pk) x.i.toInt else c.ptr i := by
  simp [WCore.move, WCore.ptr_memPtr, WCore.ptrAfter, WCore.stepOf]

@[simp] theorem WCore.stepped_move (k : Nat) (x : DMove) : (c.move k x).stepped = c.stepped := by simp [WCore.move]
end

/-! ### LD, ST and DMOV -/
section
variable {s : State} {co : Core}

/-- The effect of a load or a store on the pointer it goes through. -/
theorem State.issuePure_access_ptr {store : Bool} {reg : BitVec 6} {m : MemMode} {j : BitVec 4}
    (h : s.issues co (.mem store reg m j)) :
    ∃ u, s.issuePure co (.mem store reg m j)
        (fun k c => (c.access k store reg (c.memAddr m j)).memPtr m j) = .next u ∧
      (u.core (coreKey co)).ptr j = (s.seen co).ptrAfter m j := by
  obtain ⟨u, hu, -, hc⟩ := s.issuePure_moves h fun k c => (c.access k store reg (c.memAddr m j)).memPtr m j
  exact ⟨u, hu, by simp [hc, WCore.ptr_memPtr]⟩

theorem exec_ld_ptr {reg : BitVec 6} {m : MemMode} {j : BitVec 4} (h : s.issues co (.mem false reg m j)) :
    ∃ u, exec (.ld co reg m j) s = .next u ∧ (u.core (coreKey co)).ptr j = (s.seen co).ptrAfter m j :=
  State.issuePure_access_ptr h

theorem exec_st_ptr {reg : BitVec 6} {m : MemMode} {j : BitVec 4} (h : s.issues co (.mem true reg m j)) :
    ∃ u, exec (.st co reg m j) s = .next u ∧ (u.core (coreKey co)).ptr j = (s.seen co).ptrAfter m j :=
  State.issuePure_access_ptr h

/-- A dual move steps the pointer of slot A, then that of slot B. -/
theorem exec_dmov_ptr {x y : DMove} (h : s.issues co (.dmov x y)) (j : BitVec 4) :
    ∃ u, exec (.dmov co x y) s = .next u ∧ (u.core (coreKey co)).ptr j =
      (((s.seen co).move (coreKey co) x).move (coreKey co) y).ptr j := by
  obtain ⟨u, hu, -, hc⟩ := s.issuePure_moves h fun k c => (c.move k x).move k y
  exact ⟨u, hu, by simp [hc, WCore.ptr_move]⟩
end

/-- Settles O59: every update goes through `WCore.stepped`, which is the rule that wsr.AMk selects. -/
theorem pointerModes : Obligations.PointerModes := by
  unfold Obligations.PointerModes
  intro s co reg k key pk am first last circ brev rule hrule ham
  have hpk : pk.toNat = k := Nat.mod_eq_of_lt (by omega)
  have hfirst : first (s.seen co) = (s.seen co).bufFirst pk := by simp only [first, WCore.bufFirst, hpk]
  have hlast : last (s.seen co) = (s.seen co).bufLast pk := by simp only [last, WCore.bufLast, hpk]
  have hstep : ∀ p step, rule.2 (s.seen co) p step = (s.seen co).stepped pk p step := by
    intro p step
    have ham' : (s.seen co).am pk.toNat = rule.1.toNat := hpk ▸ WCore.am_eq k.isLt ham
    obtain rfl | rfl : rule = (1, circ) ∨ rule = (2, brev) := by simpa using hrule
    · rw [WCore.stepped_circular _ ham', ← hfirst, ← hlast]
    · rw [WCore.stepped_bitReversed _ ham', ← hfirst]
  simp only [hstep]
  refine ⟨fun m step hm => ?_, fun x y h => ?_, fun m hm => ?_⟩
  · have hs : (s.seen co).stepOf m = some step := by
      obtain ⟨i, rfl, rfl⟩ | ⟨j, rfl, rfl⟩ := hm <;> rfl
    rw [← WCore.ptrAfter_of_some _ hs]
    exact ⟨exec_ld_ptr, exec_st_ptr⟩
  · obtain ⟨u, hu, hp⟩ := exec_dmov_ptr h pk
    simp only [WCore.ptr_move, WCore.stepped_move] at hp
    refine ⟨u, hu, fun hx hy => ?_, fun hx hy => ?_, fun hx hy => ?_⟩
    · simpa [hx, Ne.symm hy] using hp
    · simpa [Ne.symm hx, hy] using hp
    · simpa [hx, hy] using hp
  · have hs : (s.seen co).stepOf m = none := by
      obtain rfl | ⟨i, rfl⟩ := hm <;> rfl
    rw [← WCore.ptrAfter_of_none _ hs]
    exact ⟨exec_ld_ptr, exec_st_ptr⟩

end Sys2Proof.Machine
end
